-- ==== Sys2Proof/Word.lean ====
section
/-! DEFINITION. The words of the part: a byte as it stands in a frame, the sixteen-bit counters that wrap, and the
three widths of address and serial the frames carry. -/

namespace Sys2Proof

/-- One byte of a frame. -/
abbrev Byte := BitVec 8

/-- A sequence number that runs from 65,535 to 0 (R95, R106, R123, R145, R159, R185). -/
abbrev Seq16 := BitVec 16

/-- An Ethernet address or the unit serial (R179, R192). -/
abbrev Word48 := BitVec 48

end Sys2Proof
end

