-- ==== Sys2Proof/Syntax.lean ====
section
/-! DEFINITION. The commands of the part: one constructor of `Instr` for each row of spec/opcode_table.json, with the
operands the spec's rules give the event or the operation.

Every command carries `after`, the number of oscillator periods that pass between the command before it and itself
(assumption 1): so a list of commands is a timed scenario. -/

namespace Sys2Proof

/-- The two ring pairs: east is LE with SE, west is LW with SW (chapter 5, opening table). -/
inductive Side where
  | east
  | west
  deriving DecidableEq, Repr, Inhabited

/-- The eight Ethernet ports: LE and LW, SE and SW, A0 to A3 (00_scope.md, Scope). -/
inductive Port where
  | line (d : Side)
  | site (d : Side)
  | access (i : Fin 4)
  deriving DecidableEq, Repr

/-- The four ports of the two pairs, at which a management request may arrive (R180). -/
inductive Via where
  | line (d : Side)
  | site (d : Side)
  deriving DecidableEq, Repr

/-- The three candidates in their fixed order (section 2.1). -/
inductive Cand where
  | ref
  | fwd
  | rev
  deriving DecidableEq, Repr

/-- A time value: seconds, nanoseconds, and the picoseconds that sums formed inside the part carry (R1). -/
structure TimeValue where
  sec : Nat
  ns : Nat
  ps : Nat
  deriving DecidableEq, Repr

/-- A timestamp: the time value and the step total at one instant, in picoseconds (R3). -/
structure Stamp where
  time : TimeValue
  steps : Int
  deriving DecidableEq, Repr

/-- A frame on the wire: its addresses, its frame type, its payload, and whether its check sequence matches its
contents (R82, R192). -/
structure RawFrame where
  dst : Word48
  src : Word48
  ftype : BitVec 16
  payload : List Byte
  fcsOk : Bool
  deriving DecidableEq, Repr

/-- The two halves of a frame's arrival: its first byte reaches the port, which gives the frame its receive instant, and
its last byte, with which the part has the whole frame (R82, R80; assumption 5). -/
inductive Arrival where
  | begins
  | ends
  deriving DecidableEq, Repr

/-- What one REFT message announces for the next pulse (section 2.3). -/
structure Announcement where
  sec : Nat
  valid : Bool
  code : Fin 4
  deriving DecidableEq, Repr

/-- One entry of a management frame: its index and the bytes of its value (section 12.2). -/
structure Entry where
  index : Nat
  value : List Byte
  deriving DecidableEq, Repr

/-- The four relay fields of a management frame (section 12.2). -/
structure RelayFields where
  handle : Nat
  rseq : BitVec 8
  requester : Nat
  port : Side
  deriving DecidableEq, Repr

/-- How a request reached the management unit: the port it was claimed at, its tag, and its relay fields where it
carries them (R180, R186). -/
structure ReqEnv where
  via : Via
  tag : BitVec 16
  relay : Option RelayFields
  deriving DecidableEq, Repr

/-- What a WRITE carries: the first index, the count, and the entries (R181, R182). -/
structure WriteArgs where
  first : Nat
  count : Nat
  entries : List Entry
  deriving DecidableEq, Repr

/-- The commands: one constructor for each row of spec/opcode_table.json. -/
inductive Instr where
  | powerOn (after : Nat)
  | resetn (after : Nat)
  | loadingEnd (after : Nat)
  | linkDown (after : Nat) (p : Port)
  | linkUp (after : Nat) (p : Port)
  | guardChange (after : Nat) (asserted : Bool)
  | refpPulse (after : Nat)
  | reftAnnouncement (after : Nat) (a : Announcement)
  | missingSecond (after : Nat)
  | qualifyTimeReached (after : Nat) (c : Cand)
  | originEntryExpiry (after : Nat) (d : Side) (origin : Nat)
  | sensorReading (after : Nat) (answer : Option Int)
  | holdoverTick (after : Nat)
  | pulseCrossing (after : Nat) (a : Fin 4)
  | epochInstantCrossing (after : Nat)
  | accessEpochCrossing (after : Nat) (a : Fin 4)
  | probeInterval (after : Nat) (d : Side)
  | replyWaitTimeout (after : Nat) (d : Side)
  | takeoverTimeReached (after : Nat)
  | revertWatchGapExpiry (after : Nat)
  | revertHoldOffReached (after : Nat)
  | rollClockTick (after : Nat)
  | rollTimeout (after : Nat)
  | headEntryExpiry (after : Nat) (head : Nat)
  | duplicateFlagExpiry (after : Nat)
  | restoreTimeReached (after : Nat) (a : Fin 4)
  | soakEnd (after : Nat) (point : Nat)
  | relayTimeout (after : Nat) (handle : Nat)
  | commitEnd (after : Nat) (verified : Bool)
  | softRestartEffect (after : Nat)
  | throughFrameArrival (after : Nat) (via : Via) (a : Arrival) (f : RawFrame)
  | frameReceiveDiscard (after : Nat) (p : Port) (a : Arrival) (f : RawFrame)
  | epochArrival (after : Nat) (d : Side) (a : Arrival) (f : RawFrame)
  | spanProbeArrival (after : Nat) (d : Side) (a : Arrival) (f : RawFrame)
  | spanReplyArrival (after : Nat) (d : Side) (a : Arrival) (f : RawFrame)
  | rollArrival (after : Nat) (d : Side) (a : Arrival) (f : RawFrame)
  | configArrival (after : Nat) (d : Side) (a : Arrival) (f : RawFrame)
  | mgmtRequestArrival (after : Nat) (via : Via) (a : Arrival) (f : RawFrame)
  | mgmtResponseArrival (after : Nat) (d : Side) (a : Arrival) (f : RawFrame)
  | accessSpanProbe (after : Nat) (i : Fin 4) (a : Arrival) (f : RawFrame)
  | transmissionEnd (after : Nat) (p : Port)
  | read (after : Nat) (env : ReqEnv) (table : Nat) (first : Nat) (count : Nat)
  | writeNode (after : Nat) (env : ReqEnv) (w : WriteArgs)
  | writeRing (after : Nat) (env : ReqEnv) (w : WriteArgs)
  | writePort (after : Nat) (env : ReqEnv) (w : WriteArgs)
  | writeCandidate (after : Nat) (env : ReqEnv) (w : WriteArgs)
  | writeServo (after : Nat) (env : ReqEnv) (w : WriteArgs)
  | writeThermal (after : Nat) (env : ReqEnv) (w : WriteArgs)
  | writeQuality (after : Nat) (env : ReqEnv) (w : WriteArgs)
  | writeAlarmProfile (after : Nat) (env : ReqEnv) (w : WriteArgs)
  | clearCounters (after : Nat) (env : ReqEnv)
  | clearHistory (after : Nat) (env : ReqEnv)
  | softRestart (after : Nat) (env : ReqEnv)
  | reloadProfile (after : Nat) (env : ReqEnv)
  | commitProfile (after : Nat) (env : ReqEnv)
  | lockTable (after : Nat) (env : ReqEnv) (table : Nat) (entries : List Entry)
  | unlockTable (after : Nat) (env : ReqEnv) (table : Nat)
  | select (after : Nat) (env : ReqEnv) (candidate : Nat)
  | clearSelect (after : Nat) (env : ReqEnv)
  deriving DecidableEq, Repr

end Sys2Proof
end

