-- ==== Sys2Proof/Decode.lean ====
section
/-! DEFINITION. What a word of bits spells. The part is a block: its commands are events and operations, and
spec/opcode_table.json gives none of its rows any bits, so no word spells a command (assumption 18). The bytes of the
part's frames are read by Machine/Operands.lean. -/

namespace Sys2Proof

/-- The command a word spells by the table's bits: none, since no row of the table has bits. -/
def decodeTableWord (_nbits _w : Nat) : Option Instr := none

end Sys2Proof
end

