-- ==== Sys2Proof/Config.lean ====
section
/-! DEFINITION. What a unit is configured with: the eight writable tables (R178), the built-in profile that stands
behind them, and the free values the spec leaves open. -/

namespace Sys2Proof

/-- Quality classes, best first (R72). -/
inductive QClass where
  | q0
  | q1
  | q2
  | q3
  | q4
  deriving DecidableEq, Repr, Inhabited

/-- The number of a class; a lower number is better (section 4.5). -/
def QClass.num : QClass → Nat
  | .q0 => 0
  | .q1 => 1
  | .q2 => 2
  | .q3 => 3
  | .q4 => 4

/-- The class of a number; any number above 4 reads as Q4. -/
def QClass.ofNum : Nat → QClass
  | 0 => .q0
  | 1 => .q1
  | 2 => .q2
  | 3 => .q3
  | _ => .q4

/-- One value for each ring pair. -/
structure Pair (α : Type) where
  east : α
  west : α
  deriving DecidableEq, Repr

def Pair.get {α : Type} (p : Pair α) : Side → α
  | .east => p.east
  | .west => p.west

def Pair.set {α : Type} (p : Pair α) (d : Side) (v : α) : Pair α :=
  match d with
  | .east => { p with east := v }
  | .west => { p with west := v }

/-- One value for each access port, A0 to A3. -/
structure Quad (α : Type) where
  a0 : α
  a1 : α
  a2 : α
  a3 : α
  deriving DecidableEq, Repr

def Quad.get {α : Type} (q : Quad α) (i : Fin 4) : α :=
  if i = 0 then q.a0 else if i = 1 then q.a1 else if i = 2 then q.a2 else q.a3

def Quad.set {α : Type} (q : Quad α) (i : Fin 4) (v : α) : Quad α :=
  if i = 0 then { q with a0 := v } else if i = 1 then { q with a1 := v }
  else if i = 2 then { q with a2 := v } else { q with a3 := v }

/-- One value for each candidate. -/
structure Trio (α : Type) where
  ref : α
  fwd : α
  rev : α
  deriving DecidableEq, Repr

def Trio.get {α : Type} (t : Trio α) : Cand → α
  | .ref => t.ref
  | .fwd => t.fwd
  | .rev => t.rev

def Trio.set {α : Type} (t : Trio α) (c : Cand) (v : α) : Trio α :=
  match c with
  | .ref => { t with ref := v }
  | .fwd => { t with fwd := v }
  | .rev => { t with rev := v }

/-- The role a node is given (R179). -/
inductive NodeRole where
  | primary
  | standby
  | member
  deriving DecidableEq, Repr

/-- The alarm notice ports field (R179). -/
inductive NoticePorts where
  | se
  | sw
  | both
  | none
  deriving DecidableEq, Repr

/-- The NODE table (R179). -/
structure NodeTable where
  id : Nat
  ringId : Nat
  role : NodeRole
  refFitted : Bool
  ftype : BitVec 16
  group : Word48
  notice : NoticePorts
  ringGuard : Bool
  relayTimeout : Nat
  serial : Word48
  deriving DecidableEq, Repr

/-- The RING table (R141). The roll timeout is in units of 0.1 ms. -/
structure RingTable where
  gen : Nat
  rate : Nat
  interval : Nat
  timeout : Nat
  primary : Nat
  standby : Option Nat
  takeover : Nat
  revert : Nat
  members : List Nat
  deriving DecidableEq, Repr

/-- The span fields of the PORT records of LE and LW (R93). -/
structure LineCfg where
  neighbour : Option Nat
  freeze : Bool
  asym : Int
  errThreshold : Nat
  deriving DecidableEq, Repr

/-- What an access port delivers (R152). -/
inductive AccessMode where
  | off
  | frames
  | pulse
  | both
  deriving DecidableEq, Repr

/-- What an access port does while the own class is worse than its floor (R152). -/
inductive LossBehaviour where
  | continue
  | mark
  | squelch
  deriving DecidableEq, Repr

/-- The fields of the PORT records of A0 to A3 (R152). -/
structure AccessCfg where
  mode : AccessMode
  rate : Nat
  advance : Nat
  floor : QClass
  loss : LossBehaviour
  restore : Nat
  deriving DecidableEq, Repr

/-- The PORT table (R93, R152). -/
structure PortTable where
  line : Pair LineCfg
  access : Quad AccessCfg
  deriving DecidableEq, Repr

/-- One record of the CANDIDATE table; only REF's record has the cable delay (R27). -/
structure CandCfg where
  enabled : Bool
  priority : Nat
  qualify : Nat
  cable : Nat
  deriving DecidableEq, Repr

/-- The SERVO table (R12). -/
structure ServoTable where
  n : Nat
  gate : Nat
  stepThr : Nat
  lockThr : Nat
  unlockThr : Nat
  kp : Nat
  ki : Nat
  limit : Nat
  deriving DecidableEq, Repr

/-- The THERMAL table (R51): sixteen gradients, three thresholds and the hysteresis in degrees, and the allowances. -/
structure ThermalTable where
  grads : List Int
  ta : Int
  tb : Int
  tc : Int
  th : Int
  dCold : Nat
  dNormal : Nat
  dWarm : Nat
  dHot : Nat
  aging : Nat
  deriving DecidableEq, Repr

/-- The QUALITY table (R73). -/
structure QualityTable where
  limit1 : Nat
  limit2 : Nat
  base : Nat
  deriving DecidableEq, Repr

/-- Alarm severities, worst first (R167). -/
inductive Severity where
  | critical
  | major
  | minor
  | warning
  deriving DecidableEq, Repr

/-- One record of the ALARM-PROFILE table; soaks are in units of 0.1 s (R167). -/
structure AlarmCfg where
  severity : Severity
  report : Bool
  raiseSoak : Nat
  clearSoak : Nat
  deriving DecidableEq, Repr

/-- The eight writable tables in the order of their ids (R178). -/
structure Tables where
  node : NodeTable
  ring : RingTable
  port : PortTable
  cand : Trio CandCfg
  servo : ServoTable
  thermal : ThermalTable
  quality : QualityTable
  alarm : List AlarmCfg
  deriving DecidableEq, Repr

/-- The names of the eight writable tables (R178). -/
inductive TableName where
  | node
  | ring
  | port
  | cand
  | servo
  | thermal
  | quality
  | alarm
  deriving DecidableEq, Repr

/-- The lock state of a writable table (R184). -/
inductive Lock where
  | opened
  | locked
  | lockedDown
  deriving DecidableEq, Repr

/-- One value for each writable table. -/
structure PerTable (α : Type) where
  node : α
  ring : α
  port : α
  cand : α
  servo : α
  thermal : α
  quality : α
  alarm : α
  deriving DecidableEq, Repr

def PerTable.get {α : Type} (p : PerTable α) : TableName → α
  | .node => p.node
  | .ring => p.ring
  | .port => p.port
  | .cand => p.cand
  | .servo => p.servo
  | .thermal => p.thermal
  | .quality => p.quality
  | .alarm => p.alarm

def PerTable.set {α : Type} (p : PerTable α) (t : TableName) (v : α) : PerTable α :=
  match t with
  | .node => { p with node := v }
  | .ring => { p with ring := v }
  | .port => { p with port := v }
  | .cand => { p with cand := v }
  | .servo => { p with servo := v }
  | .thermal => { p with thermal := v }
  | .quality => { p with quality := v }
  | .alarm => { p with alarm := v }

namespace Config

/-- The vendor frame type of the built-in profile (R86, R179). -/
def defaultType : BitVec 16 := 0x88B5#16

/-- The NODE table of the built-in profile, for a unit of the given serial (R179). -/
def node (serial : Word48) : NodeTable :=
  { id := 0, ringId := 0, role := .member, refFitted := false, ftype := defaultType,
    group := 0x03005A000001#48, notice := .both, ringGuard := false, relayTimeout := 200, serial := serial }

/-- The RING table of the built-in profile (R141). -/
def ring : RingTable :=
  { gen := 0, rate := 8, interval := 100, timeout := 200, primary := 0, standby := none, takeover := 5,
    revert := 10, members := [0] }

/-- The default span fields (R93). -/
def line : LineCfg := { neighbour := none, freeze := false, asym := 0, errThreshold := 16 }

/-- The default access port fields (R152). -/
def access : AccessCfg :=
  { mode := .off, rate := 8, advance := 0, floor := .q3, loss := .squelch, restore := 10 }

/-- The CANDIDATE table of the built-in profile (R27). -/
def cand : Trio CandCfg :=
  { ref := { enabled := true, priority := 1, qualify := 10, cable := 0 },
    fwd := { enabled := true, priority := 2, qualify := 2, cable := 0 },
    rev := { enabled := true, priority := 2, qualify := 2, cable := 0 } }

/-- The SERVO table of the built-in profile (R12). -/
def servo : ServoTable :=
  { n := 8, gate := 500, stepThr := 1000, lockThr := 100, unlockThr := 1000, kp := 1, ki := 4, limit := 50000000 }

/-- The THERMAL table of the built-in profile (R51). -/
def thermal : ThermalTable :=
  { grads := [0, 0, 0, 0, 0, 0, 0, 0, 0, 0, 0, 0, 0, 0, 0, 0], ta := -5, tb := 45, tc := 70, th := 3,
    dCold := 30, dNormal := 10, dWarm := 15, dHot := 40, aging := 50 }

/-- The QUALITY table of the built-in profile (R73). -/
def quality : QualityTable := { limit1 := 400, limit2 := 1100, base := 20 }

/-- The ALARM-PROFILE table of the built-in profile, in kind order (R167). -/
def alarm : List AlarmCfg :=
  [⟨.major, true, 25, 100⟩, ⟨.minor, true, 25, 100⟩, ⟨.minor, true, 25, 100⟩, ⟨.major, true, 0, 100⟩,
   ⟨.critical, true, 0, 100⟩, ⟨.critical, true, 50, 100⟩, ⟨.major, true, 0, 30⟩, ⟨.major, true, 20, 20⟩,
   ⟨.major, true, 10, 50⟩, ⟨.major, true, 10, 50⟩, ⟨.minor, true, 10, 10⟩, ⟨.warning, true, 300, 300⟩,
   ⟨.minor, true, 30, 30⟩, ⟨.minor, true, 0, 0⟩, ⟨.major, true, 0, 20⟩, ⟨.major, true, 0, 0⟩]

/-- The built-in profile as a whole, for a unit of the given serial (R190). -/
def builtIn (serial : Word48) : Tables :=
  { node := node serial, ring := ring,
    port := { line := ⟨line, line⟩, access := ⟨access, access, access, access⟩ },
    cand := cand, servo := servo, thermal := thermal, quality := quality, alarm := alarm }

/-- Header fields whose value no rule gives for some kinds of frame: a free value (assumption 6). The ids run to 32,
which stands for 255. -/
structure OpenHeader where
  rev : Bool
  origin : Fin 33
  target : Fin 33
  hops : Fin 32
  deriving DecidableEq, Repr, Inhabited

/-- The free value behind the header fields the spec does not state: a function of the kind number, the sequence and
the count of oscillator periods at which the frame is formed. It has no body, so no proof can know it. -/
opaque openHeader : Nat → Nat → Nat → OpenHeader

end Config

end Sys2Proof
end

