-- ==== Sys2Proof/Machine/State.lean ====
section
/-! DEFINITION. The state of the part: the frames it holds, the state of every block, the profile store, the tables
and the queue of waiting commands, with the state right after power-on.

`Live` is what the blocks hold and events change. The tables, the lock states and the store stand beside it in
`State`, since only management requests, CONFIG adoption and the resets change them. -/

namespace Sys2Proof.Machine

/-! ## Frames -/

/-- The Ethernet fields the part gives every frame it forms (R192). -/
structure Eth where
  dst : Word48
  src : Word48
  ftype : BitVec 16
  deriving DecidableEq, Repr

/-- The common header, less version, kind and body length (section 12.1). `rev` is the direction flag. -/
structure Header where
  ring : Nat
  rev : Bool
  looped : Bool
  origin : Nat
  sender : Nat
  target : Nat
  hops : Nat
  seq : Seq16
  deriving DecidableEq, Repr

/-- The time of the whole nanosecond, as frames carry it (section 12.1). -/
structure NsTime where
  sec : Nat
  ns : Nat
  deriving DecidableEq, Repr

/-- The body of an EPOCH (section 12.2). -/
structure EpochBody where
  time : NsTime
  corr : Int
  cls : QClass
  rank : Nat
  deriving DecidableEq, Repr

/-- The states of the servo, in their wire order (R9, section 12.2). -/
inductive ServoState where
  | freerun
  | acquire
  | locked
  | holdover
  deriving DecidableEq, Repr

/-- A filled ROLL slot (section 12.2); an empty slot is an absent one. `summary` is 0 NONE to 4 CRITICAL. -/
structure Slot where
  fillSeq : Seq16
  servo : ServoState
  cls : QClass
  summary : Nat
  gen : Nat
  stale : Bool
  mismatch : Bool
  duplicate : Bool
  carried : Bool
  serial : Word48
  deriving DecidableEq, Repr

/-- Ring status (R127, R138), in wire order. -/
inductive RingStatus where
  | forward
  | reverse
  | loopbackBoth
  | loopbackFwd
  | loopbackRev
  | isolated
  | unknown
  deriving DecidableEq, Repr

/-- The body of a ROLL (R123, section 12.2). The three sets are bit vectors as the wire carries them. -/
structure RollBody where
  rank : Nat
  seq : Seq16
  status : RingStatus
  loopId : Option Nat
  headGen : Nat
  silent : BitVec 32
  mismatch : BitVec 32
  pending : BitVec 32
  slots : List (Option Slot)
  deriving DecidableEq, Repr

/-- The body of a CONFIG: the target and the nine entries of the head's RING table (R145). -/
structure ConfigBody where
  target : Nat
  ring : RingTable
  deriving DecidableEq, Repr

/-- The body of a MGMT-REQUEST (section 12.2): `op` is 1 READ, 2 WRITE, 3 COMMAND, or a number that R181 answers with
BAD-REQUEST, and `code` the table id or the command code. -/
structure ReqBody where
  tag : BitVec 16
  relay : Option RelayFields
  op : Nat
  code : Nat
  first : Nat
  count : Nat
  entries : List Entry
  deriving DecidableEq, Repr

/-- The status codes of a response, in wire order (section 12.2). -/
inductive Status where
  | done
  | badRequest
  | badTable
  | badIndex
  | badValue
  | locked
  | guarded
  | busy
  | notNow
  | notHead
  | unreachable
  | timeout
  | badStore
  deriving DecidableEq, Repr

/-- The body of a MGMT-RESPONSE (section 12.2). -/
structure RespBody where
  tag : BitVec 16
  relay : Option RelayFields
  status : Status
  count : Nat
  entries : List Entry
  deriving DecidableEq, Repr

/-- One event of the alarm history (R171). -/
structure AlarmRecord where
  kind : Nat
  inst : Nat
  cleared : Bool
  severity : Severity
  time : Nat
  deriving DecidableEq, Repr

/-- The body of an ALARM-NOTICE (R173). -/
structure NoticeBody where
  node : Nat
  record : AlarmRecord
  deriving DecidableEq, Repr

/-- The bodies of the eight kinds (section 12.2). -/
inductive Body where
  | epoch (b : EpochBody)
  | probe (seq : Seq16)
  | reply (seq : Seq16) (t2 t3 : NsTime)
  | roll (b : RollBody)
  | config (b : ConfigBody)
  | request (b : ReqBody)
  | response (b : RespBody)
  | notice (b : NoticeBody)
  deriving DecidableEq, Repr

/-- A frame of the part's own protocol. -/
structure Frame where
  hdr : Header
  body : Body
  deriving DecidableEq, Repr

/-- What the owner of a queued frame has still to do at its transmit instant, or to learn if it is lost (R88, R91,
R95, R124, R191). -/
inductive Note where
  | plain
  | origEpoch
  | fwdEpoch (df : Int) (rx : Stamp)
  | probe
  | reply (rx : Stamp)
  | roll (seq : Seq16) (rev : Bool)
  | restart
  deriving DecidableEq, Repr

/-- An own frame as an insert queue holds it. -/
structure QFrame where
  eth : Eth
  frame : Frame
  note : Note
  deriving DecidableEq, Repr

/-- The frame a transmitter is sending. -/
inductive Sending where
  | own (q : QFrame)
  | through (f : RawFrame)
  deriving DecidableEq, Repr

/-! ## Blocks -/

/-- Whether the part is LOADING or RUNNING (R190). -/
inductive Part where
  | loading
  | running
  deriving DecidableEq, Repr

/-- The time scale unit: the time value, the remainder, the step total, F_total, and K of each access port (R1 to R8). -/
structure TimeScale where
  value : TimeValue
  rem : Nat
  steps : Int
  fTotal : Int
  k : Quad Nat
  deriving DecidableEq, Repr

/-- One entry of the sample queue (section 1.5). -/
structure Sample where
  theta : Int
  accept : Bool
  deriving DecidableEq, Repr

/-- The servo (sections 1.3 to 1.9) with the holdover history it keeps (R63). -/
structure Servo where
  state : ServoState
  integ : Int
  fServo : Int
  queue : List Sample
  lockRun : Nat
  unlockRun : Nat
  skipRun : Nat
  ungated : Bool
  lastTheta : Int
  phaseUnstable : Bool
  history : List Int
  phaseSteps : Nat
  gated : Nat
  skipped : Nat
  deriving DecidableEq, Repr

/-- A timer that measures a step-free interval: where it started, and what it stood at then, in ps (R3, R29, R30). -/
structure Timer where
  since : Stamp
  base : Nat
  deriving DecidableEq, Repr

/-- An origins-heard entry (R38). `gapSince` is the instant from which its 3 epoch intervals are counted. -/
structure OriginHeard where
  id : Nat
  rank : Nat
  cls : QClass
  hops : Nat
  heardAt : Stamp
  gapSince : Stamp
  deriving DecidableEq, Repr

/-- The states of a candidate (section 2.2). -/
inductive CandState where
  | disabled
  | unavailable
  | qualifying
  | available
  | selected
  deriving DecidableEq, Repr

/-- A candidate's status record (R28). `last` holds θ and the seconds at which the sample was formed. -/
structure CandRec where
  state : CandState
  offered : QClass
  hops : Option Nat
  preferred : Option Nat
  origins : List OriginHeard
  last : Option (Int × Nat)
  qual : Option Timer
  deriving DecidableEq, Repr

/-- The REF input (R33, R34) with its jump counter (R28). -/
structure RefInput where
  pending : Option Announcement
  unusable : Nat
  expected : Option Nat
  watch : Stamp
  jumps : Nat
  deriving DecidableEq, Repr

/-- The state of the temperature sensor (R47). -/
inductive SensorState where
  | starting
  | good
  | fault
  deriving DecidableEq, Repr

/-- The thermal zones (section 3.3). -/
inductive Zone where
  | cold
  | normal
  | warm
  | hot
  deriving DecidableEq, Repr

/-- The thermal unit (chapter 3). `next` is the oscillator count of the next reading instant. -/
structure Thermal where
  sensor : SensorState
  lastRaw : Option Int
  lastTemp : Option Int
  sinceGood : Option Nat
  zone : Option Zone
  fTemp : Int
  next : Nat
  deriving DecidableEq, Repr

/-- The quantities of the stay in HOLDOVER (R66, R71). `nextTick` is the oscillator count of the next holdover tick,
absent while the tick is stopped. -/
structure Hold where
  fHold : Option Int
  t : Nat
  d : Nat
  e0 : Nat
  e : Nat
  aging : Nat
  nextTick : Option Nat
  deriving DecidableEq, Repr

/-- One port's link, receiver, transmitter, queues and counters (sections 5.1 to 5.4). `arriving` is the receive instant
of the frame the port is receiving, absent while it receives none (R81, R82). `through` is the through buffer toward
the port. The receive counters count on the ports R92 names. -/
structure PortIO where
  link : Bool
  arriving : Option Stamp
  queue : List QFrame
  sending : Option Sending
  through : List RawFrame
  insertDrops : Nat
  throughDrops : Nat
  fcs : Nat
  short : Nat
  overrun : Nat
  malformed : Nat
  misdirected : Nat
  linkLost : Bool
  deriving DecidableEq, Repr

/-- The eight ports. -/
structure Ports where
  line : Pair PortIO
  site : Pair PortIO
  access : Quad PortIO
  deriving DecidableEq, Repr

/-- The states of a span (section 5.5). -/
inductive SpanState where
  | down
  | probing
  | up
  deriving DecidableEq, Repr

/-- The probe awaiting its reply: its sequence, t1, and the oscillator count at which the wait started (R95, R96). -/
structure Outstanding where
  seq : Seq16
  t1 : Stamp
  since : Nat
  deriving DecidableEq, Repr

/-- A span record (R94). `nextProbe` is the oscillator count at which the next probe interval begins, absent until
the probe clock starts. -/
structure Span where
  state : SpanState
  learned : Option Nat
  df : Option Int
  last : Option (Int × Int)
  accepted : Nat
  timeoutRun : Nat
  fcsCount : Nat
  probeSeq : Seq16
  outstanding : Option Outstanding
  mismatch : Bool
  nextProbe : Option Nat
  timeouts : Nat
  unmatched : Nat
  rejected : Nat
  downs : Nat
  deriving DecidableEq, Repr

/-- The revert watch while it runs (R116). -/
structure RevertWatch where
  start : Stamp
  lastQual : Stamp
  gapSince : Stamp
  deriving DecidableEq, Repr

/-- The epoch engine (chapter 6). `j` is the next epoch instant in nanoseconds of time value. -/
structure Epoch where
  active : Bool
  takeover : Option Timer
  revert : Option RevertWatch
  origSeq : Seq16
  j : Nat
  notUp : Pair Nat
  wrongDir : Pair Nat
  ownOrigin : Nat
  hopLimit : Nat
  unknownOrigin : Nat
  fwdDrops : Nat
  takeovers : Nat
  reverts : Nat
  deriving DecidableEq, Repr

/-- The outcome of one direction of a roll cycle (R125, R124). -/
inductive RollOutcome where
  | returned
  | looped
  | timedOut
  deriving DecidableEq, Repr

/-- An outcome with its loop point (R127). -/
structure RollResult where
  outcome : RollOutcome
  loopId : Option Nat
  deriving DecidableEq, Repr

/-- A roll cycle in progress (R123 to R126): what it took at its start, which ROLL is outstanding (`rev` for the
reverse), when that ROLL and the cycle's first ROLL were sent, the forward result, and the ids whose slots returned. -/
structure Cycle where
  seq : Seq16
  timeout : Nat
  members : List Nat
  rev : Bool
  sentAt : Option Stamp
  firstSent : Option Stamp
  fwd : Option RollResult
  seen : List Nat
  deriving DecidableEq, Repr

/-- Presence in the ring map (R136). -/
inductive Presence where
  | present
  | silent
  | unknown
  deriving DecidableEq, Repr

/-- Config state of a ring map entry (R144). -/
inductive ConfigState where
  | unseen
  | mismatch
  | inSync
  | pending
  deriving DecidableEq, Repr

/-- A ring map entry (R136) less configured and position, which follow the member list at once and are computed. -/
structure MapEntry where
  presence : Presence
  slot : Option Slot
  miss : Nat
  mergeRev : Option Bool
  mergeGen : Option Nat
  config : Option ConfigState
  marker : Bool
  deriving DecidableEq, Repr

/-- A heads-heard entry (R131). -/
structure HeadHeard where
  id : Nat
  rank : Nat
  heardAt : Stamp
  deriving DecidableEq, Repr

/-- What a member last copied from its preferred head (R133). -/
structure View where
  seq : Seq16
  headGen : Nat
  silent : BitVec 32
  mismatch : BitVec 32
  pending : BitVec 32
  deriving DecidableEq, Repr

/-- The roll engine (chapter 7) with its configuration distribution state (chapter 8). `clock` is the oscillator
count at which the roll clock last started its count. -/
structure Roll where
  seq : Seq16
  cycle : Option Cycle
  clock : Option Nat
  map : List MapEntry
  status : RingStatus
  fwd : Option RollResult
  rev : Option RollResult
  cycleTime : Option Nat
  cycleMin : Option Nat
  cycleMax : Option Nat
  heads : List HeadHeard
  view : Option View
  duplicate : Option Stamp
  rollTimeouts : Nat
  lateRolls : Nat
  loopSwitches : Nat
  unknownHead : Nat
  wrongDir : Pair Nat
  ownHead : Nat
  hopLimit : Nat
  loopDrops : Nat
  rejectedGen : Option Nat
  configSeq : Seq16
  lastServed : Option Nat
  configSent : Nat
  configDiscards : Nat
  configDrops : Nat
  configDeferred : Nat
  configRefused : Nat
  deriving DecidableEq, Repr

/-- The states of an access port (section 9.2). -/
inductive AccessState where
  | off
  | deliver
  | degraded
  | squelched
  deriving DecidableEq, Repr

/-- One access port of the access unit (chapter 9). `jp` is its next epoch instant in nanoseconds of time value. -/
structure AccessPort where
  state : AccessState
  timer : Option Timer
  jp : Nat
  epochSeq : Seq16
  lastClass : Option QClass
  lastPulse : Option Nat
  sent : Nat
  replies : Nat
  unanswered : Nat
  deriving DecidableEq, Repr

/-- The states of an alarm point (R168). -/
inductive PointState where
  | clear
  | raising
  | raised
  | clearing
  deriving DecidableEq, Repr

/-- An alarm point (R165). `soak` is the oscillator count at which its running soak started. -/
structure Point where
  state : PointState
  soak : Option Nat
  cond : Bool
  severity : Option Severity
  raises : Nat
  deriving DecidableEq, Repr

/-- The alarm unit (chapter 10). `notices` counts those of SE and of SW. -/
structure Alarms where
  points : List Point
  history : List AlarmRecord
  overwrites : Nat
  summary : Option Severity
  notices : Pair Nat
  deriving DecidableEq, Repr

/-- A relay table entry in use (R185). `since` is the oscillator count at which its timer started. -/
structure RelayEntry where
  port : Side
  tag : BitVec 16
  target : Nat
  since : Nat
  deriving DecidableEq, Repr

/-- One handle of the relay table: its relay sequence, and its entry while in use (R185). -/
structure RelaySlot where
  rseq : BitVec 8
  entry : Option RelayEntry
  deriving DecidableEq, Repr

/-- The management unit's relay table, MGMT sequence and counters (chapter 11). -/
structure Mgmt where
  relays : List RelaySlot
  seq : Seq16
  executed : Nat
  relayed : Nat
  discards : Nat
  drops : Nat
  late : Nat
  deriving DecidableEq, Repr

/-- A frame lost unsent whose owner has still to take the loss (R95, R124). The model's own work list: it is worked
off within the command that causes the loss. -/
inductive Loss where
  | probe (d : Side)
  | roll (seq : Seq16) (rev : Bool)
  deriving DecidableEq, Repr

/-- What the blocks hold. `osc` counts the oscillator periods since the last power-on or reset pin; `nodeKept` says
that the running reset left a LOCKED-DOWN NODE table in force (R86); `restartDue` that a soft restart is to take
effect now (R191). -/
structure Live where
  part : Part
  nodeKept : Bool
  osc : Nat
  ts : TimeScale
  servo : Servo
  cands : Trio CandRec
  refIn : RefInput
  manual : Option Cand
  selection : Option Cand
  thermal : Thermal
  hold : Hold
  ownClass : QClass
  io : Ports
  spans : Pair Span
  epoch : Epoch
  roll : Roll
  access : Quad AccessPort
  alarms : Alarms
  mgmt : Mgmt
  storeFault : Bool
  guard : Bool
  restartDue : Bool
  losses : List Loss
  deriving DecidableEq, Repr

/-! ## The store and the whole -/

/-- What the store holds besides the integrity word: the writable tables and the start-up lock states (section 11.5). -/
structure Image where
  tables : Tables
  locks : PerTable Lock
  deriving DecidableEq, Repr

/-- How the last commit ended (R188). -/
inductive CommitResult where
  | verified
  | mismatch
  | interrupted
  deriving DecidableEq, Repr

/-- The profile store: the image where a valid one is held, what a commit in progress is writing, whether the image
was valid at the last load, and how the last commit ended (R188, R190). -/
structure Store where
  image : Option Image
  commit : Option Image
  validAtLoad : Bool
  lastCommit : Option CommitResult
  deriving DecidableEq, Repr

/-- The part, with the queue of commands that wait, first in first out. -/
structure State where
  pending : List Instr
  tables : Tables
  locks : PerTable Lock
  store : Store
  live : Live
  deriving DecidableEq, Repr

/-- The reasons a command can stop with a fault: none, since the spec gives every command of the table an effect in
every state. -/
inductive Fault where
  deriving DecidableEq, Repr

/-- The reasons a command can be refused. `notModelled` is raised by `exec` alone, for a row that has no meaning yet;
it is safe, since nothing can be proved of what it would do. No arm raises it. -/
inductive Refusal where
  | notModelled (mnemonic : String)
  deriving DecidableEq, Repr

/-! ## The state right after power-on -/

namespace Reset

def time : TimeValue := { sec := 0, ns := 0, ps := 0 }

def stamp : Stamp := { time := time, steps := 0 }

def both {α : Type} (v : α) : Pair α := ⟨v, v⟩

def four {α : Type} (v : α) : Quad α := ⟨v, v, v, v⟩

/-- R8. -/
def ts : TimeScale := { value := time, rem := 0, steps := 0, fTotal := 0, k := four 1 }

/-- R26. -/
def servo : Servo :=
  { state := .freerun, integ := 0, fServo := 0, queue := [], lockRun := 0, unlockRun := 0, skipRun := 0,
    ungated := false, lastTheta := 0, phaseUnstable := false, history := [], phaseSteps := 0, gated := 0,
    skipped := 0 }

/-- R32. -/
def cand (enabled : Bool) : CandRec :=
  { state := if enabled then .unavailable else .disabled, offered := .q4, hops := none, preferred := none,
    origins := [], last := none, qual := none }

/-- R32, with the missing-second watch restarted at the given instant. -/
def refIn (now : Stamp) : RefInput :=
  { pending := none, unusable := 0, expected := none, watch := now, jumps := 0 }

/-- One second of oscillator time (section 3.1, R67, R95). -/
def second : Nat := 125000000

/-- R62: the first reading falls one interval after the start. -/
def thermal : Thermal :=
  { sensor := .starting, lastRaw := none, lastTemp := none, sinceGood := none, zone := none, fTemp := 0,
    next := second }

/-- R71. -/
def hold : Hold := { fHold := none, t := 0, d := 0, e0 := 0, e := 0, aging := 0, nextTick := none }

/-- R102, for a port whose link stands as given. -/
def port (link : Bool) : PortIO :=
  { link := link, arriving := none, queue := [], sending := none, through := [], insertDrops := 0, throughDrops := 0,
    fcs := 0, short := 0, overrun := 0, malformed := 0, misdirected := 0, linkLost := false }

/-- R102. -/
def span : Span :=
  { state := .down, learned := none, df := none, last := none, accepted := 0, timeoutRun := 0, fcsCount := 0,
    probeSeq := 0, outstanding := none, mismatch := false, nextProbe := none, timeouts := 0, unmatched := 0,
    rejected := 0, downs := 0 }

/-- R121. -/
def epoch : Epoch :=
  { active := false, takeover := none, revert := none, origSeq := 0, j := 0, notUp := both 0, wrongDir := both 0,
    ownOrigin := 0, hopLimit := 0, unknownOrigin := 0, fwdDrops := 0, takeovers := 0, reverts := 0 }

/-- R140. -/
def mapEntry : MapEntry :=
  { presence := .unknown, slot := none, miss := 0, mergeRev := none, mergeGen := none, config := none,
    marker := false }

/-- R140, R151. -/
def roll : Roll :=
  { seq := 0, cycle := none, clock := none, map := List.replicate 32 mapEntry, status := .unknown, fwd := none,
    rev := none, cycleTime := none, cycleMin := none, cycleMax := none, heads := [], view := none,
    duplicate := none, rollTimeouts := 0, lateRolls := 0, loopSwitches := 0, unknownHead := 0,
    wrongDir := both 0, ownHead := 0, hopLimit := 0, loopDrops := 0, rejectedGen := none, configSeq := 0,
    lastServed := none, configSent := 0, configDiscards := 0, configDrops := 0, configDeferred := 0,
    configRefused := 0 }

/-- R164, for a port taken as OFF until LOADING ends. -/
def access : AccessPort :=
  { state := .off, timer := none, jp := 0, epochSeq := 0, lastClass := none, lastPulse := none, sent := 0,
    replies := 0, unanswered := 0 }

/-- R177. -/
def point : Point := { state := .clear, soak := none, cond := false, severity := none, raises := 0 }

/-- R177. -/
def alarms : Alarms :=
  { points := List.replicate 21 point, history := [], overwrites := 0, summary := none, notices := both 0 }

/-- R191. -/
def mgmt : Mgmt :=
  { relays := List.replicate 8 { rseq := 0, entry := none }, seq := 0, executed := 0, relayed := 0, discards := 0,
    drops := 0, late := 0 }

/-- The blocks right after power-on, for links and a GUARD pin that stand as given, and a store whose image was or
was not found valid (R32 needs the tables in force for the candidates). -/
def live (t : Tables) (io : Ports) (guard fault : Bool) : Live :=
  { part := .loading, nodeKept := false, osc := 0, ts := ts, servo := servo,
    cands := ⟨cand (t.cand.ref.enabled && t.node.refFitted), cand t.cand.fwd.enabled, cand t.cand.rev.enabled⟩,
    refIn := refIn stamp, manual := none, selection := none, thermal := thermal, hold := hold, ownClass := .q4,
    io := io, spans := both span, epoch := epoch, roll := roll, access := four access, alarms := alarms,
    mgmt := mgmt, storeFault := fault, guard := guard, restartDue := false, losses := [] }

end Reset

/-- The part right after its first power-on: LOADING, with a store that has never been committed, so that every
table holds the built-in profile, every table is OPEN and STORE-FAULT holds (R190). The unit serial, the links and
the GUARD pin stand as assumption 2 says. -/
def State.reset : State :=
  { pending := []
    tables := Config.builtIn 0
    locks := ⟨.opened, .opened, .opened, .opened, .opened, .opened, .opened, .opened⟩
    store := { image := none, commit := none, validAtLoad := false, lastCommit := none }
    live := Reset.live (Config.builtIn 0)
      { line := Reset.both (Reset.port false), site := Reset.both (Reset.port false),
        access := Reset.four (Reset.port false) } false true }

end Sys2Proof.Machine
end

