-- ==== Sys2Proof/Machine/Ops.lean ====
section
/-! DEFINITION. The operations every block shares: saturating counters, clamps and shifts, the bytes of a frame, the
time scale with its advance, its steps and the intervals measured on it. -/

namespace Sys2Proof

/-- The picoseconds of the whole range of time values: 2^40 s. -/
def wrapPs : Nat := 1099511627776 * 1000000000000

/-- A time value in picoseconds. -/
def TimeValue.toPs (t : TimeValue) : Nat := (t.sec * 1000000000 + t.ns) * 1000 + t.ps

/-- The time value of a count of picoseconds, modulo 2^40 s. -/
def TimeValue.ofPs (n : Nat) : TimeValue :=
  let m := n % wrapPs
  { sec := m / 1000000000000, ns := m / 1000 % 1000000000, ps := m % 1000 }

/-- The other pair. -/
def Side.other : Side → Side
  | .east => .west
  | .west => .east

/-- The port a management frame came in by. -/
def Via.port : Via → Port
  | .line d => .line d
  | .site d => .site d

/-- The ring candidate of a line port: RING-FWD is heard on LW and RING-REV on LE (section 2.4). -/
def Side.cand : Side → Cand
  | .west => .fwd
  | .east => .rev

/-- The direction of the frames a node originates on a line port: FWD on LE, REV on LW (00_scope.md, Terms). -/
def Side.outRev : Side → Bool
  | .east => false
  | .west => true

/-- The direction that must arrive on a line port: FWD on LW, REV on LE (R107, R130, R146, R186). -/
def Side.inRev : Side → Bool
  | .west => false
  | .east => true

end Sys2Proof

namespace Sys2Proof.Machine

/-! ## Integer arithmetic (00_scope.md, Conventions) -/

/-- A counter saturates at 65,535. -/
def bump (n : Nat) : Nat := min 65535 (n + 1)

/-- Adds `k` to a counter that saturates at 65,535. -/
def bumpBy (n k : Nat) : Nat := min 65535 (n + k)

/-- To clamp a value to a range. -/
def clampInt (lo hi x : Int) : Int := if x < lo then lo else if hi < x then hi else x

/-- To clamp a value to ±`l`. -/
def clampSym (l x : Int) : Int := clampInt (-l) l x

/-- To clamp a whole number to a range of naturals. -/
def clampNat (lo hi : Nat) (x : Int) : Nat := (clampInt lo hi x).toNat

/-- A right shift of a signed quantity is taken on its magnitude, and the sign is then restored. -/
def shiftZero (x : Int) (k : Nat) : Int :=
  if 0 ≤ x then ((x.natAbs >>> k : Nat) : Int) else -((x.natAbs >>> k : Nat) : Int)

/-- Integer division rounds toward zero. -/
def divZero (x y : Int) : Int := x.tdiv y

/-! ## Bytes, most significant first (chapter 12) -/

/-- The value of a run of bytes, most significant first. -/
def beNat (l : List Byte) : Nat := l.foldl (fun a b => a * 256 + b.toNat) 0

/-- The low `k` bytes of a number, most significant first. -/
def beBytes : Nat → Nat → List Byte
  | 0, _ => []
  | k + 1, n => BitVec.ofNat 8 (n / 256 ^ k) :: beBytes k n

/-- The two's complement reading of a run of bytes. -/
def beInt (l : List Byte) : Int :=
  let n := beNat l
  if 2 * n < 256 ^ l.length then (n : Int) else (n : Int) - (256 ^ l.length : Nat)

/-- The two's complement bytes of a signed number. -/
def beBytesInt (k : Nat) (x : Int) : List Byte := beBytes k (x % (256 ^ k : Nat)).toNat

/-- `n` bytes of a body from offset `off`, as a number. -/
def field (off n : Nat) (l : List Byte) : Nat := beNat ((l.drop off).take n)

/-! ## Time values, timestamps and intervals (R1, R3) -/

/-- The difference of two time values, taken modulo 2^40 s as the value from −2^39 s up to, but not including,
2^39 s (R3). -/
def wrapDiff (a b : Int) : Int :=
  let d := (a - b) % (wrapPs : Int)
  if 2 * d < (wrapPs : Int) then d else d - (wrapPs : Int)

/-- The interval between two timestamps: the difference of their time values less the difference of their step
totals (R3), in picoseconds. -/
def interval (a b : Stamp) : Int :=
  wrapDiff b.time.toPs a.time.toPs - (b.steps - a.steps)

/-- A time value without its picoseconds: the nanosecond at or before the reading (R1). -/
def toNs (t : TimeValue) : NsTime := { sec := t.sec, ns := t.ns }

/-- A nanosecond time in picoseconds. -/
def NsTime.toPs (t : NsTime) : Nat := (t.sec * 1000000000 + t.ns) * 1000

/-- The timestamp of this instant. -/
def TimeScale.stamp (t : TimeScale) : Stamp := { time := t.value, steps := t.steps }

/-- The timestamp of this instant. -/
def Live.now (v : Live) : Stamp := v.ts.stamp

/-- What a timer reads at an instant. -/
def Timer.elapsed (t : Timer) (now : Stamp) : Int := (t.base : Int) + interval t.since now

/-- A timer started at 0. -/
def Timer.start (now : Stamp) : Timer := { since := now, base := 0 }

/-- Seconds in picoseconds. -/
def secPs (n : Nat) : Int := (n : Int) * 1000000000000

/-! ## The time scale unit (R1 to R8) -/

/-- The units a picosecond holds: 1/125,000,000 ps each (section 1.1). -/
def unitsPerPs : Nat := 125000000

/-- `n` oscillator periods under the F_total in force: each adds 10^12 + F_total units to the remainder, whole
picoseconds are carried on and the rest stays (R1). -/
def TimeScale.advance (n : Nat) (t : TimeScale) : TimeScale :=
  let units := t.rem + n * (1000000000000 + t.fTotal).toNat
  { t with value := TimeValue.ofPs (t.value.toPs + units / unitsPerPs), rem := units % unitsPerPs }

/-- `n` oscillator periods pass: the time scale runs on and the oscillator count with it. -/
def Live.elapse (n : Nat) (v : Live) : Live := { v with osc := v.osc + n, ts := v.ts.advance n }

/-- F_total is F_servo + F_temp, clamped to ±100,000,000 ppt (R2). -/
def Live.recomputeF (v : Live) : Live :=
  { v with ts := { v.ts with fTotal := clampSym 100000000 (v.servo.fServo + v.thermal.fTemp) } }

/-- The first boundary whose crossing point, under an advance of `adv` ns, lies above a time value in ps (R6). -/
def boundaryAbove (adv ps : Nat) : Nat := ((ps + adv * 1000) / 1000000000000 + 1) % 1099511627776

/-- How far a time value in ps lies beyond the crossing point of boundary `k` under an advance of `adv` ns, modulo
2^40 s (R6). -/
def pastCrossing (adv k ps : Nat) : Int :=
  wrapDiff (ps : Int) ((k : Int) * 1000000000000 - (adv : Int) * 1000)

/-- The nanoseconds between the epoch instants of a rate (R105, R158). -/
def epochNs (rate : Nat) : Nat := 1000000000 / rate

/-- The first epoch instant of a rate above a time value in ps, in ns (R105, R158). -/
def epochAbove (rate ps : Nat) : Nat :=
  (ps / (epochNs rate * 1000) + 1) * epochNs rate % (1099511627776 * 1000000000)

/-- The epoch instant that follows `j` (R105, R158). -/
def epochAfter (rate j : Nat) : Nat := (j + epochNs rate) % (1099511627776 * 1000000000)

/-- Whether the time scale stands at or above an epoch instant. -/
def reachedNs (j ps : Nat) : Bool := decide (0 ≤ wrapDiff (ps : Int) ((j : Int) * 1000))

/-- K of every port is set again to the first boundary above the time value (R6). -/
def Live.resetK (t : Tables) (v : Live) : Live :=
  let ps := v.ts.value.toPs
  let k := fun i => boundaryAbove (t.port.access.get i).advance ps
  { v with ts := { v.ts with k := ⟨k 0, k 1, k 2, k 3⟩ } }

/-- J is set again to the first epoch instant above the time value, under the rate in force (R105). -/
def Live.resetJ (t : Tables) (v : Live) : Live :=
  { v with epoch := { v.epoch with j := epochAbove t.ring.rate v.ts.value.toPs } }

/-- J_p of one access port is set again to the first epoch instant above the time value (R158). -/
def Live.resetJp (t : Tables) (i : Fin 4) (v : Live) : Live :=
  let a := v.access.get i
  { v with access := v.access.set i { a with jp := epochAbove (t.port.access.get i).rate v.ts.value.toPs } }

/-- J_p of every access port is set again (R158). -/
def Live.resetJps (t : Tables) (v : Live) : Live :=
  v.resetJp t 0 |>.resetJp t 1 |>.resetJp t 2 |>.resetJp t 3

/-- The time value after a step of `d` ns and the step total with it; picoseconds and remainder are kept (R4). -/
def TimeScale.step (d : Int) (t : TimeScale) : TimeScale :=
  { t with
    value := TimeValue.ofPs (((t.value.toPs : Int) + d * 1000) % (wrapPs : Int)).toNat
    steps := t.steps + d * 1000 }

/-- A step, or a coarse set, of `d` ns: the time value and the step total move, and every K, J and J_p is set again
(R4, R5, R6, R105, R158). -/
def Live.stepTime (t : Tables) (d : Int) (v : Live) : Live :=
  ({ v with ts := v.ts.step d } : Live).resetK t |>.resetJ t |>.resetJps t

/-! ## Ports and sides -/

def Ports.get (p : Ports) : Port → PortIO
  | .line d => p.line.get d
  | .site d => p.site.get d
  | .access i => p.access.get i

def Ports.set (p : Ports) (q : Port) (x : PortIO) : Ports :=
  match q with
  | .line d => { p with line := p.line.set d x }
  | .site d => { p with site := p.site.set d x }
  | .access i => { p with access := p.access.set i x }

/-- The state of one port. -/
def Live.port (v : Live) (p : Port) : PortIO := v.io.get p

/-- One port's state changed by a function. -/
def Live.mapPort (v : Live) (p : Port) (f : PortIO → PortIO) : Live :=
  { v with io := v.io.set p (f (v.io.get p)) }

/-- The span of one line port. -/
def Live.span (v : Live) (d : Side) : Span := v.spans.get d

/-- One span changed by a function. -/
def Live.mapSpan (v : Live) (d : Side) (f : Span → Span) : Live :=
  { v with spans := v.spans.set d (f (v.spans.get d)) }

/-- One candidate's record changed by a function. -/
def Live.mapCand (v : Live) (c : Cand) (f : CandRec → CandRec) : Live :=
  { v with cands := v.cands.set c (f (v.cands.get c)) }

/-- One access port changed by a function. -/
def Live.mapAccess (v : Live) (i : Fin 4) (f : AccessPort → AccessPort) : Live :=
  { v with access := v.access.set i (f (v.access.get i)) }

/-- One counter of a pair incremented. -/
def bumpSide (p : Pair Nat) (d : Side) : Pair Nat := p.set d (bump (p.get d))

/-- The four access ports in order. -/
def accessPorts : List (Fin 4) := [0, 1, 2, 3]

/-- Whether a span is in a given state. -/
def Live.spanIs (v : Live) (d : Side) (s : SpanState) : Bool := decide ((v.spans.get d).state = s)

/-- The item at a place of a list, changed by a function. -/
def modifyAt {α : Type} (i : Nat) (f : α → α) : List α → List α
  | [] => []
  | x :: xs => match i with
    | 0 => f x :: xs
    | k + 1 => x :: modifyAt k f xs

/-- Whether an id is a member of a set of node ids (section 12.1). -/
def inSet (s : BitVec 32) (i : Nat) : Bool := s.getLsbD i

/-- The set of the ids below 32 that satisfy a test. -/
def setOf (f : Nat → Bool) : BitVec 32 :=
  BitVec.ofNat 32 ((List.range 32).foldl (fun a i => if f i then a + 2 ^ i else a) 0)

end Sys2Proof.Machine
end

