-- ==== Sys2Proof/Machine/Operands.lean ====
section
/-! DEFINITION. The wire forms of the part's frames (chapter 12): how a frame is written as the bytes of its payload,
and how a payload is read back or found malformed (R192, R193). -/

namespace Sys2Proof.Machine

/-! ## Codes (section 12.2) -/

def ServoState.code : ServoState → Nat
  | .freerun => 0
  | .acquire => 1
  | .locked => 2
  | .holdover => 3

def ServoState.ofCode : Nat → Option ServoState
  | 0 => some .freerun
  | 1 => some .acquire
  | 2 => some .locked
  | 3 => some .holdover
  | _ => none

def RingStatus.code : RingStatus → Nat
  | .forward => 0
  | .reverse => 1
  | .loopbackBoth => 2
  | .loopbackFwd => 3
  | .loopbackRev => 4
  | .isolated => 5
  | .unknown => 6

def RingStatus.ofCode : Nat → Option RingStatus
  | 0 => some .forward
  | 1 => some .reverse
  | 2 => some .loopbackBoth
  | 3 => some .loopbackFwd
  | 4 => some .loopbackRev
  | 5 => some .isolated
  | 6 => some .unknown
  | _ => none

def Status.code : Status → Nat
  | .done => 0
  | .badRequest => 1
  | .badTable => 2
  | .badIndex => 3
  | .badValue => 4
  | .locked => 5
  | .guarded => 6
  | .busy => 7
  | .notNow => 8
  | .notHead => 9
  | .unreachable => 10
  | .timeout => 11
  | .badStore => 12

def Status.ofCode : Nat → Option Status
  | 0 => some .done
  | 1 => some .badRequest
  | 2 => some .badTable
  | 3 => some .badIndex
  | 4 => some .badValue
  | 5 => some .locked
  | 6 => some .guarded
  | 7 => some .busy
  | 8 => some .notNow
  | 9 => some .notHead
  | 10 => some .unreachable
  | 11 => some .timeout
  | 12 => some .badStore
  | _ => none

/-- A class as a byte carries it: 0 to 4 (section 12.1). -/
def classOfCode (n : Nat) : Option QClass := if n ≤ 4 then some (QClass.ofNum n) else none

/-- A severity in a frame, by the coding of a ROLL slot: 1 WARNING to 4 CRITICAL (section 12.2). -/
def sevFrameCode : Severity → Nat
  | .warning => 1
  | .minor => 2
  | .major => 3
  | .critical => 4

def sevOfFrameCode : Nat → Option Severity
  | 1 => some .warning
  | 2 => some .minor
  | 3 => some .major
  | 4 => some .critical
  | _ => none

/-- The arrival site port of the relay fields: 0 SE, 1 SW. -/
def sideCode : Side → Nat
  | .east => 0
  | .west => 1

def sideOfCode : Nat → Option Side
  | 0 => some .east
  | 1 => some .west
  | _ => none

/-- The kind number of a body (section 12.1). -/
def Body.kind : Body → Nat
  | .epoch _ => 1
  | .probe _ => 2
  | .reply _ _ _ => 3
  | .roll _ => 4
  | .config _ => 5
  | .request _ => 6
  | .response _ => 7
  | .notice _ => 8

def boolNat (b : Bool) : Nat := if b then 1 else 0

/-- A single byte. -/
def byte (n : Nat) : List Byte := beBytes 1 n

/-- Whether a header id is a node id or 255 (R192). -/
def idOk (n : Nat) : Bool := decide (n ≤ 31) || decide (n = 255)

/-! ## Writing a frame -/

/-- A time value in ten bytes. -/
def encodeTime (t : NsTime) : List Byte := beBytes 6 t.sec ++ beBytes 4 t.ns

/-- The flags byte of a filled slot. -/
def slotFlags (s : Slot) : Nat :=
  1 + 2 * boolNat s.stale + 4 * boolNat s.mismatch + 8 * boolNat s.duplicate + 16 * boolNat s.carried

/-- A ROLL slot in fourteen bytes; an empty slot is all zero. -/
def encodeSlot : Option Slot → List Byte
  | none => List.replicate 14 0
  | some s =>
    beBytes 2 s.fillSeq.toNat ++ byte s.servo.code ++ byte s.cls.num ++ byte s.summary ++ beBytes 2 s.gen ++
      byte (slotFlags s) ++ beBytes 6 s.serial.toNat

def encodeSlots : List (Option Slot) → List Byte
  | [] => []
  | s :: rest => encodeSlot s ++ encodeSlots rest

/-- An entry: index, length, value. -/
def encodeEntry (e : Entry) : List Byte := beBytes 2 e.index ++ beBytes 2 e.value.length ++ e.value

def encodeEntries : List Entry → List Byte
  | [] => []
  | e :: rest => encodeEntry e ++ encodeEntries rest

/-- The relay present byte, and the four relay fields where they are present. -/
def encodeRelay : Option RelayFields → List Byte
  | none => byte 0
  | some r => byte 1 ++ byte r.handle ++ byte r.rseq.toNat ++ byte r.requester ++ byte (sideCode r.port)

/-- The body of each kind (section 12.2). -/
def encodeBody : Body → List Byte
  | .epoch b => encodeTime b.time ++ beBytesInt 8 b.corr ++ byte b.cls.num ++ byte b.rank
  | .probe seq => beBytes 2 seq.toNat
  | .reply seq t2 t3 => beBytes 2 seq.toNat ++ encodeTime t2 ++ encodeTime t3
  | .roll b =>
    byte b.rank ++ beBytes 2 b.seq.toNat ++ byte b.status.code ++
      (match b.loopId with
        | none => []
        | some i => byte i) ++
      beBytes 2 b.headGen ++ beBytes 4 b.silent.toNat ++ beBytes 4 b.mismatch.toNat ++ beBytes 4 b.pending.toNat ++
      encodeSlots b.slots
  | .config b =>
    byte b.target ++ beBytes 2 b.ring.gen ++ byte b.ring.rate ++ beBytes 2 b.ring.interval ++
      beBytes 2 b.ring.timeout ++ byte b.ring.primary ++ byte (b.ring.standby.getD 255) ++ byte b.ring.takeover ++
      beBytes 2 b.ring.revert ++ byte b.ring.members.length ++ b.ring.members.flatMap byte
  | .request b =>
    beBytes 2 b.tag.toNat ++ encodeRelay b.relay ++ byte b.op ++ byte b.code ++ beBytes 2 b.first ++
      beBytes 2 b.count ++ encodeEntries b.entries
  | .response b =>
    beBytes 2 b.tag.toNat ++ encodeRelay b.relay ++ byte b.status.code ++ beBytes 2 b.count ++ encodeEntries b.entries
  | .notice b =>
    byte b.node ++ byte b.record.kind ++ byte b.record.inst ++ byte (boolNat b.record.cleared) ++
      byte (sevFrameCode b.record.severity) ++ beBytes 6 b.record.time

/-- The common header and the body: the payload of a frame, before padding (section 12.1, R192). -/
def encodeFrame (f : Frame) : List Byte :=
  let body := encodeBody f.body
  byte 1 ++ byte f.body.kind ++ byte f.hdr.ring ++ byte (boolNat f.hdr.rev + 2 * boolNat f.hdr.looped) ++
    byte f.hdr.origin ++ byte f.hdr.sender ++ byte f.hdr.target ++ byte f.hdr.hops ++ beBytes 2 f.hdr.seq.toNat ++
    beBytes 2 body.length ++ body

/-- The frame on the wire: the payload padded with zero bytes to 46 (R192). -/
def toWire (q : QFrame) : RawFrame :=
  let p := encodeFrame q.frame
  { dst := q.eth.dst, src := q.eth.src, ftype := q.eth.ftype,
    payload := p ++ List.replicate (46 - p.length) 0, fcsOk := true }

/-! ## Reading a frame -/

/-- A time value, where its top byte is zero and its nanoseconds lie below 1,000,000,000 (R193). -/
def parseTime (l : List Byte) : Option NsTime :=
  let sec := field 0 6 l
  let ns := field 6 4 l
  if sec < 1099511627776 ∧ ns < 1000000000 then some { sec := sec, ns := ns } else none

/-- A ROLL slot: an empty one holds no contents; a filled one is read where its coded fields are defined (R193). -/
def parseSlot (l : List Byte) : Option (Option Slot) :=
  let flags := field 7 1 l
  if flags.testBit 0 then
    match ServoState.ofCode (field 2 1 l), classOfCode (field 3 1 l) with
    | some sv, some c =>
      if field 4 1 l ≤ 4 then
        some (some
          { fillSeq := BitVec.ofNat 16 (field 0 2 l), servo := sv, cls := c, summary := field 4 1 l,
            gen := field 5 2 l, stale := flags.testBit 1, mismatch := flags.testBit 2,
            duplicate := flags.testBit 3, carried := flags.testBit 4, serial := BitVec.ofNat 48 (field 8 6 l) })
      else none
    | _, _ => none
  else some none

/-- `n` slots one after the other. -/
def parseSlots : Nat → List Byte → Option (List (Option Slot))
  | 0, _ => some []
  | n + 1, l =>
    match parseSlot (l.take 14), parseSlots n (l.drop 14) with
    | some s, some rest => some (s :: rest)
    | _, _ => none

/-- The entries that fill a run of bytes exactly (R193); `fuel` bounds their number. -/
def parseEntries : Nat → List Byte → Option (List Entry)
  | _, [] => some []
  | 0, _ :: _ => none
  | fuel + 1, l@(_ :: _) =>
    let n := field 2 2 l
    if l.length < 4 + n then none
    else match parseEntries fuel (l.drop (4 + n)) with
      | some rest => some ({ index := field 0 2 l, value := (l.drop 4).take n } :: rest)
      | none => none

/-- The relay present byte and what it announces, with the bytes that follow; `l` starts at the byte (R193). -/
def parseRelay (l : List Byte) : Option (Option RelayFields × List Byte) :=
  match field 0 1 l with
  | 0 => if l.length < 1 then none else some (none, l.drop 1)
  | 1 =>
    if l.length < 5 then none
    else match sideOfCode (field 4 1 l) with
      | some p =>
        if field 3 1 l ≤ 31 then
          some (some { handle := field 1 1 l, rseq := BitVec.ofNat 8 (field 2 1 l), requester := field 3 1 l,
                       port := p }, l.drop 5)
        else none
      | none => none
  | _ => none

def parseEpoch (l : List Byte) : Option EpochBody :=
  if l.length = 20 then
    match parseTime l, classOfCode (field 18 1 l) with
    | some t, some c =>
      if field 19 1 l ≤ 1 then some { time := t, corr := beInt ((l.drop 10).take 8), cls := c, rank := field 19 1 l }
      else none
    | _, _ => none
  else none

def parseReply (l : List Byte) : Option Body :=
  if l.length = 22 then
    match parseTime ((l.drop 2).take 10), parseTime ((l.drop 12).take 10) with
    | some a, some b => some (.reply (BitVec.ofNat 16 (field 0 2 l)) a b)
    | _, _ => none
  else none

def parseRoll (looped : Bool) (l : List Byte) : Option RollBody :=
  let k := if looped then 1 else 0
  if l.length = 466 + k then
    match RingStatus.ofCode (field 3 1 l), parseSlots 32 (l.drop (18 + k)) with
    | some st, some slots =>
      if field 0 1 l ≤ 1 ∧ (looped = false ∨ field 4 1 l ≤ 31) then
        some { rank := field 0 1 l, seq := BitVec.ofNat 16 (field 1 2 l), status := st,
               loopId := if looped then some (field 4 1 l) else none, headGen := field (4 + k) 2 l,
               silent := BitVec.ofNat 32 (field (6 + k) 4 l), mismatch := BitVec.ofNat 32 (field (10 + k) 4 l),
               pending := BitVec.ofNat 32 (field (14 + k) 4 l), slots := slots }
      else none
    | _, _ => none
  else none

/-- Whether a RING table lies within the ranges of R141 without clamping, with a member list as R142 and R193 ask. -/
def ringInRange (r : RingTable) : Bool :=
  decide (r.gen ≤ 65535) && decide (r.rate ∈ [1, 2, 4, 8, 16]) && decide (10 ≤ r.interval) &&
    decide (r.interval ≤ 1000) && decide (1 ≤ r.timeout) && decide (r.timeout ≤ 5 * r.interval) &&
    decide (r.primary ≤ 31) && (match r.standby with
      | none => true
      | some i => decide (i ≤ 31)) &&
    decide (1 ≤ r.takeover) && decide (r.takeover ≤ 60) && decide (1 ≤ r.revert) && decide (r.revert ≤ 300) &&
    decide (1 ≤ r.members.length) && decide (r.members.length ≤ 32) && r.members.all (fun i => decide (i ≤ 31)) &&
    decide r.members.Nodup && decide (r.members.head? = some r.primary)

/-- The body of a CONFIG, whose target is a node id and the header's (R193). -/
def parseConfig (target : Nat) (l : List Byte) : Option ConfigBody :=
  if l.length = 14 + field 13 1 l then
    let r : RingTable :=
      { gen := field 1 2 l, rate := field 3 1 l, interval := field 4 2 l, timeout := field 6 2 l,
        primary := field 8 1 l, standby := if field 9 1 l = 255 then none else some (field 9 1 l),
        takeover := field 10 1 l, revert := field 11 2 l, members := (l.drop 14).map (fun b => b.toNat) }
    if field 0 1 l = target ∧ target ≤ 31 ∧ ringInRange r then some { target := field 0 1 l, ring := r }
    else none
  else none

/-- Whether the coded fields of a MGMT-REQUEST hold values that section 12.2 defines: the operation, and the command code
of a COMMAND (R193). The table id that a READ or WRITE carries in that byte is judged by R181. -/
def requestCoded (op code : Nat) : Bool :=
  decide (op = 1) || decide (op = 2) || (decide (op = 3) && decide (1 ≤ code) && decide (code ≤ 9))

/-- The body of a MGMT-REQUEST. An operation or a command code that section 12.2 does not define makes it malformed
(R193), before step 1 of R181 could look at it (assumption 24); the table id, the first index and the count are left to
the checks of R181. -/
def parseRequest (l : List Byte) : Option ReqBody :=
  if l.length < 3 then none
  else match parseRelay (l.drop 2) with
    | some (rel, t) =>
      if t.length < 6 ∨ requestCoded (field 0 1 t) (field 1 1 t) = false then none
      else match parseEntries t.length (t.drop 6) with
        | some es =>
          some { tag := BitVec.ofNat 16 (field 0 2 l), relay := rel, op := field 0 1 t, code := field 1 1 t,
                 first := field 2 2 t, count := field 4 2 t, entries := es }
        | none => none
    | none => none

def parseResponse (l : List Byte) : Option RespBody :=
  if l.length < 3 then none
  else match parseRelay (l.drop 2) with
    | some (rel, t) =>
      if t.length < 3 then none
      else match Status.ofCode (field 0 1 t), parseEntries t.length (t.drop 3) with
        | some st, some es =>
          some { tag := BitVec.ofNat 16 (field 0 2 l), relay := rel, status := st, count := field 1 2 t, entries := es }
        | _, _ => none
    | none => none

/-- The body of an ALARM-NOTICE. The instance is read as one of 0 to 3 and the severity as one of 1 to 4, and the seconds
fill their six bytes whole (assumption 55). -/
def parseNotice (l : List Byte) : Option NoticeBody :=
  if l.length = 11 then
    match sevOfFrameCode (field 4 1 l) with
    | some sev =>
      if field 0 1 l ≤ 31 ∧ field 1 1 l ≤ 15 ∧ field 2 1 l ≤ 3 ∧ field 3 1 l ≤ 1 then
        some { node := field 0 1 l,
               record := { kind := field 1 1 l, inst := field 2 1 l, cleared := field 3 1 l == 1, severity := sev,
                           time := field 5 6 l } }
      else none
    | none => none
  else none

/-- The body of a kind, or none where it does not suit the kind (R193). -/
def parseBody (kind : Nat) (h : Header) (l : List Byte) : Option Body :=
  match kind with
  | 1 => (parseEpoch l).map .epoch
  | 2 => if l.length = 2 then some (.probe (BitVec.ofNat 16 (field 0 2 l))) else none
  | 3 => parseReply l
  | 4 => (parseRoll h.looped l).map .roll
  | 5 => (parseConfig h.target l).map .config
  | 6 => (parseRequest l).map .request
  | 7 => (parseResponse l).map .response
  | 8 => (parseNotice l).map .notice
  | _ => none

/-- A payload read as a frame of the part's protocol, or none where it is malformed (R192, R193). -/
def parseFrame (p : List Byte) : Option Frame :=
  let flags := field 3 1 p
  let len := field 10 2 p
  let h : Header :=
    { ring := field 2 1 p, rev := flags.testBit 0, looped := flags.testBit 1, origin := field 4 1 p,
      sender := field 5 1 p, target := field 6 1 p, hops := field 7 1 p, seq := BitVec.ofNat 16 (field 8 2 p) }
  if 12 ≤ p.length ∧ field 0 1 p = 1 ∧ flags < 4 ∧ h.hops ≤ 31 ∧ idOk h.origin ∧ idOk h.sender ∧ idOk h.target ∧
      len ≤ p.length - 12 then
    match parseBody (field 1 1 p) h ((p.drop 12).take len) with
    | some b => some { hdr := h, body := b }
    | none => none
  else none

end Sys2Proof.Machine
end

