-- ==== Sys2Proof/Machine/Flags.lean ====
section
/-! DEFINITION. What is derived from the state and never chosen: the origin role, places in the ring order, the
preferred origin and head, the own class, the drift allowance, and the twenty-one alarm conditions. -/

namespace Sys2Proof.Machine

/-! ## Ring order and origin role -/

/-- The place of an id in a list of ids. -/
def posOf (i : Nat) : List Nat → Option Nat
  | [] => none
  | x :: xs => if x = i then some 0 else (posOf i xs).map (· + 1)

/-- The origin roles (R103). -/
inductive OriginRole where
  | primary
  | standby
  | none
  deriving DecidableEq, Repr

/-- The origin role (R103). -/
def originRole (t : Tables) : OriginRole :=
  if t.node.role = .primary ∧ t.node.id = t.ring.primary then .primary
  else if t.node.role = .standby ∧ t.ring.standby = some t.node.id then .standby
  else .none

/-- The origin rank of a role (R103). -/
def OriginRole.rank : OriginRole → Option Nat
  | .primary => some 0
  | .standby => some 1
  | .none => Option.none

/-- Whether an id is the primary or the standby id of the RING parameters in force (R108, R130, R146). -/
def namesOrigin (r : RingTable) (i : Nat) : Bool := decide (i = r.primary) || decide (r.standby = some i)

/-- The side nearer a target in ring order: LE where it lies at most half the member count ahead, counted eastward;
a node absent from its own list takes LE (R145, R185). -/
def nearSide (members : List Nat) (self target : Nat) : Side :=
  match posOf self members, posOf target members with
  | some a, some b => if 2 * ((b + members.length - a) % members.length) ≤ members.length then .east else .west
  | _, _ => .east

/-- The side taken where the wanted one's span is DOWN: the other; none where both are DOWN (R145, R185, R186). -/
def openSide (v : Live) (d : Side) : Option Side :=
  if v.spanIs d .down then (if v.spanIs d.other .down then none else some d.other) else some d

/-! ## Candidates -/

/-- Whether a candidate is enabled (R27). -/
def candEnabled (t : Tables) (c : Cand) : Bool :=
  (t.cand.get c).enabled && (decide (c ≠ .ref) || t.node.refFitted)

/-- Whether a candidate is available: AVAILABLE or SELECTED (R29). -/
def CandRec.isAvailable (r : CandRec) : Bool := decide (r.state = .available) || decide (r.state = .selected)

/-- Whether one origins-heard entry is preferred to another: better class, then lower rank, then lower id (R39). -/
def OriginHeard.better (a b : OriginHeard) : Bool :=
  decide (a.cls.num < b.cls.num) ||
    (decide (a.cls.num = b.cls.num) &&
      (decide (a.rank < b.rank) || (decide (a.rank = b.rank) && decide (a.id < b.id))))

/-- The best entry of an origins-heard list (R39). -/
def bestOrigin : List OriginHeard → Option OriginHeard
  | [] => none
  | x :: xs => match bestOrigin xs with
    | none => some x
    | some y => if y.better x then some y else some x

/-- The larger class number of two (R39). -/
def worseClass (a b : QClass) : QClass := if a.num < b.num then b else a

/-- The preferred head: the lower rank, and among equal ranks the lower id (R131). -/
def bestHead : List HeadHeard → Option HeadHeard
  | [] => none
  | x :: xs => match bestHead xs with
    | none => some x
    | some y => if y.rank < x.rank ∨ (y.rank = x.rank ∧ y.id < x.id) then some y else some x

/-- The preferred head's id (R131). -/
def preferredHead (v : Live) : Option Nat := (bestHead v.roll.heads).map (·.id)

/-! ## Grades -/

/-- The drift allowance handed to the quality unit (R58). -/
def driftAllowance (t : Tables) (v : Live) : Nat :=
  match v.thermal.sensor, v.thermal.zone with
  | .good, some .cold => t.thermal.dCold
  | .good, some .normal => t.thermal.dNormal
  | .good, some .warm => t.thermal.dWarm
  | .good, some .hot => t.thermal.dHot
  | _, _ => max (max t.thermal.dCold t.thermal.dNormal) (max t.thermal.dWarm t.thermal.dHot)

/-- The class of a holdover estimate under the limits in force (R76). -/
def holdClass (q : QualityTable) (e : Nat) : QClass :=
  if e / 1000 ≤ q.limit1 then .q2 else if e / 1000 ≤ q.limit2 then .q3 else .q4

/-- The own class that the servo state, the selected candidate and E give (R75). -/
def deriveClass (t : Tables) (v : Live) : QClass :=
  match v.servo.state with
  | .freerun => .q4
  | .acquire => .q4
  | .holdover => holdClass t.quality v.hold.e
  | .locked => match v.selection with
    | some c => (v.cands.get c).offered
    | none => .q4

/-- The loss state of an access port: SQUELCHED under SQUELCH, DEGRADED otherwise (R153). -/
def lossState (c : AccessCfg) : AccessState := if c.loss = .squelch then .squelched else .degraded

/-! ## Alarm conditions (R166) -/

/-- A candidate's loss condition. -/
def candLoss (t : Tables) (v : Live) (c : Cand) : Bool := candEnabled t c && !(v.cands.get c).isAvailable

/-- NODE-SILENT: a configured entry of the ring map is SILENT (R138). -/
def nodeSilent (t : Tables) (v : Live) : Bool :=
  t.ring.members.any (fun i => match v.roll.map[i]? with
    | some e => decide (e.presence = .silent)
    | none => false)

/-- CONFIG-MISMATCH: a head's entry in MISMATCH, a rejected generation held, or the duplicate flag set (R148). -/
def configMismatch (v : Live) : Bool :=
  (v.epoch.active && v.roll.map.any (fun e => decide (e.config = some .mismatch))) ||
    v.roll.rejectedGen.isSome || v.roll.duplicate.isSome

/-- The twenty-one conditions as their owners hold them, in the order of the points (R165, R166). -/
def conditions (t : Tables) (v : Live) : List Bool :=
  [candLoss t v .ref, candLoss t v .fwd, candLoss t v .rev,
   decide (v.servo.state = .holdover),
   decide (v.servo.state = .holdover) && decide (3 ≤ v.ownClass.num),
   decide (v.servo.state = .freerun),
   v.spanIs .east .down, v.spanIs .west .down,
   (v.span .east).mismatch, (v.span .west).mismatch,
   decide (v.roll.status ≠ .forward), nodeSilent t v, configMismatch v,
   decide (v.thermal.zone = some .cold) || decide (v.thermal.zone = some .hot),
   decide (v.thermal.sensor = .fault),
   v.servo.phaseUnstable,
   decide (v.access.a0.state = .squelched), decide (v.access.a1.state = .squelched),
   decide (v.access.a2.state = .squelched), decide (v.access.a3.state = .squelched),
   v.storeFault]

/-- The kind number and the instance of each point (R165). -/
def pointKind : Nat → Nat × Nat
  | 0 => (0, 0)
  | 1 => (1, 0)
  | 2 => (2, 0)
  | 3 => (3, 0)
  | 4 => (4, 0)
  | 5 => (5, 0)
  | 6 => (6, 0)
  | 7 => (6, 1)
  | 8 => (7, 0)
  | 9 => (7, 1)
  | 10 => (8, 0)
  | 11 => (9, 0)
  | 12 => (10, 0)
  | 13 => (11, 0)
  | 14 => (12, 0)
  | 15 => (13, 0)
  | 16 => (14, 0)
  | 17 => (14, 1)
  | 18 => (14, 2)
  | 19 => (14, 3)
  | _ => (15, 0)

/-- The rank of a severity: CRITICAL above MAJOR above MINOR above WARNING (R174). -/
def sevRank : Severity → Nat
  | .warning => 1
  | .minor => 2
  | .major => 3
  | .critical => 4

/-- The higher of two severities, NONE below all (R174). -/
def worseSeverity (a b : Option Severity) : Option Severity :=
  match a, b with
  | none, y => y
  | x, none => x
  | some x, some y => if sevRank x < sevRank y then some y else some x

/-- The summary as a ROLL slot carries it: 0 NONE to 4 CRITICAL (section 12.2). -/
def summaryCode : Option Severity → Nat
  | none => 0
  | some s => sevRank s

/-- Whether a point is raised: RAISED or CLEARING (R168). -/
def Point.isRaised (p : Point) : Bool := decide (p.state = .raised) || decide (p.state = .clearing)

/-- The highest held severity among the raised points (R174). -/
def severitySummary (ps : List Point) : Option Severity :=
  ps.foldl (fun a p => if p.isRaised then worseSeverity a p.severity else a) none

end Sys2Proof.Machine
end

