-- ==== Sys2Proof/Machine/Egress.lean ====
section
/-! DEFINITION. The ports' transmitters: insert queues and their drop rule, the arbiters, the fields completed at the
transmit instant, and the through buffers (sections 5.1 and 5.3). -/

namespace Sys2Proof.Machine

/-! ## Levels and queues -/

/-- The level of an own frame at a line port (R87). -/
def lineLevel : Body → Nat
  | .epoch _ => 1
  | .probe _ => 2
  | .reply _ _ _ => 2
  | .roll _ => 3
  | .config _ => 4
  | .request _ => 5
  | .response _ => 5
  | .notice _ => 5

/-- The level of an own frame at a port; a smaller number is the more urgent (R87, R89, R90). -/
def level (p : Port) (b : Body) : Nat :=
  match p with
  | .line _ => lineLevel b
  | .site _ => if b.kind = 7 then 1 else 2
  | .access _ => if b.kind = 1 then 1 else 2

/-- How many own frames a port's insert queue holds (R88, R89, R90). -/
def capacity : Port → Nat
  | .access _ => 4
  | _ => 8

/-- The first item that satisfies a test, and the list without it. -/
def splitFirst {α : Type} (f : α → Bool) : List α → Option (α × List α)
  | [] => none
  | x :: xs => if f x then some (x, xs) else (splitFirst f xs).map (fun r => (r.1, x :: r.2))

/-- The last item that satisfies a test, and the list without it. -/
def splitLast {α : Type} (f : α → Bool) (l : List α) : Option (α × List α) :=
  (splitFirst f l.reverse).map (fun r => (r.1, r.2.reverse))

/-- The largest level number a queue holds; 0 for an empty one. -/
def worstLevel (p : Port) (q : List QFrame) : Nat := q.foldl (fun a x => max a (level p x.frame.body)) 0

/-- The most urgent level a queue holds; 6 for an empty one. -/
def bestLevel (p : Port) (q : List QFrame) : Nat := q.foldl (fun a x => min a (level p x.frame.body)) 6

/-! ## The transmit instant (R91) -/

/-- The body of an EPOCH changed by a function; another body is left. -/
def mapEpoch (f : EpochBody → EpochBody) : Body → Body
  | .epoch b => .epoch (f b)
  | b => b

/-- t3 of a SPAN-REPLY: t2 plus the step-free interval from the probe's receive instant (R91); another body is left. -/
def fillReply (now rx : Stamp) : Body → Body
  | .reply seq t2 _ =>
    .reply seq t2 (toNs (TimeValue.ofPs (((t2.toPs : Int) + interval rx now) % (wrapPs : Int)).toNat))
  | b => b

/-- The correction of a forwarded EPOCH, held within the range of its field (R111). -/
def correctionOut (df : Int) (rx now : Stamp) (corr : Int) : Int :=
  clampInt (-9223372036854775808) 9223372036854775807 (corr + df + interval rx now)

/-- The fields completed at a frame's transmit instant (R91, R111). -/
def complete (now : Stamp) (q : QFrame) : QFrame :=
  match q.note with
  | .origEpoch =>
    { q with frame := { q.frame with body := mapEpoch (fun b => { b with time := toNs now.time }) q.frame.body } }
  | .fwdEpoch df rx =>
    { q with frame := { q.frame with
        body := mapEpoch (fun b => { b with corr := correctionOut df rx now b.corr }) q.frame.body } }
  | .reply rx => { q with frame := { q.frame with body := fillReply now rx q.frame.body } }
  | .plain => q
  | .probe => q
  | .roll _ _ => q
  | .restart => q

/-- The span unit records the transmit instant of a probe as t1, and the reply wait starts (R95). In DOWN no probe is
outstanding (R99). A probe sent while the one before it is in its reply wait takes its place, with no timeout counted
(assumption 48). -/
def probeSent (p : Port) (b : Body) (v : Live) : Live :=
  match p with
  | .line d =>
    match b with
    | .probe seq =>
      v.mapSpan d (fun s =>
        if s.state = .down then s else { s with outstanding := some { seq := seq, t1 := v.now, since := v.osc } })
    | _ => v
  | .site _ => v
  | .access _ => v

/-- The head records when a ROLL of its cycle was sent: the start of the roll timer, and of the cycle time (R124,
R128). -/
def rollSent (seq : Seq16) (rev : Bool) (v : Live) : Live :=
  match v.roll.cycle with
  | some c =>
    if c.seq = seq ∧ c.rev = rev then
      let c' := { c with sentAt := some v.now, firstSent := some (c.firstSent.getD v.now) }
      { v with roll := { v.roll with cycle := some c' } }
    else v
  | none => v

/-- What a frame's owner records at its transmit instant (R95, R124, R128). -/
def onTransmit (p : Port) (q : QFrame) (v : Live) : Live :=
  match q.note with
  | .probe => probeSent p q.frame.body v
  | .roll seq rev => rollSent seq rev v
  | .plain => v
  | .origEpoch => v
  | .fwdEpoch _ _ => v
  | .reply _ => v
  | .restart => v

/-- The arbiter grants the transmitter where it is idle and the link is up: the oldest frame of the most urgent level
that holds one, and a through frame only when no own frame waits (R87, R89, R90). -/
def grant (p : Port) (v : Live) : Live :=
  let io := v.port p
  if io.link = false ∨ io.sending.isSome then v
  else match splitFirst (fun x => level p x.frame.body == bestLevel p io.queue) io.queue with
    | some (q, rest) =>
      let q' := complete v.now q
      onTransmit p q' (v.mapPort p (fun x => { x with queue := rest, sending := some (.own q') }))
    | none => match io.through with
      | f :: fs => v.mapPort p (fun x => { x with through := fs, sending := some (.through f) })
      | [] => v

/-! ## Frames lost unsent -/

/-- The loss of a probe at a line port. -/
def probeLoss : Port → List Loss
  | .line d => [.probe d]
  | .site _ => []
  | .access _ => []

/-- A frame lost unsent: a probe removed from its queue is a probe timeout (R95), a ROLL of the cycle acts as a
timeout (R124), and the response of a SOFT-RESTART lets the restart take effect (R191). -/
def noteLost (removed : Bool) (p : Port) (q : QFrame) (v : Live) : Live :=
  match q.note with
  | .probe => if removed then { v with losses := v.losses ++ probeLoss p } else v
  | .roll seq rev => { v with losses := v.losses ++ [.roll seq rev] }
  | .restart => { v with restartDue := true }
  | .plain => v
  | .origEpoch => v
  | .fwdEpoch _ _ => v
  | .reply _ => v

/-- One insert drop of a port. -/
def insertDrop (p : Port) (v : Live) : Live := v.mapPort p (fun x => { x with insertDrops := bump x.insertDrops })

/-- An own frame handed to a port: dropped while the link is down (R81); joined where the queue has room; else judged
by the drop rule (R88), or dropped at an access port (R90). -/
def hand (p : Port) (q : QFrame) (v : Live) : Live :=
  let io := v.port p
  if io.link = false then noteLost false p q (insertDrop p v)
  else if io.queue.length < capacity p then
    grant p (v.mapPort p (fun x => { x with queue := x.queue ++ [q] }))
  else
    let w := worstLevel p io.queue
    match p with
    | .access _ => noteLost false p q (insertDrop p v)
    | _ =>
      if w ≤ level p q.frame.body then noteLost false p q (insertDrop p v)
      else match splitLast (fun x => level p x.frame.body == w) io.queue with
        | some (old, rest) =>
          grant p (noteLost true p old (insertDrop p
            (v.mapPort p (fun x => { x with queue := rest ++ [q] }))))
        | none => v

/-! ## Frames the part forms -/

/-- The Ethernet fields of a frame formed now: the group address, the unit serial with its group bit cleared, the
vendor frame type (R192). -/
def ethOf (t : Tables) : Eth :=
  { dst := t.node.group, src := t.node.serial &&& ~~~(1#48 <<< 40), ftype := t.node.ftype }

/-- An own frame ready for a queue. -/
def mkFrame (t : Tables) (h : Header) (b : Body) (n : Note) : QFrame :=
  { eth := ethOf t, frame := { hdr := h, body := b }, note := n }

/-- A free id of an open header field: 32 stands for 255. -/
def openId (i : Fin 33) : Nat := if i.val = 32 then 255 else i.val

/-! ## Through traffic (R80) -/

/-- The length of a frame with its addresses, type and check sequence. -/
def frameLength (f : RawFrame) : Nat := f.payload.length + 18

/-- The bytes of a through buffer in use: the frames it holds and the one in transmission from it (R80). -/
def throughUsed (io : PortIO) : Nat :=
  io.through.foldl (fun a f => a + frameLength f) 0 +
    (match io.sending with
      | some (.through f) => frameLength f
      | _ => 0)

/-- The bytes a through buffer holds (R80). -/
def throughCapacity : Nat := 16384

/-- The port of the same pair that a through frame goes to; access ports have none. -/
def throughTo : Port → Option Port
  | .line d => some (.site d)
  | .site d => some (.line d)
  | .access _ => none

/-- A frame that passes through joins the buffer toward its port if it fits, and is dropped and counted otherwise, or
while that port's link is down (R80, R81). -/
def passThrough (p : Port) (f : RawFrame) (v : Live) : Live :=
  match throughTo p with
  | none => v
  | some q =>
    let io := v.port q
    if io.link ∧ throughUsed io + frameLength f ≤ throughCapacity then
      grant q (v.mapPort q (fun x => { x with through := x.through ++ [f] }))
    else v.mapPort q (fun x => { x with throughDrops := bump x.throughDrops })

/-- Waiting frames withdrawn from a queue, uncounted (R157). -/
def withdraw (p : Port) (f : QFrame → Bool) (v : Live) : Live :=
  v.mapPort p (fun x => { x with queue := x.queue.filter (fun q => !f q) })

end Sys2Proof.Machine
end

