-- ==== Sys2Proof/Machine/AlarmUnit.lean ====
section
/-! DEFINITION. The alarm unit: points and soaks, events, the history, notices and the severity summary (chapter 10). -/

namespace Sys2Proof.Machine

/-- Oscillator periods of a soak given in units of 0.1 s (R169). -/
def soakPeriods (n : Nat) : Nat := 12500000 * n

/-- The configuration of a point's kind. -/
def pointCfg (t : Tables) (i : Nat) : AlarmCfg :=
  (t.alarm[(pointKind i).1]?).getD ⟨.warning, false, 0, 0⟩

/-- One point changed by a function. -/
def mapPoint (i : Nat) (f : Point → Point) (v : Live) : Live :=
  { v with alarms := { v.alarms with points := modifyAt i f v.alarms.points } }

/-- A list of at most 64 items takes one more at its newest end; the oldest leaves a full one (R63, R171). -/
def appendCapped {α : Type} (l : List α) (x : α) : List α :=
  if l.length < 64 then l ++ [x] else l.drop 1 ++ [x]

/-- The notice of an event, for one site port (R173). -/
def noticeFrame (t : Tables) (r : AlarmRecord) : QFrame :=
  mkFrame t
    { ring := t.node.ringId, rev := false, looped := false, origin := t.node.id, sender := t.node.id, target := 255,
      hops := 0, seq := 0 }
    (.notice { node := t.node.id, record := r }) .plain

/-- One notice handed to a site port and counted (R173). -/
def sendNotice (t : Tables) (r : AlarmRecord) (d : Side) (v : Live) : Live :=
  hand (.site d) (noticeFrame t r) { v with alarms := { v.alarms with notices := bumpSide v.alarms.notices d } }

/-- The notices of an event, for the ports the NODE table names (R173); SE comes before SW (assumption 69). -/
def sendNotices (t : Tables) (r : AlarmRecord) (v : Live) : Live :=
  match t.node.notice with
  | .none => v
  | .se => sendNotice t r .east v
  | .sw => sendNotice t r .west v
  | .both => sendNotice t r .west (sendNotice t r .east v)

/-- An event: its record joins the history, its notices are formed where its kind is reported, and the summary is
derived afresh (R170, R171, R174). -/
def alarmEvent (t : Tables) (i : Nat) (cleared : Bool) (sev : Severity) (v : Live) : Live :=
  let r : AlarmRecord :=
    { kind := (pointKind i).1, inst := (pointKind i).2, cleared := cleared, severity := sev, time := v.ts.value.sec }
  let full := decide (64 ≤ v.alarms.history.length)
  let v := { v with alarms := { v.alarms with
    history := appendCapped v.alarms.history r
    overwrites := if full then bump v.alarms.overwrites else v.alarms.overwrites } }
  let v := if (pointCfg t i).report then sendNotices t r v else v
  { v with alarms := { v.alarms with summary := severitySummary v.alarms.points } }

/-- Entry to RAISED from RAISING: the severity is held, the raise count rises to at most 255, a RAISE event (R170). -/
def raisePoint (t : Tables) (i : Nat) (v : Live) : Live :=
  let sev := (pointCfg t i).severity
  alarmEvent t i false sev
    (mapPoint i (fun p => { p with
      state := .raised, soak := none, severity := some sev, raises := min 255 (p.raises + 1) }) v)

/-- Entry to CLEAR from CLEARING: a CLEAR event with the held severity, which then ends (R170). -/
def clearPoint (t : Tables) (i : Nat) (v : Live) : Live :=
  match v.alarms.points[i]? with
  | some p =>
    alarmEvent t i true (p.severity.getD (pointCfg t i).severity)
      (mapPoint i (fun p => { p with state := .clear, soak := none, severity := none }) v)
  | none => v

/-- The soak of a point ends, where it has run its length: RAISED or CLEAR with the event (R168). -/
def soakCheck (t : Tables) (i : Nat) (v : Live) : Live :=
  match v.alarms.points[i]? with
  | some p => match p.soak, p.state with
    | some since, .raising =>
      if soakPeriods (pointCfg t i).raiseSoak ≤ v.osc - since then raisePoint t i v else v
    | some since, .clearing =>
      if soakPeriods (pointCfg t i).clearSoak ≤ v.osc - since then clearPoint t i v else v
    | _, _ => v
  | none => v

/-- A condition handed to its point: a changed one moves the point as the table of R168 says, and a soak of length 0
ends at the instant it starts. -/
def handCondition (t : Tables) (i : Nat) (b : Bool) (v : Live) : Live :=
  match v.alarms.points[i]? with
  | some p =>
    if p.cond = b then v
    else match p.state, b with
      | .clear, true =>
        soakCheck t i (mapPoint i (fun p => { p with cond := b, state := .raising, soak := some v.osc }) v)
      | .raising, false => mapPoint i (fun p => { p with cond := b, state := .clear, soak := none }) v
      | .raised, false =>
        soakCheck t i (mapPoint i (fun p => { p with cond := b, state := .clearing, soak := some v.osc }) v)
      | .clearing, true => mapPoint i (fun p => { p with cond := b, state := .raised, soak := none }) v
      | _, _ => mapPoint i (fun p => { p with cond := b }) v
  | none => v

/-- Conditions handed to the points from point `i` on. -/
def handConditions (t : Tables) : Nat → List Bool → Live → Live
  | _, [], v => v
  | i, b :: bs, v => handConditions t (i + 1) bs (handCondition t i b v)

/-- Every condition as its owner now holds it reaches its point; during LOADING the points stay CLEAR (R166, R177). -/
def refreshAlarms (t : Tables) (v : Live) : Live :=
  match v.part with
  | .loading => v
  | .running => handConditions t 0 (conditions t v) v

/-- The soaks that a write has left at or beyond their length end at that instant (R167), in the order of the point
indices, which R169 leaves open (assumption 64). -/
def soakChecks (t : Tables) : List Nat → Live → Live
  | [], v => v
  | i :: is, v => soakChecks t is (soakCheck t i v)

end Sys2Proof.Machine
end

