-- ==== Sys2Proof/Machine/RollEngine.lean ====
section
/-! DEFINITION. The roll engine: heads and cycles, slots, the ring map, CONFIG distribution (chapters 7 and 8). -/

namespace Sys2Proof.Machine

/-! ## Slots and ROLL frames -/

/-- One ring map entry changed by a function. -/
def mapEntryAt (i : Nat) (f : MapEntry → MapEntry) (v : Live) : Live :=
  { v with roll := { v.roll with map := modifyAt i f v.roll.map } }

/-- What this node writes into its own slot of a ROLL of the given sequence and head generation (R132, R149). -/
def ownSlot (t : Tables) (seq : Seq16) (headGen : Nat) (v : Live) : Slot :=
  { fillSeq := seq, servo := v.servo.state, cls := v.ownClass, summary := summaryCode v.alarms.summary,
    gen := t.ring.gen, stale := decide (t.ring.gen ≠ headGen),
    mismatch := decide (v.roll.rejectedGen = some headGen), duplicate := v.roll.duplicate.isSome, carried := false,
    serial := t.node.serial }

/-- The set of the ids whose ring map entry satisfies a test. -/
def mapSet (f : MapEntry → Bool) (m : List MapEntry) : BitVec 32 :=
  setOf (fun i => match m[i]? with
    | some e => f e
    | none => false)

/-- The silent set a head reports (R123). -/
def silentSet (v : Live) : BitVec 32 := mapSet (fun e => decide (e.presence = .silent)) v.roll.map

/-- The mismatch set a head reports (R144). -/
def mismatchSet (v : Live) : BitVec 32 := mapSet (fun e => decide (e.config = some .mismatch)) v.roll.map

/-- The pending set a head reports (R144). -/
def pendingSet (v : Live) : BitVec 32 := mapSet (fun e => decide (e.config = some .pending)) v.roll.map

/-- The head rank of this node (R123). -/
def headRank (t : Tables) : Nat := (originRole t).rank.getD 0

/-- A ROLL of the cycle as the head forms it (R123, R126). -/
def rollFrame (t : Tables) (rev : Bool) (seq : Seq16) (v : Live) : QFrame :=
  let slots := (List.range 32).map (fun i =>
    if i = t.node.id then some (ownSlot t seq t.ring.gen v)
    else match v.roll.map[i]? with
      | some e => e.slot.map (fun s => { s with carried := true })
      | none => none)
  mkFrame t
    { ring := t.node.ringId, rev := rev, looped := false, origin := t.node.id, sender := t.node.id, target := 255,
      hops := 0, seq := seq }
    (.roll
      { rank := headRank t, seq := seq, status := v.roll.status, loopId := none, headGen := t.ring.gen,
        silent := silentSet v, mismatch := mismatchSet v, pending := pendingSet v, slots := slots })
    (.roll seq rev)

/-- The head writes its own filled slot into its own ring map entry, which is then PRESENT (R123, R136). -/
def fillOwnEntry (t : Tables) (seq : Seq16) (v : Live) : Live :=
  mapEntryAt t.node.id (fun e => { e with presence := .present, slot := some (ownSlot t seq t.ring.gen v) }) v

/-- A ROLL of the cycle handed to its line port (R124, R126). The ROLL is formed on the ring map as it stands before the
head's own entry is written (assumption 50); the conditions that the event has changed so far reach their points first,
so that the slot carries the summary they leave (R149, R166). -/
def sendRoll (t : Tables) (rev : Bool) (seq : Seq16) (v : Live) : Live :=
  let v := refreshAlarms t v
  let q := rollFrame t rev seq v
  hand (.line (if rev then .west else .east)) q (fillOwnEntry t seq v)

/-! ## Config states (R144) -/

/-- The config state of one entry, by the rows of R144 tried from the top. -/
def configStateOf (gen : Nat) (e : MapEntry) : ConfigState :=
  match e.slot with
  | none => .unseen
  | some s =>
    if e.presence = .silent then .unseen
    else if s.mismatch ∧ e.mergeGen = some gen then .mismatch
    else if s.gen = gen then .inSync
    else .pending

/-- One entry with its config state derived; the marker is cleared on entry to PENDING, and on a change of
generation (R144, R150). -/
def deriveEntry (t : Tables) (genChanged : Bool) (i : Nat) (e : MapEntry) : MapEntry :=
  if i ∈ t.ring.members ∧ i ≠ t.node.id then
    let st := configStateOf t.ring.gen e
    { e with
      config := some st
      marker := if st = .pending ∧ (genChanged ∨ e.config ≠ some .pending) then false else e.marker }
  else { e with config := none }

/-- The entries from index `i` on with their config states derived. -/
def deriveEntries (t : Tables) (genChanged : Bool) : Nat → List MapEntry → List MapEntry
  | _, [] => []
  | i, e :: es => deriveEntry t genChanged i e :: deriveEntries t genChanged (i + 1) es

/-- The config states derived (R144). -/
def deriveConfig (t : Tables) (genChanged : Bool) (v : Live) : Live :=
  { v with roll := { v.roll with map := deriveEntries t genChanged 0 v.roll.map } }

/-! ## Sending CONFIG (R143, R145) -/

/-- Whether a head distributes: no head of lower rank is in its heads-heard list (R143). -/
def distributing (t : Tables) (v : Live) : Bool := v.roll.heads.all (fun h => decide (headRank t ≤ h.rank))

/-- The member list from a position on, wrapping to position 0 (R145). -/
def rotate (k : Nat) (l : List Nat) : List Nat := l.drop k ++ l.take k

/-- Where the scan starts: after the last node served, or after the head's own position; position 0 where that node
has none (R145). The positions are those of the list in force (assumption 72). -/
def scanStart (t : Tables) (v : Live) : Nat :=
  match posOf (v.roll.lastServed.getD t.node.id) t.ring.members with
  | some p => (p + 1) % t.ring.members.length
  | none => 0

/-- The side a CONFIG to a target is sent by, before DOWN spans are looked at (R145), by the positions of the list in
force (assumption 72). -/
def configSide (t : Tables) (tgt : Nat) (v : Live) : Side :=
  match v.roll.status, (v.roll.map[tgt]?).bind (fun e => e.mergeRev) with
  | .forward, _ => nearSide t.ring.members t.node.id tgt
  | _, some rev => if rev then .west else .east
  | _, none => nearSide t.ring.members t.node.id tgt

/-- A CONFIG sent to one target: formed unless both spans are DOWN, its marker set, the node now the last served, and
counted (R145). -/
def sendConfig (t : Tables) (tgt : Nat) (v : Live) : Option Live :=
  match openSide v (configSide t tgt v) with
  | none => none
  | some d =>
    let seq := v.roll.configSeq + 1
    let q := mkFrame t
      { ring := t.node.ringId, rev := d.outRev, looped := false, origin := t.node.id, sender := t.node.id,
        target := tgt, hops := 0, seq := seq }
      (.config { target := tgt, ring := t.ring }) .plain
    let v := { v with roll := { v.roll with
      configSeq := seq, lastServed := some tgt, configSent := bump v.roll.configSent } }
    some (hand (.line d) q (mapEntryAt tgt (fun e => { e with marker := true }) v))

/-- CONFIG frames to the first of a list of targets, at most `left` of them (R145). -/
def sendConfigs (t : Tables) : Nat → List Nat → Live → Nat × Live
  | left, [], v => (left, v)
  | 0, _, v => (0, v)
  | left + 1, i :: is, v =>
    match sendConfig t i v with
    | some v' => sendConfigs t left is v'
    | none => sendConfigs t (left + 1) is v

/-- The scan of a distributing head: those PENDING with a clear marker first, then those whose marker was set when the
scan began, four at most (R145). DESIGN CHOICE: the member list is the one in force at the end of the cycle, not the one
that the cycle took at its start (assumption 72). -/
def configScan (t : Tables) (v : Live) : Live :=
  if t.ring.gen = 0 ∨ distributing t v = false then v
  else
    let order := rotate (scanStart t v) t.ring.members
    let pend := fun (marked : Bool) (i : Nat) => match v.roll.map[i]? with
      | some e => decide (e.config = some .pending) && (e.marker == marked)
      | none => false
    let (left, v1) := sendConfigs t 4 (order.filter (pend false)) v
    (sendConfigs t left (order.filter (pend true)) v1).2

/-! ## Roll cycles (R122 to R128) -/

/-- The ring status that the outcomes of a cycle give (R127). -/
def statusOf (f : RollOutcome) (r : Option RollOutcome) : RingStatus :=
  match f, r with
  | .returned, _ => .forward
  | _, some .returned => .reverse
  | .looped, some .looped => .loopbackBoth
  | .looped, some .timedOut => .loopbackFwd
  | .timedOut, some .looped => .loopbackRev
  | _, _ => .isolated

/-- One entry judged at the end of a cycle (R137). -/
def judgeSilence (c : Cycle) (self i : Nat) (e : MapEntry) : MapEntry :=
  let configured := decide (i ∈ c.members)
  if i ≠ self ∧ (configured ∨ e.presence = .present) then
    if i ∈ c.seen then
      { e with miss := 0, presence := if e.presence = .silent then .present else e.presence }
    else
      let m := min 3 (e.miss + 1)
      if m = 3 then
        if configured then { e with miss := m, presence := .silent }
        else { e with miss := 0, presence := .unknown, slot := none }
      else { e with miss := m }
  else e

/-- The entries from index `i` on judged at the end of a cycle. -/
def judgeSilences (c : Cycle) (self : Nat) : Nat → List MapEntry → List MapEntry
  | _, [] => []
  | i, e :: es => judgeSilence c self i e :: judgeSilences c self (i + 1) es

/-- The cycle time in whole microseconds; 0 where no ROLL was sent (R128). -/
def cycleMicros (c : Cycle) (now : Stamp) : Nat :=
  match c.firstSent with
  | some s => (interval s now).toNat / 1000000
  | none => 0

/-- The end of a cycle: silent detection, ring status, cycle times, then the CONFIG work, in this order (R126). The
conditions are handed over as they stand after it (assumption 71). -/
def endCycle (t : Tables) (c : Cycle) (f : RollResult) (r : Option RollResult) (v : Live) : Live :=
  let st := statusOf f.outcome (r.map (fun x => x.outcome))
  let time := cycleMicros c v.now
  let v := { v with roll := { v.roll with
    cycle := none
    map := judgeSilences c t.node.id 0 v.roll.map
    loopSwitches :=
      if st ≠ v.roll.status ∧ st ≠ .forward then bump v.roll.loopSwitches else v.roll.loopSwitches
    status := st
    fwd := some f
    rev := r
    cycleTime := some time
    cycleMin := some (min time (v.roll.cycleMin.getD time))
    cycleMax := some (max time (v.roll.cycleMax.getD time)) } }
  configScan t (deriveConfig t false v)

/-- The reverse ROLL after a forward outcome other than RETURNED; at a DOWN span on LW the reverse outcome is LOOPED
at once with this node as loop point, and the cycle ends (R126). -/
def startReverse (t : Tables) (c : Cycle) (f : RollResult) (v : Live) : Live :=
  let c := { c with rev := true, sentAt := none, fwd := some f }
  if v.spanIs .west .down then endCycle t c f (some { outcome := .looped, loopId := some t.node.id }) v
  else sendRoll t true c.seq { v with roll := { v.roll with cycle := some c } }

/-- The outcome of the outstanding ROLL: on to the reverse ROLL, or to the end of the cycle (R126). -/
def rollOutcome (t : Tables) (o : RollResult) (v : Live) : Live :=
  match v.roll.cycle with
  | none => v
  | some c =>
    match c.fwd with
    | none => if o.outcome = .returned then endCycle t c o none v else startReverse t c o v
    | some f => endCycle t c f (some o) v

/-- A new cycle: the sequence moves on, the timeout and the member list are taken, and the forward ROLL is sent; at a
DOWN span on LE its outcome is LOOPED at once (R123, R124). -/
def beginCycle (t : Tables) (v : Live) : Live :=
  let seq := v.roll.seq + 1
  let c : Cycle :=
    { seq := seq, timeout := t.ring.timeout, members := t.ring.members, rev := false, sentAt := none,
      firstSent := none, fwd := none, seen := [] }
  let v := { v with roll := { v.roll with seq := seq, cycle := some c } }
  if v.spanIs .east .down then startReverse t c { outcome := .looped, loopId := some t.node.id } v
  else sendRoll t false seq v

/-- Oscillator periods of a roll interval in ms (R122). -/
def rollPeriods (ms : Nat) : Nat := 125000 * ms

/-- Whether the roll clock's count stands at or beyond the roll interval (R122). -/
def rollTickDue (t : Tables) (v : Live) : Bool :=
  match v.roll.clock with
  | some since => decide (rollPeriods t.ring.interval ≤ v.osc - since)
  | none => false

/-- A tick of the roll clock: its count starts again, and a cycle begins where none is in progress (R122). -/
def rollTick (t : Tables) (v : Live) : Live :=
  let v := { v with roll := { v.roll with clock := some v.osc } }
  match v.roll.cycle with
  | none => beginCycle t v
  | some _ => v

/-- Head items of a ring map entry as they stand when the node becomes or ceases to be a head (R136). -/
def MapEntry.clearHead (e : MapEntry) : MapEntry :=
  { e with miss := 0, mergeRev := none, mergeGen := none, config := none, marker := false }

/-- The node becomes a head: the head items start afresh, the roll clock starts, and a cycle begins (R122, R136). Its
ring status is UNKNOWN until its first completed cycle, since a head reports FORWARD only where the forward ROLL of its
own last completed cycle returned (R127; assumption 46). -/
def becomeHead (t : Tables) (v : Live) : Live :=
  beginCycle t { v with roll := { v.roll with
    map := v.roll.map.map MapEntry.clearHead, clock := some v.osc, cycle := none, status := .unknown } }

/-- A member's ring status is UNKNOWN while it has no preferred head (R138). -/
def statusWithoutHead (v : Live) : Live :=
  if v.epoch.active = false ∧ v.roll.heads = [] then { v with roll := { v.roll with status := .unknown } } else v

/-- The node ceases to be a head: its clock stops, its cycle ends with nothing derived, its head items are absent
(R122, R129, R136). -/
def ceaseHead (v : Live) : Live :=
  statusWithoutHead { v with roll := { v.roll with
    map := v.roll.map.map MapEntry.clearHead, clock := none, cycle := none, fwd := none, rev := none } }

/-- The roll timeout of the cycle in progress has run (R124); the timeout is in units of 0.1 ms. -/
def rollTimeoutDue (v : Live) : Bool :=
  match v.roll.cycle with
  | some c => match c.sentAt with
    | some s => decide ((c.timeout : Int) * 100000000 ≤ interval s v.now)
    | none => false
  | none => false

/-- The outstanding ROLL times out, and is counted (R124). -/
def rollTimedOut (t : Tables) (v : Live) : Live :=
  rollOutcome t { outcome := .timedOut, loopId := none }
    { v with roll := { v.roll with rollTimeouts := bump v.roll.rollTimeouts } }

/-- A ROLL lost unsent acts as a timeout where it is the outstanding ROLL of the cycle in progress (R124). One of an
ended cycle that still waits and is lost is not counted (assumption 70). -/
def rollLost (t : Tables) (seq : Seq16) (rev : Bool) (v : Live) : Live :=
  match v.roll.cycle with
  | some c => if c.seq = seq ∧ c.rev = rev then rollTimedOut t v else v
  | none => v

/-! ## A ROLL taken (R125, R130 to R138) -/

/-- The slots of a returned ROLL merged into the entries from index `i` on: those under the cycle's sequence with the
carried flag clear; the ids merged come with them (R136). -/
def mergeSlots (seq : Seq16) (rev : Bool) (gen : Nat) :
    Nat → List (Option Slot) → List MapEntry → List Nat × List MapEntry
  | _, _, [] => ([], [])
  | _, [], es => ([], es)
  | i, s :: ss, e :: es =>
    let (ids, rest) := mergeSlots seq rev gen (i + 1) ss es
    match s with
    | some x =>
      if x.fillSeq = seq ∧ x.carried = false then
        (i :: ids,
          { e with
            presence := if e.slot.isNone then .present else e.presence
            slot := some x, mergeRev := some rev, mergeGen := some gen } :: rest)
      else (ids, e :: rest)
    | none => (ids, e :: rest)

/-- The outcome a ROLL bearing this head's id gives, where it matches the outstanding ROLL (R125). -/
def returnOutcome (c : Cycle) (d : Side) (looped : Bool) : Option RollOutcome :=
  match c.rev, d, looped with
  | false, .west, false => some .returned
  | false, .east, true => some .looped
  | true, .east, false => some .returned
  | true, .west, true => some .looped
  | _, _, _ => none

/-- One late ROLL discarded (R125). -/
def lateRoll (v : Live) : Live := { v with roll := { v.roll with lateRolls := bump v.roll.lateRolls } }

/-- A ROLL that comes back to its head: a return, or late (R125). The ROLL of the direction in progress is the outstanding
one from its forming on, whether or not its own transmission has begun (assumption 51). Where the return ends the cycle,
NODE-SILENT is handed over after the judgement of the silences alone (assumption 71). -/
def rollReturn (t : Tables) (d : Side) (h : Header) (b : RollBody) (v : Live) : Live :=
  match v.roll.cycle with
  | none => lateRoll v
  | some c =>
    if b.seq ≠ c.seq then lateRoll v
    else match returnOutcome c d h.looped with
      | none => lateRoll v
      | some o =>
        let (ids, m) := mergeSlots c.seq c.rev b.headGen 0 b.slots v.roll.map
        let v := { v with roll := { v.roll with map := m, cycle := some { c with seen := c.seen ++ ids } } }
        rollOutcome t { outcome := o, loopId := if o = .looped then b.loopId else none } v

/-- A heads-heard entry refreshed in its place, or added at the end of the list (R131; assumption 63 for its place). -/
def refreshHead (o : HeadHeard) (l : List HeadHeard) : List HeadHeard :=
  if l.any (fun h => h.id == o.id) then l.map (fun h => if h.id = o.id then o else h) else l ++ [o]

/-- A head is heard: its entry is added or refreshed, with the rank the ROLL carries and this instant (R131). -/
def hearHead (id rank : Nat) (v : Live) : Live :=
  { v with roll := { v.roll with
    heads := refreshHead { id := id, rank := rank, heardAt := v.now } v.roll.heads } }

/-- The slot at an index of a list of slots. -/
def slotAt (slots : List (Option Slot)) (i : Nat) : Option Slot := (slots[i]?).join

/-- The duplicate check on this node's own slot as a ROLL brought it (R132). -/
def duplicateSeen (t : Tables) (b : RollBody) : Bool :=
  match slotAt b.slots t.node.id with
  | some s => decide (s.fillSeq = b.seq) && !s.carried && decide (s.serial ≠ t.node.serial)
  | none => false

/-- The node fills its own slot: the duplicate check, whose flag is handed to the alarm unit at once, then the slot
(R132, R149, R166). -/
def fillSlot (t : Tables) (b : RollBody) (v : Live) : RollBody × Live :=
  let v := if duplicateSeen t b then refreshAlarms t { v with roll := { v.roll with duplicate := some v.now } } else v
  ({ b with slots := modifyAt t.node.id (fun _ => some (ownSlot t b.seq b.headGen v)) b.slots }, v)

/-- The entries from index `i` on after a copy: filled slots taken, presence set from the silent set (R133, R138). -/
def copyEntries (silent : BitVec 32) : Nat → List (Option Slot) → List MapEntry → List MapEntry
  | _, _, [] => []
  | i, ss, e :: es =>
    let slot := match ss.head?.join with
      | some x => some x
      | none => e.slot
    let pr := if inSet silent i then Presence.silent else if slot.isSome then .present else .unknown
    { e with slot := slot, presence := pr } :: copyEntries silent (i + 1) ss.tail es

/-- A member copies the view of its preferred head (R133), and drops a rejected generation the head has left (R148). -/
def copyView (b : RollBody) (v : Live) : Live :=
  { v with roll := { v.roll with
    status := b.status
    view := some { seq := b.seq, headGen := b.headGen, silent := b.silent, mismatch := b.mismatch,
                   pending := b.pending }
    map := copyEntries b.silent 0 b.slots v.roll.map
    rejectedGen := if v.roll.rejectedGen = some b.headGen then v.roll.rejectedGen else none } }

/-- One ROLL dropped at a second break or for want of a way back (R134). -/
def loopDrop (v : Live) : Live := { v with roll := { v.roll with loopDrops := bump v.roll.loopDrops } }

/-- A ROLL sent on: forwarded, looped at a DOWN span, or discarded at a second break (R134). DESIGN CHOICE: the target id
and the sequence of its header stay as they arrived (assumption 74). -/
def sendRollOn (t : Tables) (d : Side) (h : Header) (b : RollBody) (v : Live) : Live :=
  let h := { h with sender := t.node.id }
  if v.spanIs d.other .down = false then
    hand (.line d.other) (mkFrame t { h with hops := h.hops + 1 } (.roll b) .plain) v
  else if h.looped then loopDrop v
  else if (v.port (.line d)).link = false then loopDrop v
  else
    hand (.line d)
      (mkFrame t { h with looped := true, rev := !h.rev, hops := 0 } (.roll { b with loopId := some t.node.id }) .plain) v

/-- A ROLL that passes the checks of R130: its head is heard, the slot filled, the view copied at a member whose
preferred head it is, and the frame sent on (R131 to R135). -/
def rollPasses (t : Tables) (d : Side) (h : Header) (b : RollBody) (v : Live) : Live :=
  let v := hearHead h.origin b.rank v
  let (b, v) := fillSlot t b v
  let v := if v.epoch.active = false ∧ preferredHead v = some h.origin then copyView b v else v
  sendRollOn t d h b v

/-- A ROLL claimed at a line port, checked in the order of R130. -/
def takeRoll (t : Tables) (d : Side) (h : Header) (b : RollBody) (v : Live) : Live :=
  if namesOrigin t.ring h.origin = false then
    { v with roll := { v.roll with unknownHead := bump v.roll.unknownHead } }
  else if h.rev ≠ d.inRev then { v with roll := { v.roll with wrongDir := bumpSide v.roll.wrongDir d } }
  else if h.origin = t.node.id then
    if v.epoch.active then rollReturn t d h b v
    else { v with roll := { v.roll with ownHead := bump v.roll.ownHead } }
  else if h.hops = 31 then { v with roll := { v.roll with hopLimit := bump v.roll.hopLimit } }
  else rollPasses t d h b v

/-- Whether a heads-heard entry has gone 3 roll intervals without a ROLL (R131). -/
def headExpired (t : Tables) (now : Stamp) (h : HeadHeard) : Bool :=
  decide (3 * (t.ring.interval : Int) * 1000000000 ≤ interval h.heardAt now)

/-- A head's entry removed where it has expired (R131, R138). -/
def expireHead (t : Tables) (id : Nat) (v : Live) : Live :=
  statusWithoutHead { v with roll := { v.roll with
    heads := v.roll.heads.filter (fun h => !(h.id == id && headExpired t v.now h)) } }

/-- Entries removed whose ids the RING parameters no longer name (R131, R142). -/
def dropUnnamedHeads (t : Tables) (v : Live) : Live :=
  statusWithoutHead { v with roll := { v.roll with
    heads := v.roll.heads.filter (fun h => namesOrigin t.ring h.id) } }

/-- Whether the duplicate flag has gone 3 roll intervals without a detection (R132). -/
def duplicateExpired (t : Tables) (v : Live) : Bool :=
  match v.roll.duplicate with
  | some s => decide (3 * (t.ring.interval : Int) * 1000000000 ≤ interval s v.now)
  | none => false

/-- The duplicate flag cleared (R132). -/
def clearDuplicate (v : Live) : Live := { v with roll := { v.roll with duplicate := none } }

/-! ## A CONFIG taken (R146 to R148) -/

/-- One CONFIG discarded (R146, R147). -/
def configDiscard (v : Live) : Live := { v with roll := { v.roll with configDiscards := bump v.roll.configDiscards } }

/-- What becomes of a CONFIG claimed at a line port. -/
inductive ConfigVerdict where
  | discard
  | forward
  | deferred
  | refuse
  | adopt
  deriving DecidableEq, Repr

/-- The member checks of R147, step 4. -/
def memberChecks (n : NodeTable) (r : RingTable) : Bool :=
  decide (n.id ∈ r.members) &&
    match n.role with
    | .primary => decide (n.id = r.primary)
    | .standby => decide (r.standby = some n.id)
    | .member => decide (n.id ≠ r.primary) && decide (r.standby ≠ some n.id)

/-- The checks of R146 and R147 in their order. -/
def configVerdict (t : Tables) (ringLock : Lock) (committing : Bool) (d : Side) (h : Header) (b : ConfigBody) :
    ConfigVerdict :=
  if namesOrigin t.ring h.origin = false then .discard
  else if h.rev ≠ d.inRev then .discard
  else if h.origin = t.node.id then .discard
  else if h.hops = 31 then .discard
  else if h.target ≠ t.node.id then .forward
  else if t.node.role = .primary then .discard
  else if committing then .deferred
  else if b.ring.gen = 0 then .discard
  else if memberChecks t.node b.ring ∧ ringLock = .opened then .adopt
  else .refuse

/-- A CONFIG for another node leaves by the opposite line port, or is dropped at a DOWN span (R146). -/
def forwardConfig (t : Tables) (d : Side) (h : Header) (b : ConfigBody) (v : Live) : Live :=
  if v.spanIs d.other .down then { v with roll := { v.roll with configDrops := bump v.roll.configDrops } }
  else hand (.line d.other)
    (mkFrame t { h with sender := t.node.id, hops := h.hops + 1 } (.config b) .plain) v

/-- A refused CONFIG: its generation is recorded as rejected (R148). -/
def refuseConfig (gen : Nat) (v : Live) : Live :=
  { v with roll := { v.roll with rejectedGen := some gen, configRefused := bump v.roll.configRefused } }

end Sys2Proof.Machine
end

