-- ==== Sys2Proof/Machine/AccessUnit.lean ====
section
/-! DEFINITION. The access unit: port states and restore timers, withdrawals, access EPOCH messages, pulses and probe
answers (chapter 9; R6 and R7 for the crossings). -/

namespace Sys2Proof.Machine

/-! ## Port states (R153 to R157) -/

/-- Whether a queued frame is an EPOCH. -/
def isEpochFrame (q : QFrame) : Bool := q.frame.body.kind == 1

/-- On entry to OFF or SQUELCHED every waiting frame is withdrawn, and on entry to DEGRADED under MARK every waiting
EPOCH (R157). -/
def withdrawOnEntry (c : AccessCfg) (i : Fin 4) (st : AccessState) (v : Live) : Live :=
  match st with
  | .off => withdraw (.access i) (fun _ => true) v
  | .squelched => withdraw (.access i) (fun _ => true) v
  | .degraded => if c.loss = .mark then withdraw (.access i) isEpochFrame v else v
  | .deliver => v

/-- An access port enters a state, with its restore timer as given. -/
def enterAccess (c : AccessCfg) (i : Fin 4) (st : AccessState) (timer : Option Timer) (v : Live) : Live :=
  withdrawOnEntry c i st (v.mapAccess i (fun a => { a with state := st, timer := timer }))

/-- One port judged on a change of the own class from `old` to `new` (R153, R154). -/
def judgeAccess (t : Tables) (old new : QClass) (i : Fin 4) (v : Live) : Live :=
  let c := t.port.access.get i
  let a := v.access.get i
  match a.state with
  | .off => v
  | .deliver => if c.floor.num < new.num then enterAccess c i (lossState c) none v else v
  | _ =>
    if c.floor.num < new.num then v.mapAccess i (fun a => { a with timer := none })
    else if c.floor.num < old.num then v.mapAccess i (fun a => { a with timer := some (Timer.start v.now) })
    else if old.num < new.num ∧ a.timer.isSome then
      v.mapAccess i (fun a => { a with timer := some (Timer.start v.now) })
    else v

/-- Every port judged on a change of the own class (R77, R153). -/
def judgeAll (t : Tables) (old new : QClass) (v : Live) : Live :=
  judgeAccess t old new 3 (judgeAccess t old new 2 (judgeAccess t old new 1 (judgeAccess t old new 0 v)))

/-- Whether a port's restore timer runs and has reached the restore time (R154). -/
def restoreReached (t : Tables) (i : Fin 4) (v : Live) : Bool :=
  match (v.access.get i).timer with
  | some tm => decide (secPs (t.port.access.get i).restore ≤ tm.elapsed v.now)
  | none => false

/-- A restore timer that has reached the restore time: the port enters DELIVER and the timer stops (R154). -/
def restoreCheck (t : Tables) (i : Fin 4) (v : Live) : Live :=
  if restoreReached t i v then enterAccess (t.port.access.get i) i .deliver none v else v

/-- The state of a port after a reset: OFF where the mode is OFF, else its loss state (R164). -/
def startState (c : AccessCfg) : AccessState := if c.mode = .off then .off else lossState c

/-- An access port right after a reset, with its state and J_p set (R164). -/
def startAccess (t : Tables) (i : Fin 4) (v : Live) : Live :=
  (v.mapAccess i (fun _ => { Reset.access with state := startState (t.port.access.get i) })).resetJp t i

/-! ## Writes of the PORT record (R7, R156, R158) -/

/-- The pulse advance changed: K is kept where its crossing point still lies ahead, and set again otherwise (R7). -/
def applyAdvance (new : AccessCfg) (i : Fin 4) (v : Live) : Live :=
  let ps := v.ts.value.toPs
  let k := v.ts.k.get i
  if pastCrossing new.advance k ps < 0 then v
  else { v with ts := { v.ts with k := v.ts.k.set i (boundaryAbove new.advance ps) } }

/-- The mode changed (R156, R157). -/
def applyMode (old new : AccessCfg) (i : Fin 4) (v : Live) : Live :=
  if old.mode = new.mode then v
  else if new.mode = .off then enterAccess old i .off none v
  else
    let v := if new.mode = .pulse then withdraw (.access i) isEpochFrame v else v
    if old.mode = .off then
      let within := decide (v.ownClass.num ≤ old.floor.num)
      enterAccess old i (lossState old) (if within then some (Timer.start v.now) else none) v
    else v

/-- The floor changed; `mid` is the record after it, its loss behaviour still the old one (R156). -/
def applyFloor (old mid : AccessCfg) (i : Fin 4) (v : Live) : Live :=
  if old.floor = mid.floor then v
  else
    let a := v.access.get i
    match a.state with
    | .off => v
    | .deliver => if mid.floor.num < v.ownClass.num then enterAccess mid i (lossState mid) none v else v
    | _ =>
      if mid.floor.num < v.ownClass.num then v.mapAccess i (fun a => { a with timer := none })
      else if a.timer.isNone then v.mapAccess i (fun a => { a with timer := some (Timer.start v.now) })
      else v

/-- The loss behaviour changed (R156, R157). -/
def applyLoss (old new : AccessCfg) (i : Fin 4) (v : Live) : Live :=
  if old.loss = new.loss then v
  else
    let a := v.access.get i
    match a.state with
    | .degraded => enterAccess new i (lossState new) a.timer v
    | .squelched => enterAccess new i (lossState new) a.timer v
    | _ => v

/-- The effects of a change of one access record: mode, EPOCH rate, floor, loss behaviour and restore time in the
order R156 gives, then the pulse advance; each change of the port's state hands its ACCESS-SQUELCH condition on before
the next field acts (R7, R156, R158, R162). -/
def accessEffects (t : Tables) (old new : AccessCfg) (i : Fin 4) (v : Live) : Live :=
  let v := refreshAlarms t (applyMode old new i v)
  let v := if old.rate = new.rate then v else v.resetJp t i
  let v := refreshAlarms t (applyFloor old { new with loss := old.loss } i v)
  let v := refreshAlarms t (applyLoss old new i v)
  let v := if old.restore = new.restore then v else refreshAlarms t (restoreCheck t i v)
  if old.advance = new.advance then v else applyAdvance new i v

/-! ## What a port sends (R157 to R161) -/

/-- Whether the state and mode allow EPOCH frames (R157). -/
def sendsEpochs (c : AccessCfg) (st : AccessState) : Bool :=
  (decide (c.mode = .frames) || decide (c.mode = .both)) && (decide (st = .deliver) || decide (st = .degraded))

/-- Whether the state and mode allow pulses (R160). -/
def drivesPulses (c : AccessCfg) (st : AccessState) : Bool :=
  (decide (c.mode = .pulse) || decide (c.mode = .both)) &&
    (decide (st = .deliver) || (decide (st = .degraded) && decide (c.loss = .continue)))

/-- The class an access EPOCH carries: Q4 where the port is DEGRADED under MARK (R159). -/
def accessClass (c : AccessCfg) (st : AccessState) (own : QClass) : QClass :=
  if st = .degraded ∧ c.loss = .mark then .q4 else own

/-- An EPOCH formed for an access port and handed to its queue (R159). -/
def formAccessEpoch (t : Tables) (i : Fin 4) (v : Live) : Live :=
  let c := t.port.access.get i
  let a := v.access.get i
  let seq := a.epochSeq + 1
  let cls := accessClass c a.state v.ownClass
  let v := v.mapAccess i (fun a => { a with epochSeq := seq, lastClass := some cls })
  hand (.access i)
    (mkFrame t
      { ring := t.node.ringId, rev := false, looped := false, origin := t.node.id, sender := t.node.id, target := 255,
        hops := 0, seq := seq }
      (.epoch { time := toNs v.now.time, corr := 0, cls := cls, rank := 0 }) .origEpoch) v

/-- J_p is crossed: an EPOCH is formed where state, mode and link allow, and J_p moves to the following instant (R158). -/
def crossAccessEpoch (t : Tables) (i : Fin 4) (v : Live) : Live :=
  let c := t.port.access.get i
  let a := v.access.get i
  let v' := if sendsEpochs c a.state && (v.port (.access i)).link then formAccessEpoch t i v else v
  v'.mapAccess i (fun x => { x with jp := epochAfter c.rate a.jp })

/-- The crossing point of K is crossed: the pulse is driven where state and mode allow, and K moves on (R6, R160). -/
def crossPulse (t : Tables) (i : Fin 4) (v : Live) : Live :=
  let c := t.port.access.get i
  let k := v.ts.k.get i
  let v := if drivesPulses c (v.access.get i).state then v.mapAccess i (fun a => { a with lastPulse := some k }) else v
  { v with ts := { v.ts with k := v.ts.k.set i ((k + 1) % 1099511627776) } }

/-- A SPAN-PROBE accepted on an access port: answered in DELIVER and DEGRADED, each reply
handed to the queue being counted, and counted as unanswered otherwise (R161). -/
def answerAccessProbe (t : Tables) (i : Fin 4) (rx : Stamp) (h : Header) (seq : Seq16) (v : Live) : Live :=
  match (v.access.get i).state with
  | .off => v.mapAccess i (fun a => { a with unanswered := bump a.unanswered })
  | .squelched => v.mapAccess i (fun a => { a with unanswered := bump a.unanswered })
  | _ =>
    let o := Config.openHeader 3 seq.toNat v.osc
    let t2 := toNs rx.time
    let q := mkFrame t
      { ring := h.ring, rev := o.rev, looped := false, origin := openId o.origin, sender := t.node.id,
        target := h.sender, hops := o.hops.val, seq := h.seq }
      (.reply seq t2 t2) (.reply rx)
    (hand (.access i) q v).mapAccess i (fun a => { a with replies := bump a.replies })

end Sys2Proof.Machine
end

