-- ==== Sys2Proof/Machine/ServoUnit.lean ====
section
/-! DEFINITION. The servo: samples, the window, the update, the rearm, and its entries to and exits from the states
(chapter 1, sections 1.3 to 1.9; R65, R66). -/

namespace Sys2Proof.Machine

/-- A sample of one second or more (R14, R15). -/
def coarseNs : Nat := 1000000000

/-- The runs at 0. -/
def Servo.clearRuns (s : Servo) : Servo := { s with lockRun := 0, unlockRun := 0, skipRun := 0 }

/-- The samples per second of the selected candidate: 1 for REF, the epoch rate in force for the ring (R19). -/
def sampleRate (t : Tables) (v : Live) : Nat :=
  match v.selection with
  | some .ref => 1
  | _ => t.ring.rate

/-- The accepted offsets of a window. -/
def acceptedOffsets (q : List Sample) : List Int := (q.filter (fun x => x.accept)).map (fun x => x.theta)

/-- The frequency error r in ppt (R19, step 1). -/
def frequencyError (theta : Int) (rate n : Nat) : Int := divZero (theta * 1000 * rate) n

/-- The integral term: I_new (R19, step 3). -/
def nextInteg (c : ServoTable) (integ r : Int) : Int := clampSym c.limit (integ - shiftZero r c.ki)

/-- F_servo from I_new and P (R19, steps 2 and 4). -/
def nextFServo (c : ServoTable) (iNew r : Int) : Int := clampSym c.limit (iNew + -(shiftZero r c.kp))

/-- The window closes: the queue is emptied and the ungated-window flag cleared (R15, R16, R17, R23). -/
def Servo.closeWindow (s : Servo) : Servo := { s with queue := [], ungated := false }

/-- A skipped update (R17). -/
def skipUpdate (s : Servo) : Servo :=
  let s := { s with skipped := bump s.skipped, lockRun := 0, unlockRun := 0 }
  match s.state with
  | .locked =>
    if s.skipRun + 1 ≥ 3 then { s with state := .acquire, skipRun := 0 }.closeWindow
    else { s with skipRun := s.skipRun + 1 }.closeWindow
  | _ => s.closeWindow

/-- The lock run after a PI update in ACQUIRE, with the entry to LOCKED at 4 (R20). -/
def judgeLock (c : ServoTable) (theta : Int) (s : Servo) : Servo :=
  if theta.natAbs ≤ c.lockThr then
    if s.lockRun + 1 ≥ 4 then { s with state := .locked, phaseUnstable := false }.clearRuns
    else { s with lockRun := s.lockRun + 1 }
  else { s with lockRun := 0 }

/-- The unlock run after a PI update in LOCKED, with the entry to ACQUIRE at 3 (R21); an update after which the servo
is still LOCKED adds its I_new to the holdover history (R22, R63). -/
def judgeUnlock (c : ServoTable) (theta : Int) (s : Servo) : Servo :=
  if c.unlockThr < theta.natAbs then
    if s.unlockRun + 1 ≥ 3 then { s with state := .acquire, phaseUnstable := true }.clearRuns
    else { s with unlockRun := s.unlockRun + 1, history := appendCapped s.history s.integ }
  else { s with unlockRun := 0, history := appendCapped s.history s.integ }

/-- The update of a closed window (R16 to R22). -/
def servoUpdate (t : Tables) (v : Live) : Live :=
  let c := t.servo
  let s := v.servo
  let acc := acceptedOffsets s.queue
  if acc.length < (c.n + 1) / 2 then { v with servo := skipUpdate s }
  else
    let theta := divZero acc.sum acc.length
    let s := { s with skipRun := 0 }
    if s.state = .acquire ∧ c.stepThr < theta.natAbs then
      let s := { s with lockRun := 0, phaseSteps := bump s.phaseSteps, lastTheta := theta }
      ({ v with servo := s.closeWindow } : Live).stepTime t (-theta)
    else
      let r := frequencyError theta (sampleRate t v) c.n
      let iNew := nextInteg c s.integ r
      let s := { s with integ := iNew, fServo := nextFServo c iNew r }
      let s := match s.state with
        | .acquire => judgeLock c theta s
        | _ => judgeUnlock c theta s
      ({ v with servo := { s with lastTheta := theta }.closeWindow } : Live).recomputeF

/-- A sample joins the queue with its accept flag, and a queue of N entries makes an update at that instant (R16). -/
def queueSample (t : Tables) (x : Sample) (v : Live) : Live :=
  let q := v.servo.queue ++ [x]
  let v := { v with servo := { v.servo with queue := q } }
  if t.servo.n ≤ q.length then servoUpdate t v else v

/-- Whether LOCKED accepts a sample (R15). -/
def lockedAccepts (c : ServoTable) (s : Servo) (theta : Int) : Bool :=
  decide (theta.natAbs < coarseNs) && (s.ungated || decide ((theta - s.lastTheta).natAbs ≤ c.gate))

/-- A sample handed to the servo (R14, R15). -/
def servoSample (t : Tables) (theta : Int) (v : Live) : Live :=
  match v.servo.state with
  | .acquire =>
    if coarseNs ≤ theta.natAbs then
      ({ v with servo := { v.servo with
          queue := [], lockRun := 0, phaseSteps := bump v.servo.phaseSteps } } : Live).stepTime t (-theta)
    else queueSample t { theta := theta, accept := true } v
  | .locked =>
    let ok := lockedAccepts t.servo v.servo theta
    let v := if ok then v else { v with servo := { v.servo with gated := bump v.servo.gated } }
    queueSample t { theta := theta, accept := ok } v
  | _ => v

/-- Queue emptied, runs at 0, ungated-window flag clear: the servo's side of R10 and R11. -/
def Servo.fresh (s : Servo) : Servo := { s.clearRuns with queue := [], ungated := false }

/-- A selection from none: the servo enters ACQUIRE; from HOLDOVER, I and F_servo take F_hold clamped to ±L and the
holdover tick stops (R10, R69). -/
def enterAcquire (t : Tables) (v : Live) : Live :=
  let s := v.servo.fresh
  match v.servo.state with
  | .holdover =>
    let i := clampSym t.servo.limit (v.hold.fHold.getD 0)
    ({ v with
        servo := { s with state := .acquire, integ := i, fServo := i }
        hold := { v.hold with nextTick := none } } : Live).recomputeF
  | _ => { v with servo := { s with state := .acquire } }

/-- The mean of the holdover history, truncated and clamped to ±L: the F_hold a loss would form (R65, R70). -/
def historyMean (c : ServoTable) (h : List Int) : Int := clampSym c.limit (divZero h.sum h.length)

/-- The largest value of D and of E (R66, R67). -/
def maxEstimate : Nat := 281474976710655

/-- A stay begins: its quantities take their values at entry (R66). -/
def startStay (t : Tables) (v : Live) : Live :=
  let e0 := (v.servo.lastTheta.natAbs + t.quality.base) * 1000
  { v with hold := { v.hold with
      t := 0, d := 0, e0 := e0, e := min e0 maxEstimate, aging := t.thermal.aging,
      nextTick := some (v.osc + Reset.second) } }

/-- The selection is lost: HOLDOVER on the mean of the history where it holds 16 entries or more, FREERUN on I
otherwise (R11, R65). -/
def loseSelection (t : Tables) (v : Live) : Live :=
  let s := v.servo.fresh
  if 16 ≤ v.servo.history.length then
    let f := historyMean t.servo v.servo.history
    (startStay t { v with
      servo := { s with state := .holdover, fServo := f }
      hold := { v.hold with fHold := some f } }).recomputeF
  else ({ v with servo := { s with state := .freerun, fServo := v.servo.integ } } : Live).recomputeF

/-- A rearm: in LOCKED the queue is emptied, the runs set to 0 and the window left ungated; in ACQUIRE the queue is
emptied and the runs are kept (R23). -/
def rearm (v : Live) : Live :=
  match v.servo.state with
  | .locked => { v with servo := { v.servo.clearRuns with queue := [], ungated := true } }
  | .acquire => { v with servo := { v.servo with queue := [] } }
  | _ => v

end Sys2Proof.Machine
end

