-- ==== Sys2Proof/Machine/Selector.lean ====
section
/-! DEFINITION. The reference selector: the candidate records, the selection and what it hands the servo, and the own
class that follows (chapter 2; R75, R77). -/

namespace Sys2Proof.Machine

/-! ## Records -/

/-- The qualify time of a candidate in ps. -/
def qualifyPs (t : Tables) (c : Cand) : Int := secPs (t.cand.get c).qualify

/-- Whether a qualify timer stands at or beyond the qualify time (R30). -/
def qualified (t : Tables) (c : Cand) (v : Live) : Bool :=
  match (v.cands.get c).qual with
  | some tm => decide (qualifyPs t c ≤ tm.elapsed v.now)
  | none => false

/-- A QUALIFYING candidate whose timer stands at or beyond the qualify time and whose class is better than Q4 becomes
AVAILABLE (R30). -/
def promote (t : Tables) (c : Cand) (v : Live) : Live :=
  let r := v.cands.get c
  if r.state = .qualifying ∧ r.offered ≠ .q4 ∧ qualified t c v then
    v.mapCand c (fun r => { r with state := .available, qual := none })
  else v

/-- An available candidate whose offered class is Q4 returns to QUALIFYING with its timer at the qualify time (R30). -/
def demoteQ4 (t : Tables) (c : Cand) (v : Live) : Live :=
  let r := v.cands.get c
  if r.isAvailable ∧ r.offered = .q4 then
    v.mapCand c (fun r => { r with
      state := .qualifying, qual := some { since := v.now, base := (qualifyPs t c).toNat } })
  else v

/-- Entry to UNAVAILABLE: Q4, no hops, no preferred origin, an empty list, the timer stopped; the last sample is kept
(R36, R40). -/
def CandRec.unavail (r : CandRec) : CandRec :=
  { r with state := .unavailable, offered := .q4, hops := none, preferred := none, origins := [], qual := none }

/-- Entry to DISABLED (R31). -/
def CandRec.disable (r : CandRec) : CandRec :=
  { r with state := .disabled, offered := .q4, hops := none, preferred := none, origins := [], last := none,
           qual := none }

/-- Input lost: a candidate in QUALIFYING, AVAILABLE or SELECTED enters UNAVAILABLE (R36, R40). -/
def loseInput (c : Cand) (v : Live) : Live :=
  match (v.cands.get c).state with
  | .disabled => v
  | .unavailable => v
  | _ => v.mapCand c CandRec.unavail

/-- A ring candidate takes its preferred origin, class and hops from its list; a change of preferred origin from one
origin to another in the SELECTED candidate rearms the servo; an empty list makes the candidate UNAVAILABLE; and the
class rules of R30 follow (R39, R40). An EPOCH taken at the very instant at which the qualify timer reaches the qualify
time promotes first, so that its sample finds the candidate AVAILABLE (assumption 56). -/
def reviseRing (t : Tables) (c : Cand) (v : Live) : Live :=
  let r := v.cands.get c
  match bestOrigin r.origins with
  | none => loseInput c v
  | some b =>
    let changed := decide (r.state = .selected) && r.preferred.isSome && decide (r.preferred ≠ some b.id)
    let v := v.mapCand c (fun r => { r with
      offered := worseClass b.cls .q1, hops := some b.hops, preferred := some b.id })
    let v := if changed then rearm v else v
    promote t c (demoteQ4 t c v)

/-! ## Selection (R41 to R46) -/

/-- Whether a candidate is eligible: available, and in HOLDOVER of a class no worse than the own class (R41). -/
def eligible (v : Live) (c : Cand) : Bool :=
  let r := v.cands.get c
  r.isAvailable && (decide (v.servo.state ≠ .holdover) || decide (r.offered.num ≤ v.ownClass.num))

/-- The place of a candidate in the fixed order (section 2.1). -/
def Cand.order : Cand → Nat
  | .ref => 0
  | .fwd => 1
  | .rev => 2

/-- The selection key as its four terms: offered class, priority, hops with REF as 0, fixed order (R42). -/
def selectionKey (t : Tables) (v : Live) (c : Cand) : List Nat :=
  let r := v.cands.get c
  [r.offered.num, (t.cand.get c).priority, if c = .ref then 0 else r.hops.getD 0, Cand.order c]

/-- Whether one key is better than another, term by term (R42). -/
def keyBetter : List Nat → List Nat → Bool
  | a :: as, b :: bs => decide (a < b) || (decide (a = b) && keyBetter as bs)
  | _, _ => false

/-- The better of two candidates, where either may be absent. -/
def betterOf (t : Tables) (v : Live) (a b : Option Cand) : Option Cand :=
  match a, b with
  | some x, some y => if keyBetter (selectionKey t v y) (selectionKey t v x) then some y else some x
  | none, y => y
  | x, none => x

/-- The eligible candidate with the best key (R42). -/
def bestEligible (t : Tables) (v : Live) : Option Cand :=
  let pick := fun c => if eligible v c then some c else none
  betterOf t v (betterOf t v (pick .ref) (pick .fwd)) (pick .rev)

/-- A manual selection whose candidate has left its available states is cancelled (R46). -/
def cancelManual (v : Live) : Live :=
  match v.manual with
  | some c => if (v.cands.get c).isAvailable then v else { v with manual := none }
  | none => v

/-- The candidate to be selected: the manual selection while one stands, the best key otherwise (R42, R45). -/
def target (t : Tables) (v : Live) : Option Cand :=
  match v.manual with
  | some c => some c
  | none => bestEligible t v

/-- A candidate still available returns from SELECTED to AVAILABLE. -/
def deselect (c : Cand) (v : Live) : Live :=
  v.mapCand c (fun r => if r.state = .selected then { r with state := .available } else r)

/-- The candidate selected before returns to AVAILABLE, where there is one. -/
def leaveSelected (o : Option Cand) (v : Live) : Live :=
  match o with
  | some c => deselect c v
  | none => v

/-- The candidate to be selected becomes SELECTED, where there is one, and the selection is set. -/
def enterSelected (n : Option Cand) (v : Live) : Live :=
  match n with
  | some c => { v.mapCand c (fun r => { r with state := .selected }) with selection := n }
  | none => { v with selection := n }

/-- A change of the selection handed to the servo: a selection from none, a change of candidate, or a loss (R43). -/
def handSelection (t : Tables) (old new : Option Cand) (v : Live) : Live :=
  match old, new with
  | none, some _ => enterAcquire t v
  | some _, some _ => rearm v
  | some _, none => loseSelection t v
  | none, none => v

/-- One evaluation of the selection, with what it hands the servo (R42, R43). -/
def evaluate (t : Tables) (v : Live) : Live :=
  let v := cancelManual v
  let new := target t v
  if new = v.selection then v
  else handSelection t v.selection new (enterSelected new (leaveSelected v.selection v))

/-- The own class takes a new value, and the change is handed at that instant to the access unit and to the alarm unit,
for HOLD-DEGRADED; the selector's evaluation and the epoch engine's takeover follow in `settleSelection` and `settle`
(R77, R162, R166). -/
def setClass (t : Tables) (c : QClass) (v : Live) : Live :=
  refreshAlarms t (judgeAll t v.ownClass c { v with ownClass := c })

/-- The selection is evaluated and the own class derived until the class no longer changes (R42, R43, R77). What it
changes in the candidates and in the servo's state is handed to the alarm unit before anything that comes after, such as
the sample of R44 (R166). A change of class moves the servo at most out of HOLDOVER, so the fuel is never used up. -/
def settleSelection (t : Tables) : Nat → Live → Live
  | 0, v => v
  | n + 1, v =>
    let v := evaluate t v
    let c := deriveClass t v
    if c = v.ownClass then refreshAlarms t v else settleSelection t n (setClass t c v)

/-! ## Enabling and writes (R31) -/

/-- A candidate follows its enable: it enters DISABLED, or UNAVAILABLE from DISABLED; REF's input is cleared when it
ceases and its missing-second watch restarted when it begins (R31, R33). -/
def followEnable (t : Tables) (c : Cand) (v : Live) : Live :=
  let r := v.cands.get c
  match candEnabled t c, r.state with
  | false, .disabled => v
  | false, _ =>
    let v := v.mapCand c CandRec.disable
    if c = .ref then { v with refIn := { v.refIn with pending := none, expected := none, unusable := 0 } } else v
  | true, .disabled =>
    let v := v.mapCand c (fun r => { r with state := .unavailable })
    if c = .ref then { v with refIn := { v.refIn with watch := v.now } } else v
  | true, _ => v

/-- The effects of new CANDIDATE records, or of REF fitted: enabling, and a qualify timer that already stands at the
qualify time in force (R31), in record order (assumption 64). Priorities act through the evaluation that follows. -/
def candEffects (t : Tables) (v : Live) : Live :=
  let v := followEnable t .rev (followEnable t .fwd (followEnable t .ref v))
  promote t .rev (promote t .fwd (promote t .ref v))

end Sys2Proof.Machine
end

