-- ==== Sys2Proof/Machine/EpochEngine.lean ====
section
/-! DEFINITION. The epoch engine: origin roles and the active state, origination, arrival and forwarding, and the
standby's watches (chapter 6; the ring candidates' hearing of R37 to R40). -/

namespace Sys2Proof.Machine

/-! ## The active state (R104, R115, R117) -/

/-- The node becomes an active origin, and so a head (R104, R122). -/
def becomeActive (t : Tables) (v : Live) : Live :=
  becomeHead t { v with epoch := { v.epoch with active := true, takeover := none, revert := none } }

/-- The node ceases to be an active origin, and so a head (R104, R117, R122). -/
def ceaseActive (v : Live) : Live :=
  ceaseHead { v with epoch := { v.epoch with active := false, revert := none } }

/-- The takeover watch starts with its timer at 0 (R114). -/
def startTakeover (v : Live) : Live :=
  { v with epoch := { v.epoch with takeover := some (Timer.start v.now) } }

/-- The takeover time in ps (R113). -/
def takeoverReached (t : Tables) (v : Live) : Bool :=
  match v.epoch.takeover with
  | some tm => decide (secPs t.ring.takeover ≤ tm.elapsed v.now)
  | none => false

/-- Whether both conditions of R115 hold at a standby origin that is not active. -/
def takeoverDue (t : Tables) (v : Live) : Bool :=
  decide (originRole t = .standby) && !v.epoch.active && takeoverReached t v && decide (v.part = .running) &&
    decide (v.servo.state = .locked) && decide (v.selection = some .ref)

/-- Standby takeover, at the first instant at which both conditions hold (R115). -/
def takeoverCheck (t : Tables) (v : Live) : Live :=
  if takeoverDue t v then
    becomeActive t { v with epoch := { v.epoch with takeovers := bump v.epoch.takeovers } }
  else v

/-- The revert hold-off has been reached by the running revert watch (R117). -/
def revertReached (t : Tables) (v : Live) : Bool :=
  match v.epoch.revert with
  | some w => decide (secPs t.ring.revert ≤ interval w.start v.now)
  | none => false

/-- An active standby reverts: it ceases to be active, and its takeover watch starts again (R117). -/
def revertCheck (t : Tables) (v : Live) : Live :=
  if decide (originRole t = .standby) && v.epoch.active && revertReached t v then
    startTakeover (ceaseActive { v with epoch := { v.epoch with reverts := bump v.epoch.reverts } })
  else v

/-- Three epoch intervals in ps, at the rate in force (R38, R116). -/
def gapPs (t : Tables) : Int := 3 * (epochNs t.ring.rate : Int) * 1000

/-- Whether the revert watch's gap has passed (R116). -/
def revertGapOver (t : Tables) (v : Live) : Bool :=
  match v.epoch.revert with
  | some w => decide (gapPs t ≤ interval w.gapSince v.now)
  | none => false

/-- The origin role is derived afresh after a change of NODE or RING; `old` is the role before it (R103, R104, R114,
R117). Nothing is active before RUNNING. -/
def roleEffects (old new : OriginRole) (t : Tables) (v : Live) : Live :=
  if old = new ∨ v.part = .loading then v
  else
    let v := if v.epoch.active then ceaseActive v else v
    let v := { v with epoch := { v.epoch with takeover := none, revert := none } }
    match new with
    | .primary => becomeActive t v
    | .standby => startTakeover v
    | .none => v

/-! ## Origination (R105, R106) -/

/-- One originated EPOCH, formed unless the port's span is DOWN (R106). -/
def originateOn (t : Tables) (d : Side) (seq : Seq16) (v : Live) : Live :=
  if v.spanIs d .down then v
  else hand (.line d)
    (mkFrame t
      { ring := t.node.ringId, rev := d.outRev, looped := false, origin := t.node.id, sender := t.node.id,
        target := 255, hops := 0, seq := seq }
      (.epoch { time := toNs v.now.time, corr := 0, cls := v.ownClass, rank := (originRole t).rank.getD 0 })
      .origEpoch) v

/-- An origination: the sequence moves on, and an EPOCH goes east and then west, an order that R106 leaves open
(R106; assumption 69). -/
def originate (t : Tables) (v : Live) : Live :=
  let seq := v.epoch.origSeq + 1
  originateOn t .west seq (originateOn t .east seq { v with epoch := { v.epoch with origSeq := seq } })

/-- J is crossed: an active origin originates, and J moves to the following instant (R105). -/
def crossEpoch (t : Tables) (v : Live) : Live :=
  let j := v.epoch.j
  let v := if v.epoch.active then originate t v else v
  { v with epoch := { v.epoch with j := epochAfter t.ring.rate j } }

/-! ## What a ring candidate hears (R37 to R40) -/

/-- A heard EPOCH's entry added at the end of the list, or refreshed in its place (R38; assumption 63 for its place). -/
def hearOrigin (o : OriginHeard) (l : List OriginHeard) : List OriginHeard :=
  if l.any (fun x => x.id == o.id) then l.map (fun x => if x.id = o.id then o else x) else l ++ [o]

/-- The candidate hears an EPOCH: its list, its qualification, its preferred origin, and the sample where the origin
is preferred; the sample becomes the last sample (R37, R40). The answer says whether a sample was formed. -/
def hearEpoch (t : Tables) (c : Cand) (h : Header) (b : EpochBody) (theta : Int) (v : Live) : Bool × Live :=
  let o : OriginHeard :=
    { id := h.origin, rank := b.rank, cls := b.cls, hops := h.hops + 1, heardAt := v.now, gapSince := v.now }
  let v := v.mapCand c (fun r => { r with
    origins := hearOrigin o r.origins
    state := if r.state = .unavailable then .qualifying else r.state
    qual := if r.state = .unavailable then some (Timer.start v.now) else r.qual })
  let v := reviseRing t c v
  if (v.cands.get c).preferred = some h.origin then
    (true, v.mapCand c (fun r => { r with last := some (theta, v.ts.value.sec) }))
  else (false, v)

/-- A sample formed by a candidate is handed to the servo if its candidate is now SELECTED; the selection is evaluated
first (R44). -/
def deliverSample (t : Tables) (c : Cand) (theta : Int) (v : Live) : Live :=
  let v := settleSelection t 4 v
  if v.selection = some c then servoSample t theta v else v

/-- An origins-heard entry whose gap has passed is removed (R38). -/
def expireOrigin (t : Tables) (c : Cand) (id : Nat) (v : Live) : Live :=
  let keep := fun (o : OriginHeard) => !(o.id == id && decide (gapPs t ≤ interval o.gapSince v.now))
  reviseRing t c (v.mapCand c (fun r => { r with origins := r.origins.filter keep }))

/-- Entries removed whose ids the RING parameters no longer name (R38). A candidate that is DISABLED or UNAVAILABLE
has none. -/
def dropUnnamedOrigins (t : Tables) (c : Cand) (v : Live) : Live :=
  if (v.cands.get c).origins.all (fun o => namesOrigin t.ring o.id) then v
  else reviseRing t c (v.mapCand c (fun r => { r with origins := r.origins.filter (fun o => namesOrigin t.ring o.id) }))

/-! ## Arrival and forwarding (R107 to R111) -/

/-- θ of an EPOCH in ns (R109). -/
def epochOffset (rx : Stamp) (b : EpochBody) (df : Int) : Int :=
  divZero (wrapDiff rx.time.toPs ((b.time.toPs : Int) + b.corr + df)) 1000

/-- The standby's watches take an EPOCH of the primary (R114, R116). -/
def watchPrimary (t : Tables) (h : Header) (b : EpochBody) (v : Live) : Live :=
  if originRole t = .standby ∧ h.origin = t.ring.primary then
    if v.epoch.active then
      if b.cls.num ≤ v.ownClass.num then
        let start := match v.epoch.revert with
          | some w => w.start
          | none => v.now
        let w : RevertWatch := { start := start, lastQual := v.now, gapSince := v.now }
        { v with epoch := { v.epoch with revert := some w } }
      else v
    else if b.cls ≠ .q4 then startTakeover v
    else v
  else v

/-- The forward of an EPOCH out of the opposite line port, dropped at a DOWN span (R110). -/
def forwardEpoch (t : Tables) (d : Side) (rx : Stamp) (df : Int) (h : Header) (b : EpochBody) (v : Live) : Live :=
  if v.spanIs d.other .down then { v with epoch := { v.epoch with fwdDrops := bump v.epoch.fwdDrops } }
  else hand (.line d.other)
    (mkFrame t { h with sender := t.node.id, hops := h.hops + 1 } (.epoch b) (.fwdEpoch df rx)) v

/-- An EPOCH that passes R107: tested against the RING parameters, watched, forwarded, heard and sampled (R108). That
the watches take it before it is forwarded and heard, and that it is forwarded first, is assumption 20. -/
def epochPasses (t : Tables) (d : Side) (rx : Stamp) (h : Header) (b : EpochBody) (v : Live) : Live :=
  let df := ((v.span d).df).getD 0
  if namesOrigin t.ring h.origin = false then
    forwardEpoch t d rx df h b { v with epoch := { v.epoch with unknownOrigin := bump v.epoch.unknownOrigin } }
  else
    let v := forwardEpoch t d rx df h b (watchPrimary t h b v)
    if (v.cands.get d.cand).state = .disabled then v
    else
      let theta := epochOffset rx b df
      let (formed, v) := hearEpoch t d.cand h b theta v
      if formed then deliverSample t d.cand theta v else v

/-- An EPOCH claimed at a line port, checked in the order of R107. -/
def takeEpoch (t : Tables) (d : Side) (rx : Stamp) (h : Header) (b : EpochBody) (v : Live) : Live :=
  let e := v.epoch
  if v.spanIs d .up = false then { v with epoch := { e with notUp := bumpSide e.notUp d } }
  else if h.rev ≠ d.inRev then { v with epoch := { e with wrongDir := bumpSide e.wrongDir d } }
  else if h.origin = t.node.id then { v with epoch := { e with ownOrigin := bump e.ownOrigin } }
  else if h.hops = 31 then { v with epoch := { e with hopLimit := bump e.hopLimit } }
  else epochPasses t d rx h b v

/-- A change of the epoch rate in force: J is set again, and the gaps are counted afresh from this instant (R38, R105,
R116). -/
def rateEffects (t : Tables) (v : Live) : Live :=
  let restart := fun (r : CandRec) => { r with origins := r.origins.map (fun o => { o with gapSince := v.now }) }
  let v := v.mapCand .fwd restart
  let v := v.mapCand .rev restart
  let v := { v with epoch := { v.epoch with
    revert := v.epoch.revert.map (fun (w : RevertWatch) => { w with gapSince := v.now }) } }
  v.resetJ t

/-- Ids that the RING parameters no longer name leave the origins-heard and heads-heard lists (R38, R131, R142). -/
def dropUnnamed (t : Tables) (v : Live) : Live :=
  dropUnnamedHeads t (dropUnnamedOrigins t .rev (dropUnnamedOrigins t .fwd v))

/-- Whether a change of the RING table has a head derive its config states afresh: the generation or the member list has
changed (R144), and the node has completed a cycle as a head since the last reset, before which every config state is
absent (R151). Each completed cycle sets the current cycle time, and only a reset takes it away (R128, R140), so that it
tells whether a cycle has been completed (assumption 53). -/
def configsChange (t : Tables) (old : RingTable) (v : Live) : Bool :=
  v.epoch.active && v.roll.cycleTime.isSome &&
    (decide (old.gen ≠ t.ring.gen) || decide (old.members ≠ t.ring.members))

/-- The config states after a change of the RING table (R142, R144, R151). -/
def ringConfigs (t : Tables) (old : RingTable) (v : Live) : Live :=
  if configsChange t old v then deriveConfig t (decide (old.gen ≠ t.ring.gen)) v else v

/-- The effects of a change of the RING table, the role before it being `oldRole` (R113, R142, R147). They come in the
order in which they stand here (assumption 52); what the lists and the config states have changed is handed to the alarm
unit before the role and the roll clock are looked at (R166). -/
def ringEffects (t : Tables) (old : RingTable) (oldRole : OriginRole) (v : Live) : Live :=
  let v := refreshAlarms t (ringConfigs t old (dropUnnamed t v))
  let v := roleEffects oldRole (originRole t) t v
  let v := if old.rate = t.ring.rate then v else rateEffects t v
  let v := revertCheck t v
  if old.interval ≠ t.ring.interval ∧ rollTickDue t v then rollTick t v else v

end Sys2Proof.Machine
end

