-- ==== Sys2Proof/Machine/SpanUnit.lean ====
section
/-! DEFINITION. The span unit: probing, the reply wait, the span sample, the span states and the neighbour
(section 5.5). -/

namespace Sys2Proof.Machine

/-- A span takes a state; where it leaves UP, its ring candidate becomes UNAVAILABLE at once (R40, R101). -/
def setSpanState (d : Side) (st : SpanState) (v : Live) : Live :=
  let old := (v.span d).state
  let v := v.mapSpan d (fun s => { s with state := st })
  if old = .up ∧ st ≠ .up then loseInput d.cand v else v

/-- The record of a span that enters DOWN (R99). -/
def Span.toDown (s : Span) : Span :=
  { s with outstanding := none, learned := none, df := none, accepted := 0, timeoutRun := 0, mismatch := false,
           downs := bump s.downs }

/-- A span in PROBING or UP enters DOWN, and its conditions are handed on (R96, R99, R101). -/
def enterDown (t : Tables) (d : Side) (v : Live) : Live :=
  match (v.span d).state with
  | .down => v
  | _ => refreshAlarms t (setSpanState d .down (v.mapSpan d Span.toDown))

/-- A probe timeout: the run and the counter rise, and at a run of 3 the span enters DOWN (R96). For a probe lost unsent
an earlier probe in its reply wait stays outstanding, unless the span enters DOWN (assumption 68). -/
def probeTimeout (t : Tables) (d : Side) (v : Live) : Live :=
  let v := v.mapSpan d (fun s => { s with timeoutRun := min 3 (s.timeoutRun + 1), timeouts := bump s.timeouts })
  if (v.span d).timeoutRun = 3 then enterDown t d v else v

/-- The reply wait: 1,250,000 oscillator periods from t1 (R96). -/
def replyWait : Nat := 1250000

/-- Whether the reply wait of the outstanding probe has run out (R96). -/
def replyWaitOver (d : Side) (v : Live) : Bool :=
  match (v.span d).outstanding with
  | some o => decide (replyWait ≤ v.osc - o.since)
  | none => false

/-- The reply wait runs out (R96). -/
def replyTimedOut (t : Tables) (d : Side) (v : Live) : Live :=
  probeTimeout t d (v.mapSpan d (fun s => { s with outstanding := none }))

/-- Whether a queued frame is a SPAN-PROBE. -/
def isProbeFrame (q : QFrame) : Bool := q.frame.body.kind == 2

/-- A probe still unsent at the next interval start is withdrawn: an insert drop and a probe timeout (R95, step 2). -/
def withdrawStale (t : Tables) (d : Side) (v : Live) : Live :=
  if (v.port (.line d)).queue.any isProbeFrame then
    probeTimeout t d (insertDrop (.line d) (withdraw (.line d) isProbeFrame v))
  else v

/-- The SPAN-PROBE of an interval (R95, step 4; assumptions 6, 7 and 65 for the header items no rule gives). -/
def probeFrame (t : Tables) (d : Side) (seq : Seq16) (v : Live) : QFrame :=
  let o := Config.openHeader 2 seq.toNat v.osc
  mkFrame t
    { ring := t.node.ringId, rev := d.outRev, looped := false, origin := openId o.origin, sender := t.node.id,
      target := 255, hops := o.hops.val, seq := seq }
    (.probe seq) .probe

/-- A probe interval begins: the four steps of R95 in their order. -/
def beginInterval (t : Tables) (d : Side) (v : Live) : Live :=
  let v := v.mapSpan d (fun s => { s with fcsCount := 0 })
  let v := withdrawStale t d v
  if (v.port (.line d)).link = false then v
  else
    let v := if v.spanIs d .down then refreshAlarms t (setSpanState d .probing v) else v
    let seq := (v.span d).probeSeq + 1
    hand (.line d) (probeFrame t d seq v) (v.mapSpan d (fun s => { s with probeSeq := seq }))

/-- The probe clock starts: a probe interval begins now, and the next one second of oscillator time later (R95). -/
def startProbeClock (t : Tables) (d : Side) (v : Live) : Live :=
  beginInterval t d (v.mapSpan d (fun s => { s with nextProbe := some (v.osc + Reset.second) }))

/-- A SPAN-PROBE on a line port is answered in every span state (R97). -/
def answerProbe (t : Tables) (d : Side) (rx : Stamp) (seq : Seq16) (v : Live) : Live :=
  let o := Config.openHeader 3 seq.toNat v.osc
  let t2 := toNs rx.time
  hand (.line d)
    (mkFrame t
      { ring := t.node.ringId, rev := d.outRev, looped := false, origin := openId o.origin, sender := t.node.id,
        target := 255, hops := o.hops.val, seq := seq }
      (.reply seq t2 t2) (.reply rx)) v

/-! ## The neighbour and the sample (R98, R100) -/

/-- Whether the neighbour check fails (R100). -/
def neighbourFails (c : LineCfg) (s : Span) : Bool :=
  c.freeze && match c.neighbour, s.learned with
    | some n, some l => decide (n ≠ l)
    | _, _ => false

/-- The sender id of a matched reply is learned: a change makes d_f invalid and the count 0, and takes an UP span to
PROBING (R100). -/
def learnNeighbour (d : Side) (id : Nat) (v : Live) : Live :=
  match (v.span d).learned with
  | none => v.mapSpan d (fun s => { s with learned := some id })
  | some l =>
    if l = id then v
    else
      let v := v.mapSpan d (fun s => { s with learned := some id, df := none, accepted := 0 })
      if v.spanIs d .up then setSpanState d .probing v else v

/-- A PROBING span with 4 accepted samples and a passing neighbour check enters UP (R99). -/
def tryUp (c : LineCfg) (d : Side) (v : Live) : Live :=
  let s := v.span d
  if s.state = .probing ∧ 4 ≤ s.accepted ∧ neighbourFails c s = false then setSpanState d .up v else v

/-- The neighbour check and what follows from it (R100). -/
def neighbourCheck (t : Tables) (d : Side) (v : Live) : Live :=
  let c := t.port.line.get d
  let fails := neighbourFails c (v.span d)
  let v := v.mapSpan d (fun s => { s with mismatch := fails })
  let v := if fails then (if v.spanIs d .up then setSpanState d .probing v else v) else tryUp c d v
  refreshAlarms t v

/-- The largest round trip accepted, in ps (R98). -/
def maxRoundTrip : Int := 2000000000

/-- The round trip of a matched reply, in ps (R98). -/
def roundTrip (t1 t4 : Stamp) (t2 t3 : NsTime) : Int := interval t1 t4 - wrapDiff t3.toPs t2.toPs

/-- The filtered delay after one more sample (R98). -/
def filterDelay (df : Option Int) (d : Int) : Int :=
  match df with
  | none => d
  | some f => f + divZero (d - f) 8

/-- The sample of a matched reply, accepted or rejected (R98). -/
def spanSample (t : Tables) (d : Side) (rt : Int) (v : Live) : Live :=
  let c := t.port.line.get d
  if rt < 0 ∨ maxRoundTrip < rt then v.mapSpan d (fun s => { s with rejected := bump s.rejected })
  else
    let dd := max 0 (divZero rt 2 + c.asym)
    let v := v.mapSpan d (fun s => { s with
      df := some (filterDelay s.df dd), accepted := bump s.accepted, last := some (rt, dd) })
    refreshAlarms t (tryUp c d v)

/-- A SPAN-REPLY taken at a line port (R96, R98, R100). -/
def takeReply (t : Tables) (d : Side) (rx : Stamp) (sender : Nat) (seq : Seq16) (t2 t3 : NsTime) (v : Live) : Live :=
  match (v.span d).outstanding with
  | some o =>
    if o.seq = seq then
      let v := v.mapSpan d (fun s => { s with outstanding := none, timeoutRun := 0 })
      let v := neighbourCheck t d (learnNeighbour d sender v)
      spanSample t d (roundTrip o.t1 rx t2 t3) v
    else v.mapSpan d (fun s => { s with unmatched := bump s.unmatched })
  | none => v.mapSpan d (fun s => { s with unmatched := bump s.unmatched })

/-- The FCS count against the span error threshold (R93, R99). -/
def fcsCheck (t : Tables) (d : Side) (v : Live) : Live :=
  if (t.port.line.get d).errThreshold ≤ (v.span d).fcsCount then enterDown t d v else v

/-- One FCS error on a line port counts for the span's probe interval (R82, R99). -/
def spanFcsError (t : Tables) (d : Side) (v : Live) : Live :=
  fcsCheck t d (v.mapSpan d (fun s => { s with fcsCount := bump s.fcsCount }))

/-- The effects of a change of one line record: the asymmetry moves d_f, the threshold may take the span DOWN, and the
neighbour check is made afresh (R93, R100). -/
def lineEffects (t : Tables) (old new : LineCfg) (d : Side) (v : Live) : Live :=
  let v := v.mapSpan d (fun s => { s with df := s.df.map (fun f => max 0 (f + (new.asym - old.asym))) })
  neighbourCheck t d (fcsCheck t d v)


end Sys2Proof.Machine
end

