-- ==== Sys2Proof/Machine/Settle.lean ====
section
/-! DEFINITION. What follows from an event within the same step: the selection and the own class, the standby's
takeover, the alarm conditions, and the losses of frames that an owner was waiting for. -/

namespace Sys2Proof.Machine

/-- The fuel of the selection's evaluation: more than a change of class can use. -/
def selectionFuel : Nat := 4

/-- The selection is evaluated and the own class derived, a takeover that has become due is made, and every condition
reaches its point (R42, R77, R115, R166). -/
def settle (t : Tables) (v : Live) : Live :=
  refreshAlarms t (takeoverCheck t (settleSelection t selectionFuel v))

/-- The owner of a frame lost unsent takes the loss: a probe timeout, or a timeout of the ROLL (R95, R124). -/
def takeLoss (t : Tables) (l : Loss) (v : Live) : Live :=
  match l with
  | .probe d => probeTimeout t d v
  | .roll seq rev => rollLost t seq rev v

/-- The losses are worked off, each with what follows from it. -/
def workLosses (t : Tables) : Nat → Live → Live
  | 0, v => v
  | n + 1, v => match v.losses with
    | [] => v
    | l :: ls => workLosses t n (settle t (takeLoss t l { v with losses := ls }))

/-- The fuel of the losses: a probe on each side and two ROLL frames can be lost, and what follows from them can lose
a few more. -/
def lossFuel : Nat := 16

/-- An event brought to its end: everything that follows from it within the same step, and then the losses it has brought
(assumption 66). -/
def finish (t : Tables) (v : Live) : Live := workLosses t lossFuel (settle t v)

end Sys2Proof.Machine
end

