-- ==== Sys2Proof/Machine/Classify.lean ====
section
/-! DEFINITION. The ports' links, the receive checks, the classification of arrivals and the end of a transmission
(sections 5.1 to 5.3). -/

namespace Sys2Proof.Machine

/-! ## Links (R81) -/

/-- The losses of the frames an emptied insert queue held (R81). -/
def noteLostAll (p : Port) : List QFrame → Live → Live
  | [], v => v
  | q :: qs, v => noteLostAll p qs (noteLost false p q v)

/-- Whether an own frame is the response of a SOFT-RESTART. -/
def isRestartNote (n : Note) : Bool := decide (n = .restart)

/-- The response of a SOFT-RESTART cut off in its transmission is lost too (R81, R191). -/
def noteCut (p : Port) (s : Option Sending) (v : Live) : Live :=
  match s with
  | some (.own q) => if isRestartNote q.note then noteLost false p q v else v
  | some (.through _) => v
  | none => v

/-- One port when its link goes down: the frame in transmission is lost and the one being received discarded, uncounted,
the through buffer toward the port and its insert queue are emptied and counted, and a line port's link-lost flag is
set (R81). -/
def PortIO.cut (p : Port) (x : PortIO) : PortIO :=
  { x with
    link := false, arriving := none, sending := none, queue := [], through := []
    throughDrops := bumpBy x.throughDrops x.through.length
    insertDrops := bumpBy x.insertDrops x.queue.length
    linkLost := match p with
      | .line _ => true
      | _ => x.linkLost }

/-- A port's link goes down (R81, R99): the span is DOWN before a ROLL lost with the queue acts as a timeout, which the
rules leave open (assumption 66). -/
def takeLinkDown (t : Tables) (p : Port) (v : Live) : Live :=
  let io := v.port p
  if io.link = false then v
  else
    let v := noteCut p io.sending (noteLostAll p io.queue (v.mapPort p (PortIO.cut p)))
    match p with
    | .line d => enterDown t d v
    | _ => v

/-- A port's link comes up, and its arbiter begins granting (R81, R87). -/
def takeLinkUp (p : Port) (v : Live) : Live := grant p (v.mapPort p (fun x => { x with link := true }))

/-! ## The receive checks and classification (R82 to R86, R192, R193) -/

/-- What becomes of an arriving frame. -/
inductive Verdict where
  | overrun
  | short
  | fcs
  | silent
  | malformed
  | misdirected
  | through
  | claimed (f : Frame)
  deriving DecidableEq, Repr

/-- A frame of the vendor frame type on a line port (R83). -/
def classifyLine (ring : Nat) (p : List Byte) : Verdict :=
  if field 2 1 p ≠ ring then .through
  else match parseFrame p with
    | none => .malformed
    | some f => match f.body with
      | .notice _ => .misdirected
      | _ => .claimed f

/-- A frame of the vendor frame type on a site port (R84). -/
def classifySite (ring : Nat) (p : List Byte) : Verdict :=
  if field 2 1 p ≠ ring then .through
  else match parseFrame p with
    | none => .malformed
    | some f => match f.body with
      | .request _ => .claimed f
      | _ => .misdirected

/-- A frame of the vendor frame type on an access port (R85). -/
def classifyAccess (p : List Byte) : Verdict :=
  match parseFrame p with
  | none => .silent
  | some f => match f.body with
    | .probe _ => .claimed f
    | _ => .silent

/-- Whether a frame type counts as the vendor's: in LOADING the built-in default, and the NODE table's where it was
kept LOCKED-DOWN; in RUNNING the NODE table's (R83, R86). -/
def vendorType (t : Tables) (v : Live) (ft : BitVec 16) : Bool :=
  match v.part with
  | .loading => decide (ft = Config.defaultType) || (v.nodeKept && decide (ft = t.node.ftype))
  | .running => decide (ft = t.node.ftype)

/-- A checked frame classified by the rule for its port and the state of the part (R83 to R86), as the part stands at the
frame's end, also where the first byte came during LOADING (assumption 57). -/
def classify (t : Tables) (v : Live) (p : Port) (f : RawFrame) : Verdict :=
  if vendorType t v f.ftype then
    match v.part with
    | .loading => .silent
    | .running => match p with
      | .line _ => classifyLine t.node.ringId f.payload
      | .site _ => classifySite t.node.ringId f.payload
      | .access _ => classifyAccess f.payload
  else match p with
    | .access _ => .silent
    | _ => .through

/-- An arriving frame checked as an Ethernet frame, in the order of R82, and then classified. -/
def verdict (t : Tables) (v : Live) (p : Port) (f : RawFrame) : Verdict :=
  if 9600 < frameLength f then .overrun
  else if frameLength f < 64 then .short
  else if f.fcsOk = false then .fcs
  else classify t v p f

/-- Whether a port counts the errors of R82: LE and LW do. -/
def countsErrors : Port → Bool
  | .line _ => true
  | _ => false

/-- A frame discarded by the receive checks or at classification, with the counters that R82 to R85 name. -/
def discardFrame (t : Tables) (p : Port) (d : Verdict) (v : Live) : Live :=
  match d with
  | .overrun => if countsErrors p then v.mapPort p (fun x => { x with overrun := bump x.overrun }) else v
  | .short => if countsErrors p then v.mapPort p (fun x => { x with short := bump x.short }) else v
  | .fcs => match p with
    | .line s => spanFcsError t s (v.mapPort p (fun x => { x with fcs := bump x.fcs }))
    | _ => v
  | .malformed => v.mapPort p (fun x => { x with malformed := bump x.malformed })
  | .misdirected => v.mapPort p (fun x => { x with misdirected := bump x.misdirected })
  | _ => v

/-! ## The end of a transmission (R80, R87, R162, R191) -/

/-- An access EPOCH whose transmission ends is counted (R162). -/
def countEpochSent (p : Port) (b : Body) (v : Live) : Live :=
  match p with
  | .access i => if b.kind = 1 then v.mapAccess i (fun a => { a with sent := bump a.sent }) else v
  | .line _ => v
  | .site _ => v

/-- What the end of an own frame's transmission does for its owner: an access EPOCH is counted (R162), and the response
of a SOFT-RESTART lets the restart take effect (R191). -/
def ownSent (p : Port) (q : QFrame) (v : Live) : Live :=
  if isRestartNote q.note then { v with restartDue := true } else countEpochSent p q.frame.body v

/-- A port finishes sending: its owner learns of it, the space is freed, and the arbiter grants the next frame (R87). At
the end of a SOFT-RESTART response the grant comes before the restart empties the queues (assumption 58). -/
def takeSent (p : Port) (v : Live) : Live :=
  match (v.port p).sending with
  | none => v
  | some s =>
    let v := match s with
      | .own q => ownSent p q v
      | .through _ => v
    grant p (v.mapPort p (fun x => { x with sending := none }))

end Sys2Proof.Machine
end

