-- ==== Sys2Proof/Machine/RefUnit.lean ====
section
/-! DEFINITION. The REF input: announcements, pulses and missing seconds, and what they make of the REF record
(section 2.3). -/

namespace Sys2Proof.Machine

/-- What a second is judged to be (R34). -/
inductive Second where
  | usable (a : Announcement)
  | unusable
  | jump (a : Announcement)
  deriving DecidableEq, Repr

/-- A pulse judged with the announcement it is paired with: unpaired or invalid, then the sequence, then the receiver
code (R34). -/
def judgePulse (r : CandRec) (i : RefInput) : Second :=
  match i.pending with
  | none => .unusable
  | some a =>
    if a.valid = false then .unusable
    else if r.state ≠ .unavailable ∧ i.expected.isSome ∧ i.expected ≠ some a.sec then .jump a
    else if a.code.val ≤ 1 then .usable a
    else .unusable

/-- The seconds value after another, within the range of time values (R34). -/
def nextSecond (n : Nat) : Nat := (n + 1) % 1099511627776

/-- θ of a REF sample in ns: the local time at the pulse less the announced seconds with the cable delay (R35). -/
def refOffset (t : Tables) (now : TimeValue) (sec : Nat) : Int :=
  divZero (wrapDiff now.toPs ((sec : Int) * 1000000000000 + (t.cand.ref.cable : Int) * 1000)) 1000

/-- The class a usable receiver code gives: Q0 for code 0, Q1 for code 1 (R35). -/
def codeClass (code : Fin 4) : QClass := if code = 0 then .q0 else .q1

/-- A qualify timer that stands at the qualify time as a usable second is judged is taken first, with what follows from
it: by R36 a usable second leaves the same outcome in either order. -/
def takeQualified (t : Tables) (v : Live) : Live :=
  if (v.cands.get .ref).state = .qualifying ∧ qualified t .ref v then settle t (promote t .ref v) else v

/-- A usable second: the run ends, the sequence moves on, the record takes the class and the sample, and the sample is
handed on (R34, R35, R36, R44). -/
def usableSecond (t : Tables) (a : Announcement) (v : Live) : Live :=
  let v := takeQualified t v
  let theta := refOffset t v.ts.value a.sec
  let v := { v with refIn := { v.refIn with unusable := 0, expected := some (nextSecond a.sec) } }
  let v := v.mapCand .ref (fun r => { r with
    state := if r.state = .unavailable then .qualifying else r.state
    qual := if r.state = .unavailable then some (Timer.start v.now) else r.qual
    offered := codeClass a.code
    last := some (theta, v.ts.value.sec) })
  deliverSample t .ref theta v

/-- An unusable or missing second: expected seconds that are held move on, the run grows to at most 3, a QUALIFYING
timer restarts, and at a run of 3 the input is lost (R34, R36). -/
def unusableSecond (v : Live) : Live :=
  let run := min 3 (v.refIn.unusable + 1)
  let v := { v with refIn := { v.refIn with unusable := run, expected := v.refIn.expected.map nextSecond } }
  let v := v.mapCand .ref (fun r =>
    if r.state = .qualifying then { r with qual := some (Timer.start v.now) } else r)
  if run = 3 ∧ (v.cands.get .ref).state ≠ .unavailable then
    { loseInput .ref v with refIn := { v.refIn with expected := none } }
  else v

/-- A jump: counted, the sequence resumes on the announced count, and the record returns to QUALIFYING with its timer
at 0; no sample is formed (R34, R36). -/
def jumpSecond (a : Announcement) (v : Live) : Live :=
  let v := { v with refIn := { v.refIn with
    unusable := 0, expected := some (nextSecond a.sec), jumps := bump v.refIn.jumps } }
  v.mapCand .ref (fun r => { r with state := .qualifying, qual := some (Timer.start v.now) })

/-- Whether the REF input listens: RUNNING, and REF enabled (R31, R32). -/
def refListens (v : Live) : Bool := decide (v.part = .running) && decide ((v.cands.get .ref).state ≠ .disabled)

/-- An announcement becomes the pending one (R33). -/
def takeAnnouncement (a : Announcement) (v : Live) : Live :=
  if refListens v then { v with refIn := { v.refIn with pending := some a } } else v

/-- A pulse on REFP: it takes the pending announcement, restarts the missing-second watch, and is judged (R33, R34). -/
def takePulse (t : Tables) (v : Live) : Live :=
  if refListens v then
    let second := judgePulse (v.cands.get .ref) v.refIn
    let v := { v with refIn := { v.refIn with pending := none, watch := v.now } }
    match second with
    | .usable a => usableSecond t a v
    | .unusable => unusableSecond v
    | .jump a => jumpSecond a v
  else v

/-- Whether 1,100 ms have passed since the last pulse, the last missing second or the restart of the watch (R33). -/
def missingDue (v : Live) : Bool := refListens v && decide (1100000000000 ≤ interval v.refIn.watch v.now)

/-- A missing second declared: the pending announcement is discarded and the watch runs on from here (R33, R36). -/
def declareMissing (v : Live) : Live :=
  unusableSecond { v with refIn := { v.refIn with pending := none, watch := v.now } }

end Sys2Proof.Machine
end

