-- ==== Sys2Proof/Machine/ThermalUnit.lean ====
section
/-! DEFINITION. The thermal unit and the quality unit's tick: readings, zones, F_temp (chapter 3), and the holdover
estimate (R67). -/

namespace Sys2Proof.Machine

/-! ## F_temp (R52, R53) -/

/-- The lower edge of a band in sixteenths of a degree (R52). -/
def bandLow (k : Nat) : Int := -640 + 128 * (k : Int)

/-- The upper edge of a band in sixteenths of a degree; band 15 reaches 105 °C (R52). -/
def bandHigh (k : Nat) : Int := if k = 15 then 1680 else -512 + 128 * (k : Int)

/-- The length of a band's overlap with an interval (R53). -/
def overlap (k : Nat) (a b : Int) : Int := max 0 (min (bandHigh k) b - max (bandLow k) a)

/-- The sum of each gradient times its band's overlap with an interval, from band `k` on (R53). -/
def gradientSum (a b : Int) : Nat → List Int → Int
  | _, [] => 0
  | k, g :: gs => g * overlap k a b + gradientSum a b (k + 1) gs

/-- F_temp of a clamped temperature under the gradients in force (R53). -/
def fTempOf (grads : List Int) (t16 : Int) : Int :=
  if 384 < t16 then divZero (gradientSum 384 t16 0 grads) 16
  else if t16 < 384 then divZero (-(gradientSum t16 384 0 grads)) 16
  else 0

/-! ## Zones (R55, R56) -/

/-- The zone placed by plain comparison (R55). -/
def placeZone (c : ThermalTable) (t16 : Int) : Zone :=
  if t16 < 16 * c.ta then .cold
  else if t16 < 16 * c.tb then .normal
  else if t16 < 16 * c.tc then .warm
  else .hot

/-- Upward from WARM (R56). -/
def upFromWarm (c : ThermalTable) (t16 : Int) : Zone := if 16 * (c.tc + c.th) ≤ t16 then .hot else .warm

/-- Upward from NORMAL (R56). -/
def upFromNormal (c : ThermalTable) (t16 : Int) : Zone := if 16 * (c.tb + c.th) ≤ t16 then upFromWarm c t16 else .normal

/-- Upward from COLD (R56). -/
def upFromCold (c : ThermalTable) (t16 : Int) : Zone := if 16 * (c.ta + c.th) ≤ t16 then upFromNormal c t16 else .cold

/-- Downward to NORMAL and beyond (R56). -/
def downToNormal (c : ThermalTable) (t16 : Int) : Zone := if t16 < 16 * c.ta then .cold else .normal

/-- Downward to WARM and beyond (R56). -/
def downToWarm (c : ThermalTable) (t16 : Int) : Zone := if t16 < 16 * c.tb then downToNormal c t16 else .warm

/-- The zone after a good reading while one is placed (R56): where the reading crosses several thresholds, one move to the
last zone (assumption 62). -/
def moveZone (c : ThermalTable) (t16 : Int) : Zone → Zone
  | .cold => upFromCold c t16
  | .normal => if t16 < 16 * c.ta then .cold else upFromNormal c t16
  | .warm => if t16 < 16 * c.tb then downToNormal c t16 else upFromWarm c t16
  | .hot => if t16 < 16 * c.tc then downToWarm c t16 else .hot

/-! ## Readings (R47 to R50) -/

/-- Whether a raw reading lies in the sensor range, −55.0 °C to +125.0 °C (R48). -/
def inSensorRange (raw : Int) : Bool := decide (-880 ≤ raw) && decide (raw ≤ 2000)

/-- The seconds since the last good reading one reading later (R61). -/
def Thermal.noGood (h : Thermal) : Thermal := { h with sinceGood := h.sinceGood.map (fun n => min 65535 (n + 1)) }

/-- A good reading: the last temperature, then the zone, then F_temp (R48, R50, R54). -/
def goodReading (c : ThermalTable) (raw : Int) (h : Thermal) : Thermal :=
  let t16 := clampInt (-640) 1680 raw
  { h with
    sensor := .good, lastRaw := some raw, lastTemp := some t16, sinceGood := some 0
    zone := some (match h.zone with
      | none => placeZone c t16
      | some z => moveZone c t16 z)
    fTemp := fTempOf c.grads t16 }

/-- The sensor's answer at a reading instant judged; `h.next` is that instant, counted from the start (R48, R49). -/
def judgeReading (c : ThermalTable) (answer : Option Int) (h : Thermal) : Thermal :=
  match answer with
  | none => if h.next < 2 * Reset.second then h.noGood else { h with sensor := .fault }.noGood
  | some raw =>
    if inSensorRange raw then goodReading c raw h
    else { h with sensor := .fault, lastRaw := some raw }.noGood

/-- Whether the next reading instant has come (section 3.1). -/
def readingDue (v : Live) : Bool := decide (v.thermal.next ≤ v.osc)

/-- A reading instant: the reading is judged, the reading clock runs on, and F_total follows F_temp (R47, R54). -/
def takeReading (t : Tables) (answer : Option Int) (v : Live) : Live :=
  let h := judgeReading t.thermal answer v.thermal
  ({ v with thermal := { h with next := v.thermal.next + Reset.second } } : Live).recomputeF

/-! ## The holdover tick (R67) -/

/-- E from its parts: the aging term's product is exact, its division truncates, and the sum saturates (R67). -/
def estimate (e0 d a n : Nat) : Nat := min maxEstimate (e0 + d + a * n * n / 172800)

/-- Whether the holdover tick has come (R67). -/
def holdTickDue (v : Live) : Bool :=
  match v.hold.nextTick with
  | some n => decide (n ≤ v.osc)
  | none => false

/-- One holdover tick: t, then D, then E (R67); the class follows from the new E. -/
def holdTick (t : Tables) (v : Live) : Live :=
  let h := v.hold
  let n := min 4294967295 (h.t + 1)
  let d := min maxEstimate (h.d + driftAllowance t v)
  { v with hold := { h with
      t := n, d := d, e := estimate h.e0 d h.aging n
      nextTick := h.nextTick.map (fun k => k + Reset.second) } }

end Sys2Proof.Machine
end

