-- ==== Sys2Proof/Machine/TableRead.lean ====
section
/-! DEFINITION. What a READ returns: the eight writable tables and the ten read-only ones as entries of bytes (R178,
section 12.2; R25, R28, R61, R70, R94, R120, R139, R163, R175, R190). -/

namespace Sys2Proof.Machine

/-! ## Field encodings (section 12.2) -/

/-- A whole number, ppt, ps or ns: eight signed bytes. -/
def num (x : Int) : List Byte := beBytesInt 8 x

/-- A whole number from a natural. -/
def nat (n : Nat) : List Byte := num (n : Int)

/-- A two-valued item in one byte: 1 for set, yes, on, or holding. -/
def flag (b : Bool) : List Byte := byte (boolNat b)

/-- A class in one byte. -/
def cls (c : QClass) : List Byte := byte c.num

/-- An id or number that may be absent, in a writable table: 255 for absent. -/
def orAbsent (o : Option Nat) : List Byte := nat (o.getD 255)

/-- A record's fields, each a presence byte followed by the value where it is present. -/
def record (fs : List (Option (List Byte))) : List Byte :=
  fs.flatMap (fun f => match f with
    | none => byte 0
    | some x => byte 1 ++ x)

/-- A list of items: a count byte and the items. -/
def items (l : List (List Byte)) : List Byte := byte l.length ++ l.flatten

/-- Whole milliseconds of an interval in ps, saturating at 65,535. -/
def millis (x : Int) : Nat := min 65535 (x.toNat / 1000000000)

/-- Whole seconds of an interval in ps. -/
def wholeSeconds (x : Int) : Nat := x.toNat / 1000000000000

/-! ## Codes of enumerated fields, from 0 in the order of the specifying rule -/

def roleCode : NodeRole → Nat
  | .primary => 0
  | .standby => 1
  | .member => 2

def noticeCode : NoticePorts → Nat
  | .se => 0
  | .sw => 1
  | .both => 2
  | .none => 3

def modeCode : AccessMode → Nat
  | .off => 0
  | .frames => 1
  | .pulse => 2
  | .both => 3

def lossCode : LossBehaviour → Nat
  | .continue => 0
  | .mark => 1
  | .squelch => 2

def severityCode : Severity → Nat
  | .critical => 0
  | .major => 1
  | .minor => 2
  | .warning => 3

def candStateCode : CandState → Nat
  | .disabled => 0
  | .unavailable => 1
  | .qualifying => 2
  | .available => 3
  | .selected => 4

def originRoleCode : OriginRole → Nat
  | .primary => 0
  | .standby => 1
  | .none => 2

def spanStateCode : SpanState → Nat
  | .down => 0
  | .probing => 1
  | .up => 2

def presenceCode : Presence → Nat
  | .present => 0
  | .silent => 1
  | .unknown => 2

def configStateCode : ConfigState → Nat
  | .unseen => 0
  | .mismatch => 1
  | .inSync => 2
  | .pending => 3

def outcomeCode : RollOutcome → Nat
  | .returned => 0
  | .looped => 1
  | .timedOut => 2

def pointStateCode : PointState → Nat
  | .clear => 0
  | .raising => 1
  | .raised => 2
  | .clearing => 3

def sensorCode : SensorState → Nat
  | .starting => 0
  | .good => 1
  | .fault => 2

def zoneCode : Option Zone → Nat
  | some .cold => 0
  | some .normal => 1
  | some .warm => 2
  | some .hot => 3
  | none => 4

def accessStateCode : AccessState → Nat
  | .off => 0
  | .deliver => 1
  | .degraded => 2
  | .squelched => 3

def lockCode : Lock → Nat
  | .opened => 0
  | .locked => 1
  | .lockedDown => 2

def commitResultCode : CommitResult → Nat
  | .verified => 0
  | .mismatch => 1
  | .interrupted => 2

/-- A link state: up or down (R81). -/
def linkCode (up : Bool) : Nat := if up then 0 else 1

/-! ## The writable tables -/

/-- The NODE table's entries (R179). -/
def nodeEntries (n : NodeTable) : List (List Byte) :=
  [nat n.id, nat n.ringId, byte (roleCode n.role), flag n.refFitted, nat n.ftype.toNat, beBytes 6 n.group.toNat,
   byte (noticeCode n.notice), flag n.ringGuard, nat n.relayTimeout, beBytes 6 n.serial.toNat]

/-- The RING table's entries (R141). -/
def ringEntries (r : RingTable) : List (List Byte) :=
  [nat r.gen, nat r.rate, nat r.interval, nat r.timeout, nat r.primary, orAbsent r.standby, nat r.takeover,
   nat r.revert, items (r.members.map byte)]

/-- A line record (R93). -/
def lineRecord (c : LineCfg) : List Byte :=
  record [some (orAbsent c.neighbour), some (flag c.freeze), some (num c.asym), some (nat c.errThreshold)]

/-- An access record (R152). -/
def accessRecord (c : AccessCfg) : List Byte :=
  record [some (byte (modeCode c.mode)), some (nat c.rate), some (nat c.advance), some (cls c.floor),
    some (byte (lossCode c.loss)), some (nat c.restore)]

/-- The PORT table's records (R93, R152). -/
def portEntries (p : PortTable) : List (List Byte) :=
  [lineRecord p.line.east, lineRecord p.line.west, accessRecord p.access.a0, accessRecord p.access.a1,
   accessRecord p.access.a2, accessRecord p.access.a3]

/-- A CANDIDATE record; only REF's has the cable delay (R27). -/
def candRecord (withCable : Bool) (c : CandCfg) : List Byte :=
  record ([some (flag c.enabled), some (nat c.priority), some (nat c.qualify)] ++
    if withCable then [some (nat c.cable)] else [])

/-- The CANDIDATE table's records (R27). -/
def candEntries (c : Trio CandCfg) : List (List Byte) :=
  [candRecord true c.ref, candRecord false c.fwd, candRecord false c.rev]

/-- The SERVO table's entries (R12). -/
def servoEntries (c : ServoTable) : List (List Byte) :=
  [nat c.n, nat c.gate, nat c.stepThr, nat c.lockThr, nat c.unlockThr, nat c.kp, nat c.ki, nat c.limit]

/-- The THERMAL table's entries (R51). -/
def thermalEntries (c : ThermalTable) : List (List Byte) :=
  c.grads.map num ++ [num c.ta, num c.tb, num c.tc, num c.th, nat c.dCold, nat c.dNormal, nat c.dWarm, nat c.dHot,
    nat c.aging]

/-- The QUALITY table's entries (R73). -/
def qualityEntries (c : QualityTable) : List (List Byte) := [nat c.limit1, nat c.limit2, nat c.base]

/-- An ALARM-PROFILE record (R167). -/
def alarmRecord (c : AlarmCfg) : List Byte :=
  record [some (byte (severityCode c.severity)), some (flag c.report), some (nat c.raiseSoak), some (nat c.clearSoak)]

/-- The entries of a writable table. -/
def writableEntries (t : Tables) : TableName → List (List Byte)
  | .node => nodeEntries t.node
  | .ring => ringEntries t.ring
  | .port => portEntries t.port
  | .cand => candEntries t.cand
  | .servo => servoEntries t.servo
  | .thermal => thermalEntries t.thermal
  | .quality => qualityEntries t.quality
  | .alarm => t.alarm.map alarmRecord

/-! ## The read-only tables -/

/-- TIME (R25). -/
def timeRecord (v : Live) : List Byte :=
  let s := v.servo
  record [some (encodeTime (toNs v.ts.value)), some (num s.fServo), some (num v.thermal.fTemp), some (num v.ts.fTotal),
    some (num s.integ), some (byte s.state.code), some (num s.lastTheta), some (nat s.queue.length),
    some (nat s.lockRun), some (nat s.unlockRun), some (nat s.skipRun), some (flag s.ungated)]

/-- An entry of an origins-heard list (R38). -/
def originItem (o : OriginHeard) : List Byte :=
  nat o.id ++ nat o.rank ++ cls o.cls ++ nat o.hops ++ encodeTime (toNs o.heardAt.time)

/-- The qualify timer in whole seconds; 0 outside QUALIFYING (R28). -/
def qualifySeconds (now : Stamp) (r : CandRec) : Nat :=
  match r.qual with
  | some tm => wholeSeconds (tm.elapsed now)
  | none => 0

/-- A candidate's status record: the items of all records, with those of the ring or of REF in their places (R28). A
last sample beyond eight signed bytes is written modulo 2^64 (assumption 47). -/
def candStatus (v : Live) (c : Cand) : List Byte :=
  let r := v.cands.get c
  let last := r.last.map (fun x => num x.1 ++ nat x.2)
  let ring := [r.hops.map nat, r.preferred.map nat, some (items (r.origins.map originItem))]
  let ref := [some (nat v.refIn.unusable), v.refIn.expected.map nat]
  record ([some (byte (candStateCode r.state)), some (cls r.offered)] ++ (if c = .ref then [] else ring) ++
    [last, some (nat (qualifySeconds v.now r))] ++ if c = .ref then ref else [])

/-- The place of a candidate in the fixed order, as an enumerated value. -/
def candCode : Cand → Nat
  | .ref => 0
  | .fwd => 1
  | .rev => 2

/-- The revert watch: not running, or running with its elapsed ms (R120). -/
def revertItem (now : Stamp) (w : Option RevertWatch) : List Byte :=
  match w with
  | none => byte 0 ++ byte 0
  | some w => byte 1 ++ byte 1 ++ nat (millis (interval w.start now))

/-- The origin status (R120). -/
def originStatus (t : Tables) (v : Live) : List Byte :=
  let role := originRole t
  let e := v.epoch
  record [some (byte (originRoleCode role)), some (flag e.active), role.rank.map nat, some (nat t.ring.rate),
    some (nat e.origSeq.toNat),
    (if role = .standby ∧ e.active = false then e.takeover.map (fun tm => nat (millis (tm.elapsed v.now))) else none),
    (if role = .standby ∧ e.active then some (revertItem v.now e.revert) else none),
    v.manual.map (fun c => byte (candCode c))]

/-- A span's status (R94). -/
def spanStatus (v : Live) (d : Side) : List Byte :=
  let s := v.span d
  let io := v.port (.line d)
  record [some (byte (spanStateCode s.state)), s.learned.map nat, s.df.map num,
    s.last.map (fun x => num x.1 ++ num x.2), some (nat s.accepted), some (nat s.timeoutRun), some (nat s.fcsCount),
    some (nat s.probeSeq.toNat), s.outstanding.map (fun o => nat o.seq.toNat ++ encodeTime (toNs o.t1.time)),
    some (flag s.mismatch), some (byte (linkCode io.link)), some (flag io.linkLost)]

/-- An item kept at a head only. -/
def headOnly (v : Live) (x : Option (List Byte)) : Option (List Byte) := if v.epoch.active then x else none

/-- A ring map entry (R136). -/
def mapRecord (t : Tables) (v : Live) (i : Nat) (e : MapEntry) : List Byte :=
  let pos := posOf i t.ring.members
  record [some (flag pos.isSome), pos.map nat, some (byte (presenceCode e.presence)),
    e.slot.map (fun s => encodeSlot (some s)), headOnly v (some (nat e.miss)),
    headOnly v (e.mergeRev.map (fun r => byte (boolNat r))), headOnly v (e.mergeGen.map nat),
    headOnly v (e.config.map (fun c => byte (configStateCode c)))]

/-- An entry of the heads-heard list (R139). -/
def headItem (now : Stamp) (h : HeadHeard) : List Byte :=
  nat h.id ++ nat h.rank ++ nat ((interval h.heardAt now).toNat / 1000000000)

/-- The ring map's summary (R139). At a member that has copied no ROLL yet the roll sequence is absent, as the head
generation and the sets are (assumption 49 for the sequence). A row that names several items gives a field for each, the
two outcomes before the two loop points (assumption 59). DESIGN CHOICE: the reverse outcome of a cycle that sent no
reverse ROLL is absent, as is the loop point of an outcome other than LOOPED (assumption 73). -/
def mapSummary (t : Tables) (v : Live) : List Byte :=
  let r := v.roll
  let head := v.epoch.active
  let sets := fun (s : BitVec 32) => beBytes 4 s.toNat
  let viewOr := fun (own : List Byte) (f : View → List Byte) => if head then some own else r.view.map f
  record [some (flag head), some (byte r.status.code),
    headOnly v (r.fwd.map (fun x => byte (outcomeCode x.outcome))),
    headOnly v (r.rev.map (fun x => byte (outcomeCode x.outcome))),
    headOnly v ((r.fwd.bind (fun x => x.loopId)).map nat), headOnly v ((r.rev.bind (fun x => x.loopId)).map nat),
    viewOr (nat r.seq.toNat) (fun w => nat w.seq.toNat), some (items (r.heads.map (headItem v.now))),
    (preferredHead v).map nat, headOnly v (r.cycleTime.map nat), headOnly v (r.cycleMin.map nat),
    headOnly v (r.cycleMax.map nat), some (flag r.duplicate.isSome), viewOr (nat t.ring.gen) (fun w => nat w.headGen),
    viewOr (sets (silentSet v)) (fun w => sets w.silent), viewOr (sets (mismatchSet v)) (fun w => sets w.mismatch),
    viewOr (sets (pendingSet v)) (fun w => sets w.pending)]

/-- An alarm point's record (R175). -/
def pointRecord (osc i : Nat) (p : Point) : List Byte :=
  record [some (byte (pointKind i).1), some (nat (pointKind i).2), some (byte (pointStateCode p.state)),
    some (flag p.cond), some (nat (match p.soak with
      | some since => (osc - since) / 12500000
      | none => 0)),
    p.severity.map (fun s => byte (severityCode s)), some (nat p.raises)]

/-- How many points stand raised at a severity (R175). -/
def raisedAt (ps : List Point) (s : Severity) : Nat :=
  (ps.filter (fun p => p.isRaised && decide (p.severity = some s))).length

/-- The summary record of ALARMS (R175). -/
def alarmSummary (a : Alarms) : List Byte :=
  record [some (byte (summaryCode a.summary)),
    some (nat (raisedAt a.points .warning) ++ nat (raisedAt a.points .minor) ++ nat (raisedAt a.points .major) ++
      nat (raisedAt a.points .critical))]

/-- A record of the alarm history (R175). -/
def historyRecord (r : AlarmRecord) : List Byte :=
  record [some (byte r.kind), some (nat r.inst), some (byte (boolNat r.cleared)), some (byte (severityCode r.severity)),
    some (nat r.time)]

/-- A run of whole-number fields, all present. -/
def counters (l : List Nat) : List (Option (List Byte)) := l.map (fun n => some (nat n))

/-- A value of each of LE and LW. -/
def ofLines (v : Live) (f : PortIO → Nat) : List Nat := [f v.io.line.east, f v.io.line.west]

/-- A value of each of SE and SW. -/
def ofSites (v : Live) (f : PortIO → Nat) : List Nat := [f v.io.site.east, f v.io.site.west]

/-- A value of each access port. -/
def ofAccess {α : Type} (q : Quad α) (f : α → Nat) : List Nat := [f q.a0, f q.a1, f q.a2, f q.a3]

/-- A value of each side of a pair. -/
def ofPair {α : Type} (p : Pair α) (f : α → Nat) : List Nat := [f p.east, f p.west]

/-- The port interfaces' counters (R92), with the link-lost flags after them (R178). -/
def portCounters (v : Live) : List Byte :=
  let both := fun (f : PortIO → Nat) => ofLines v f ++ ofSites v f
  record (counters (ofLines v (fun x => x.fcs) ++ ofLines v (fun x => x.short) ++ ofLines v (fun x => x.overrun) ++
      both (fun x => x.malformed) ++ both (fun x => x.misdirected) ++ both (fun x => x.insertDrops) ++
      ofAccess v.io.access (fun x => x.insertDrops) ++
      [v.io.site.east.throughDrops, v.io.line.east.throughDrops, v.io.site.west.throughDrops,
        v.io.line.west.throughDrops]) ++
    [some (flag v.io.line.east.linkLost), some (flag v.io.line.west.linkLost)])

/-- The epoch engine's counters (R119). -/
def epochCounters (e : Epoch) : List Byte :=
  record (counters (ofPair e.notUp id ++ ofPair e.wrongDir id ++
    [e.ownOrigin, e.hopLimit, e.unknownOrigin, e.fwdDrops, e.takeovers, e.reverts]))

/-- The roll engine's counters (R139, then R151). -/
def rollCounters (r : Roll) : List Byte :=
  record (counters ([r.rollTimeouts, r.lateRolls, r.loopSwitches, r.unknownHead] ++ ofPair r.wrongDir id ++
    [r.ownHead, r.hopLimit, r.loopDrops, r.configSent, r.configDiscards, r.configDrops, r.configDeferred,
      r.configRefused]))

/-- The relay table entries in use. -/
def relaysInUse (m : Mgmt) : Nat := (m.relays.filter (fun r => r.entry.isSome)).length

/-- The management unit's record (R190). -/
def mgmtCounters (s : State) : List Byte :=
  let m := s.live.mgmt
  let lock := fun (n : TableName) => some (byte (lockCode (s.locks.get n)))
  record ([lock .node, lock .ring, lock .port, lock .cand, lock .servo, lock .thermal, lock .quality, lock .alarm,
    some (flag s.live.guard), some (byte (boolNat s.store.commit.isSome)), some (flag s.store.validAtLoad),
    s.store.lastCommit.map (fun r => byte (commitResultCode r)), some (nat (relaysInUse m))] ++
    counters [m.executed, m.relayed, m.discards, m.drops, m.late])

/-- COUNTERS, one record for each owner (R178). -/
def counterRecords (s : State) : List (List Byte) :=
  let v := s.live
  [record (counters [v.servo.phaseSteps, v.servo.gated, v.servo.skipped, v.refIn.jumps]),
   portCounters v,
   record (counters (ofPair v.spans (fun x => x.timeouts) ++ ofPair v.spans (fun x => x.unmatched) ++
     ofPair v.spans (fun x => x.rejected) ++ ofPair v.spans (fun x => x.downs))),
   epochCounters v.epoch,
   rollCounters v.roll,
   record (counters (ofAccess v.access (fun x => x.sent) ++ ofAccess v.access (fun x => x.replies) ++
     ofAccess v.access (fun x => x.unanswered))),
   record (counters (ofPair v.alarms.notices id)),
   mgmtCounters s]

/-- THERMAL-STATUS (R61). -/
def thermalStatus (t : Tables) (v : Live) : List Byte :=
  let h := v.thermal
  record [some (byte (sensorCode h.sensor)), h.lastRaw.map num, h.lastTemp.map num, h.sinceGood.map nat,
    some (byte (zoneCode h.zone)), some (num h.fTemp), some (nat (driftAllowance t v))]

/-- ACCESS-STATUS (R163). -/
def accessStatus (t : Tables) (v : Live) (i : Fin 4) : List Byte :=
  let c := t.port.access.get i
  let a := v.access.get i
  record [some (byte (modeCode c.mode)), some (cls c.floor), some (byte (lossCode c.loss)),
    some (byte (accessStateCode a.state)),
    some (nat (match a.timer with
      | some tm => min 600 (wholeSeconds (tm.elapsed v.now))
      | none => 0)),
    some (flag a.timer.isSome), some (byte (linkCode (v.port (.access i)).link)), some (nat a.epochSeq.toNat),
    a.lastClass.map cls, a.lastPulse.map nat, some (flag (decide (a.state = .squelched)))]

/-- The summary of HOLDOVER (R70). -/
def holdSummary (t : Tables) (v : Live) : List Byte :=
  let h := v.hold
  let n := v.servo.history.length
  record [some (byte v.servo.state.code), some (nat n),
    (if 16 ≤ n then some (num (historyMean t.servo v.servo.history)) else none), h.fHold.map num, some (nat h.t),
    some (nat h.e0), some (nat h.d), some (nat h.e), some (nat (h.e / 1000)), some (nat h.aging),
    some (nat (driftAllowance t v)), some (cls v.ownClass)]

/-- The records of the ring map from index `i` on. -/
def mapRecords (t : Tables) (v : Live) : Nat → List MapEntry → List (List Byte)
  | _, [] => []
  | i, e :: es => mapRecord t v i e :: mapRecords t v (i + 1) es

/-- The records of the alarm points from index `i` on. -/
def pointRecords (osc : Nat) : Nat → List Point → List (List Byte)
  | _, [] => []
  | i, p :: ps => pointRecord osc i p :: pointRecords osc (i + 1) ps

/-- The writable table of an id (R178). -/
def tableOfId : Nat → Option TableName
  | 1 => some .node
  | 2 => some .ring
  | 3 => some .port
  | 4 => some .cand
  | 5 => some .servo
  | 6 => some .thermal
  | 7 => some .quality
  | 8 => some .alarm
  | _ => none

/-- The values of a read-only table by its id (R178). -/
def readOnlyEntries (s : State) (id : Nat) : Option (List (List Byte)) :=
  let t := s.tables
  let v := s.live
  match id with
  | 16 => some [timeRecord v]
  | 17 => some [candStatus v .ref, candStatus v .fwd, candStatus v .rev, originStatus t v]
  | 18 => some [spanStatus v .east, spanStatus v .west]
  | 19 => some (mapRecords t v 0 v.roll.map ++ [mapSummary t v])
  | 20 => some (pointRecords v.osc 0 v.alarms.points ++ [alarmSummary v.alarms])
  | 21 => some (record (counters [v.alarms.history.length, v.alarms.overwrites]) ::
      v.alarms.history.map historyRecord)
  | 22 => some (counterRecords s)
  | 23 => some [thermalStatus t v]
  | 24 => some (accessPorts.map (accessStatus t v))
  | 25 => some (holdSummary t v :: v.servo.history.map (fun x => record [some (num x)]))
  | _ => none

/-- The values of a table by its id, in index order; none where the id names no table (R178). -/
def tableEntries (s : State) (id : Nat) : Option (List (List Byte)) :=
  match tableOfId id with
  | some n => some (writableEntries s.tables n)
  | none => readOnlyEntries s id

/-- The first entries of a run, as many as are asked for and as fit in a number of bytes (R182). -/
def takeEntries : Nat → Nat → Nat → List (List Byte) → List Entry
  | 0, _, _, _ => []
  | _ + 1, _, _, [] => []
  | n + 1, room, i, x :: xs =>
    if 4 + x.length ≤ room then { index := i, value := x } :: takeEntries n (room - (4 + x.length)) (i + 1) xs
    else []

/-- The bytes of a response's header and fixed fields (section 12.2). -/
def responseFixed (relay : Option RelayFields) : Nat := 12 + if relay.isSome then 10 else 6

/-- The entries a READ is served (R182). -/
def serveEntries (relay : Option RelayFields) (first count : Nat) (l : List (List Byte)) : List Entry :=
  takeEntries count (1500 - responseFixed relay) first (l.drop first)

end Sys2Proof.Machine
end

