-- ==== Sys2Proof/Machine/TableWrite.lean ====
section
/-! DEFINITION. What a WRITE makes of its table: the fields read from their encodings, clamped or refused, and the
checks on the table as it would stand after the write (R12, R27, R51, R57, R73, R74, R93, R141, R142, R152, R167,
R179, R181, R182). -/

namespace Sys2Proof.Machine

/-! ## Fields read from their encodings (section 12.2); none is BAD-VALUE -/

/-- A whole number of eight signed bytes. -/
def readNum (l : List Byte) : Option Int := if l.length = 8 then some (beInt l) else none

/-- A whole number clamped to a range of naturals. -/
def readClamped (lo hi : Nat) (l : List Byte) : Option Nat := (readNum l).map (fun x => clampNat lo hi x)

/-- A whole number clamped to a range. -/
def readClampedInt (lo hi : Int) (l : List Byte) : Option Int := (readNum l).map (fun x => clampInt lo hi x)

/-- A whole number from 0 to `hi`, refused outside it. -/
def readBelow (hi : Nat) (l : List Byte) : Option Nat :=
  match readNum l with
  | some x => if 0 ≤ x ∧ x ≤ (hi : Int) then some x.toNat else none
  | none => none

/-- A node id, or absent by 255. -/
def readIdOrAbsent (l : List Byte) : Option (Option Nat) :=
  match readBelow 255 l with
  | some n => if n ≤ 31 then some (some n) else if n = 255 then some none else none
  | none => none

/-- One byte. -/
def readByte (l : List Byte) : Option Nat := if l.length = 1 then some (beNat l) else none

/-- A set-or-clear field. -/
def readFlag (l : List Byte) : Option Bool :=
  match readByte l with
  | some 0 => some false
  | some 1 => some true
  | _ => none

def readRole (l : List Byte) : Option NodeRole :=
  match readByte l with
  | some 0 => some .primary
  | some 1 => some .standby
  | some 2 => some .member
  | _ => none

def readNotice (l : List Byte) : Option NoticePorts :=
  match readByte l with
  | some 0 => some .se
  | some 1 => some .sw
  | some 2 => some .both
  | some 3 => some .none
  | _ => none

def readMode (l : List Byte) : Option AccessMode :=
  match readByte l with
  | some 0 => some .off
  | some 1 => some .frames
  | some 2 => some .pulse
  | some 3 => some .both
  | _ => none

def readLoss (l : List Byte) : Option LossBehaviour :=
  match readByte l with
  | some 0 => some .continue
  | some 1 => some .mark
  | some 2 => some .squelch
  | _ => none

def readSeverity (l : List Byte) : Option Severity :=
  match readByte l with
  | some 0 => some .critical
  | some 1 => some .major
  | some 2 => some .minor
  | some 3 => some .warning
  | _ => none

/-- A quality floor: Q4 is clamped to Q3 (R152); a byte above 4 is no class and is refused (R181; assumption 60). -/
def readFloor (l : List Byte) : Option QClass :=
  match readByte l with
  | some 0 => some .q0
  | some 1 => some .q1
  | some 2 => some .q2
  | some 3 => some .q3
  | some 4 => some .q3
  | _ => none

/-- An EPOCH rate: clamped to 1 to 16, then rounded down to 1, 2, 4, 8 or 16 (R141, R152). -/
def roundRate (n : Nat) : Nat := if n < 2 then 1 else if n < 4 then 2 else if n < 8 then 4 else if n < 16 then 8 else 16

def readRate (l : List Byte) : Option Nat := (readClamped 1 16 l).map roundRate

/-- A 48-bit group address: its group bit is set (R179). -/
def readGroup (l : List Byte) : Option Word48 :=
  if l.length = 6 ∧ (field 0 1 l).testBit 0 then some (BitVec.ofNat 48 (beNat l)) else none

/-- A list of ids: a count byte and one byte for each. -/
def readIds (l : List Byte) : Option (List Nat) :=
  if l.length = 1 + field 0 1 l then some ((l.drop 1).map (fun b => b.toNat)) else none

/-- The fields of a record of fixed lengths, each with its presence byte, filling the value exactly. -/
def readFields : List Nat → List Byte → Option (List (Option (List Byte)))
  | [], l => if l = [] then some [] else none
  | n :: ns, l =>
    match l with
    | [] => none
    | b :: rest =>
      if b = 0 then (readFields ns rest).map (fun r => none :: r)
      else if b = 1 ∧ n ≤ rest.length then (readFields ns (rest.drop n)).map (fun r => some (rest.take n) :: r)
      else none

/-- A field of a record: a value read where it is present, the running value otherwise (R178). -/
def readOr {α : Type} (f : List Byte → Option α) (old : α) (o : Option (List Byte)) : Option α :=
  match o with
  | some l => f l
  | none => some old

/-! ## Entries and records written -/

/-- A NODE entry; entry 9 refuses the write (R179). -/
def setNode (n : NodeTable) (i : Nat) (l : List Byte) : Option NodeTable :=
  match i with
  | 0 => (readBelow 31 l).map (fun x => { n with id := x })
  | 1 => (readBelow 255 l).map (fun x => { n with ringId := x })
  | 2 => (readRole l).map (fun x => { n with role := x })
  | 3 => (readFlag l).map (fun x => { n with refFitted := x })
  | 4 => (readBelow 65535 l).map (fun x => { n with ftype := BitVec.ofNat 16 x })
  | 5 => (readGroup l).map (fun x => { n with group := x })
  | 6 => (readNotice l).map (fun x => { n with notice := x })
  | 7 => (readFlag l).map (fun x => { n with ringGuard := x })
  | 8 => (readClamped 20 2000 l).map (fun x => { n with relayTimeout := x })
  | _ => none

/-- A RING entry; the value of entry 0 is not used, and the roll timeout is clamped after the write (R141, R142). -/
def setRing (r : RingTable) (i : Nat) (l : List Byte) : Option RingTable :=
  match i with
  | 0 => (readNum l).map (fun _ => r)
  | 1 => (readRate l).map (fun x => { r with rate := x })
  | 2 => (readClamped 10 1000 l).map (fun x => { r with interval := x })
  | 3 => (readClamped 1 5000 l).map (fun x => { r with timeout := x })
  | 4 => (readBelow 31 l).map (fun x => { r with primary := x })
  | 5 => (readIdOrAbsent l).map (fun x => { r with standby := x })
  | 6 => (readClamped 1 60 l).map (fun x => { r with takeover := x })
  | 7 => (readClamped 1 300 l).map (fun x => { r with revert := x })
  | 8 => (readIds l).map (fun x => { r with members := x })
  | _ => none

/-- The span fields of a line record (R93). -/
def setLine (c : LineCfg) (l : List Byte) : Option LineCfg :=
  match readFields [8, 1, 8, 8] l with
  | some [a, b, d, e] => do
    let neighbour ← readOr readIdOrAbsent c.neighbour a
    let freeze ← readOr readFlag c.freeze b
    let asym ← readOr (readClampedInt (-1000000) 1000000) c.asym d
    let thr ← readOr (readClamped 1 1000) c.errThreshold e
    some { neighbour := neighbour, freeze := freeze, asym := asym, errThreshold := thr }
  | _ => none

/-- The fields of an access record (R152). -/
def setAccess (c : AccessCfg) (l : List Byte) : Option AccessCfg :=
  match readFields [1, 8, 8, 1, 1, 8] l with
  | some [a, b, d, e, f, g] => do
    let mode ← readOr readMode c.mode a
    let rate ← readOr readRate c.rate b
    let advance ← readOr (readClamped 0 100000) c.advance d
    let floor ← readOr readFloor c.floor e
    let loss ← readOr readLoss c.loss f
    let restore ← readOr (readClamped 1 600) c.restore g
    some { mode := mode, rate := rate, advance := advance, floor := floor, loss := loss, restore := restore }
  | _ => none

/-- A PORT record: 0 LE, 1 LW, 2 to 5 A0 to A3 (R178). -/
def setPort (p : PortTable) (i : Nat) (l : List Byte) : Option PortTable :=
  match i with
  | 0 => (setLine p.line.east l).map (fun c => { p with line := { p.line with east := c } })
  | 1 => (setLine p.line.west l).map (fun c => { p with line := { p.line with west := c } })
  | 2 => (setAccess p.access.a0 l).map (fun c => { p with access := { p.access with a0 := c } })
  | 3 => (setAccess p.access.a1 l).map (fun c => { p with access := { p.access with a1 := c } })
  | 4 => (setAccess p.access.a2 l).map (fun c => { p with access := { p.access with a2 := c } })
  | 5 => (setAccess p.access.a3 l).map (fun c => { p with access := { p.access with a3 := c } })
  | _ => none

/-- The fields of a ring candidate's record, which has no cable delay (R27). -/
def setRingCand (c : CandCfg) (l : List Byte) : Option CandCfg :=
  match readFields [1, 8, 8] l with
  | some [a, b, d] => do
    let enabled ← readOr readFlag c.enabled a
    let priority ← readOr (readClamped 1 7) c.priority b
    let qualify ← readOr (readClamped 1 600) c.qualify d
    some { c with enabled := enabled, priority := priority, qualify := qualify }
  | _ => none

/-- The fields of REF's record (R27). -/
def setRefCand (c : CandCfg) (l : List Byte) : Option CandCfg :=
  match readFields [1, 8, 8, 8] l with
  | some [a, b, d, e] => do
    let enabled ← readOr readFlag c.enabled a
    let priority ← readOr (readClamped 1 7) c.priority b
    let qualify ← readOr (readClamped 1 600) c.qualify d
    let cable ← readOr (readClamped 0 100000) c.cable e
    some { enabled := enabled, priority := priority, qualify := qualify, cable := cable }
  | _ => none

/-- A CANDIDATE record (R27, R178). -/
def setCand (t : Trio CandCfg) (i : Nat) (l : List Byte) : Option (Trio CandCfg) :=
  match i with
  | 0 => (setRefCand t.ref l).map (fun c => { t with ref := c })
  | 1 => (setRingCand t.fwd l).map (fun c => { t with fwd := c })
  | 2 => (setRingCand t.rev l).map (fun c => { t with rev := c })
  | _ => none

/-- A SERVO entry (R12). -/
def setServo (c : ServoTable) (i : Nat) (l : List Byte) : Option ServoTable :=
  match i with
  | 0 => (readClamped 4 16 l).map (fun x => { c with n := x })
  | 1 => (readClamped 50 100000 l).map (fun x => { c with gate := x })
  | 2 => (readClamped 100 1000000 l).map (fun x => { c with stepThr := x })
  | 3 => (readClamped 10 10000 l).map (fun x => { c with lockThr := x })
  | 4 => (readClamped 100 100000 l).map (fun x => { c with unlockThr := x })
  | 5 => (readClamped 0 15 l).map (fun x => { c with kp := x })
  | 6 => (readClamped 0 15 l).map (fun x => { c with ki := x })
  | 7 => (readClamped 1000000 100000000 l).map (fun x => { c with limit := x })
  | _ => none

/-- A gradient: −32,768 to +32,767, refused outside it (R51). -/
def readGradient (l : List Byte) : Option Int :=
  match readNum l with
  | some x => if -32768 ≤ x ∧ x ≤ 32767 then some x else none
  | none => none

/-- A THERMAL entry (R51). -/
def setThermal (c : ThermalTable) (i : Nat) (l : List Byte) : Option ThermalTable :=
  match i with
  | 16 => (readClampedInt (-40) 105 l).map (fun x => { c with ta := x })
  | 17 => (readClampedInt (-40) 105 l).map (fun x => { c with tb := x })
  | 18 => (readClampedInt (-40) 105 l).map (fun x => { c with tc := x })
  | 19 => (readClampedInt 1 16 l).map (fun x => { c with th := x })
  | 20 => (readClamped 0 10000 l).map (fun x => { c with dCold := x })
  | 21 => (readClamped 0 10000 l).map (fun x => { c with dNormal := x })
  | 22 => (readClamped 0 10000 l).map (fun x => { c with dWarm := x })
  | 23 => (readClamped 0 10000 l).map (fun x => { c with dHot := x })
  | 24 => (readClamped 0 10000 l).map (fun x => { c with aging := x })
  | i => if i < 16 then (readGradient l).map (fun x => { c with grads := c.grads.set i x }) else none

/-- A QUALITY entry (R73). -/
def setQuality (c : QualityTable) (i : Nat) (l : List Byte) : Option QualityTable :=
  match i with
  | 0 => (readClamped 10 100000 l).map (fun x => { c with limit1 := x })
  | 1 => (readClamped 10 100000 l).map (fun x => { c with limit2 := x })
  | 2 => (readClamped 0 10000 l).map (fun x => { c with base := x })
  | _ => none

/-- The fields of an ALARM-PROFILE record (R167). -/
def setAlarmRecord (c : AlarmCfg) (l : List Byte) : Option AlarmCfg :=
  match readFields [1, 1, 8, 8] l with
  | some [a, b, d, e] => do
    let severity ← readOr readSeverity c.severity a
    let report ← readOr readFlag c.report b
    let up ← readOr (readClamped 0 600) c.raiseSoak d
    let down ← readOr (readClamped 0 600) c.clearSoak e
    some { severity := severity, report := report, raiseSoak := up, clearSoak := down }
  | _ => none

/-- An ALARM-PROFILE record of an index (R167). -/
def setAlarm (l : List AlarmCfg) (i : Nat) (x : List Byte) : Option (List AlarmCfg) :=
  match l[i]? with
  | some c => (setAlarmRecord c x).map (fun c' => l.set i c')
  | none => none

/-- One entry of a WRITE (R182). -/
def setEntry (n : TableName) (t : Tables) (e : Entry) : Option Tables :=
  match n with
  | .node => (setNode t.node e.index e.value).map (fun x => { t with node := x })
  | .ring => (setRing t.ring e.index e.value).map (fun x => { t with ring := x })
  | .port => (setPort t.port e.index e.value).map (fun x => { t with port := x })
  | .cand => (setCand t.cand e.index e.value).map (fun x => { t with cand := x })
  | .servo => (setServo t.servo e.index e.value).map (fun x => { t with servo := x })
  | .thermal => (setThermal t.thermal e.index e.value).map (fun x => { t with thermal := x })
  | .quality => (setQuality t.quality e.index e.value).map (fun x => { t with quality := x })
  | .alarm => (setAlarm t.alarm e.index e.value).map (fun x => { t with alarm := x })

/-- Every entry of a WRITE, one after the other. -/
def setEntries (n : TableName) : List Entry → Tables → Option Tables
  | [], t => some t
  | e :: es, t => match setEntry n t e with
    | some t' => setEntries n es t'
    | none => none

/-! ## Checks on the table as it would stand (R57, R74, R142) -/

/-- The thresholds and the hysteresis (R57). -/
def thermalOk (c : ThermalTable) : Bool :=
  decide (c.ta < c.tb) && decide (c.tb < c.tc) && decide (c.th < c.tb - c.ta) && decide (c.th < c.tc - c.tb)

/-- The member list (R142). -/
def membersOk (r : RingTable) : Bool :=
  decide (1 ≤ r.members.length) && decide (r.members.length ≤ 32) && r.members.all (fun i => decide (i ≤ 31)) &&
    decide r.members.Nodup && decide (r.members.head? = some r.primary)

/-- The generation after a taken RING write (R142). -/
def nextGeneration (g : Nat) : Nat := if g < 65535 then g + 1 else 1

/-- The RING table after a taken write: the roll timeout clamped against the interval, and a new generation (R141,
R142). -/
def finishRing (r : RingTable) : RingTable :=
  { r with timeout := min r.timeout (5 * r.interval), gen := nextGeneration r.gen }

/-- The tables after a WRITE, or none where its values are refused (R181, step 7). -/
def writeTable (n : TableName) (t : Tables) (es : List Entry) : Option Tables :=
  match setEntries n es t with
  | none => none
  | some t' => match n with
    | .ring => if membersOk t'.ring then some { t' with ring := finishRing t'.ring } else none
    | .thermal => if thermalOk t'.thermal then some t' else none
    | .quality => if t'.quality.limit1 < t'.quality.limit2 then some t' else none
    | _ => some t'

/-- The last index of a writable table (R178). -/
def lastIndex : TableName → Nat
  | .node => 9
  | .ring => 8
  | .port => 5
  | .cand => 2
  | .servo => 7
  | .thermal => 24
  | .quality => 2
  | .alarm => 15

end Sys2Proof.Machine
end

