-- ==== Sys2Proof/Machine/Relay.lean ====
section
/-! DEFINITION. Management frames: the MGMT sequence, responses, the relay table, and the frames that pass along the
ring (sections 11.2 and 11.4). -/

namespace Sys2Proof.Machine

/-- The MGMT sequence moves on for a frame this node forms (R185). -/
def stepMgmtSeq (v : Live) : Live := { v with mgmt := { v.mgmt with seq := v.mgmt.seq + 1 } }

/-- A response formed for a site port (R180, R185, R187). No rule gives the header of one: its direction and target are
free values (assumption 6); its origin id, sender id and hop count are this node's id, this node's id and 0, the model's
choice (assumption 65). -/
def siteResponse (t : Tables) (d : Side) (b : RespBody) (n : Note) (v : Live) : Live :=
  let v := stepMgmtSeq v
  let o := Config.openHeader 7 v.mgmt.seq.toNat v.osc
  hand (.site d)
    (mkFrame t
      { ring := t.node.ringId, rev := o.rev, looped := false, origin := t.node.id, sender := t.node.id,
        target := openId o.target, hops := 0, seq := v.mgmt.seq }
      (.response b) n) v

/-- One MGMT drop (R186). -/
def mgmtDrop (v : Live) : Live := { v with mgmt := { v.mgmt with drops := bump v.mgmt.drops } }

/-- One MGMT discard (R180, R186). -/
def mgmtDiscard (v : Live) : Live := { v with mgmt := { v.mgmt with discards := bump v.mgmt.discards } }

/-- The side a response along the ring prefers: the nearer one, or the request's arrival port where the requester is
absent from the member list (R186). -/
def responseSide (t : Tables) (arrival : Side) (requester : Nat) : Side :=
  if requester ∈ t.ring.members then nearSide t.ring.members t.node.id requester else arrival

/-- A response sent along the ring to its requester; with both spans DOWN it is not formed, and a SOFT-RESTART then
takes effect at once (R186, R191; assumption 65 for its sender id). -/
def ringResponse (t : Tables) (arrival : Side) (requester : Nat) (b : RespBody) (n : Note) (v : Live) : Live :=
  match openSide v (responseSide t arrival requester) with
  | none =>
    let v := mgmtDrop v
    match n with
    | .restart => { v with restartDue := true }
    | _ => v
  | some d =>
    let v := stepMgmtSeq v
    hand (.line d)
      (mkFrame t
        { ring := t.node.ringId, rev := d.outRev, looped := false, origin := t.node.id, sender := t.node.id,
          target := requester, hops := 0, seq := v.mgmt.seq }
        (.response b) n) v

/-- The answer to a request, sent by the way the request came (R180, R186, R193). -/
def respond (t : Tables) (env : ReqEnv) (st : Status) (es : List Entry) (n : Note) (v : Live) : Live :=
  let b : RespBody := { tag := env.tag, relay := env.relay, status := st, count := es.length, entries := es }
  match env.via, env.relay with
  | .site d, _ => siteResponse t d b n v
  | .line d, some r => ringResponse t d r.requester b n v
  | .line _, none => v

/-! ## The relay table (R185, R187) -/

/-- The lowest-numbered free handle, counting from `i` (R185). -/
def freeHandle : Nat → List RelaySlot → Option Nat
  | _, [] => none
  | i, r :: rs => if r.entry.isNone then some i else freeHandle (i + 1) rs

/-- One slot of the relay table changed by a function. -/
def mapRelay (i : Nat) (f : RelaySlot → RelaySlot) (v : Live) : Live :=
  { v with mgmt := { v.mgmt with relays := modifyAt i f v.mgmt.relays } }

/-- The relay sequence of a handle. -/
def relaySeq (v : Live) (i : Nat) : BitVec 8 :=
  match v.mgmt.relays[i]? with
  | some r => r.rseq
  | none => 0

/-- A request from a site port relayed to another node: answered here where it cannot be, and otherwise entered and
sent (R185; assumptions 6 and 65 for the header of an answer formed here). -/
def relayRequest (t : Tables) (d : Side) (target : Nat) (b : ReqBody) (v : Live) : Live :=
  let env : ReqEnv := { via := .site d, tag := b.tag, relay := b.relay }
  if target ∉ t.ring.members then respond t env .badRequest [] .plain v
  else match openSide v (nearSide t.ring.members t.node.id target) with
    | none => respond t env .unreachable [] .plain v
    | some side => match freeHandle 0 v.mgmt.relays with
      | none => respond t env .busy [] .plain v
      | some h =>
        let e : RelayEntry := { port := d, tag := b.tag, target := target, since := v.osc }
        let v := mapRelay h (fun r => { rseq := r.rseq + 1, entry := some e }) v
        let v := stepMgmtSeq { v with mgmt := { v.mgmt with relayed := bump v.mgmt.relayed } }
        let rel : RelayFields := { handle := h, rseq := relaySeq v h, requester := t.node.id, port := d }
        hand (.line side)
          (mkFrame t
            { ring := t.node.ringId, rev := side.outRev, looped := false, origin := t.node.id, sender := t.node.id,
              target := target, hops := 0, seq := v.mgmt.seq }
            (.request { b with relay := some rel }) .plain) v

/-- Whether the relay timer of a handle has reached the relay timeout in force (R187). -/
def relayDue (t : Tables) (h : Nat) (v : Live) : Bool :=
  match v.mgmt.relays[h]? with
  | some r => match r.entry with
    | some e => decide (125000 * t.node.relayTimeout ≤ v.osc - e.since)
    | none => false
  | none => false

/-- A relay timer that has run out: TIMEOUT goes to the entry's site port, and the entry is freed (R187). Its relay fields
name the node id in force as requester, since the entry records none (assumption 54); its header is that of
`siteResponse` (assumptions 6 and 65). -/
def relayCheck (t : Tables) (h : Nat) (v : Live) : Live :=
  match v.mgmt.relays[h]? with
  | some r => match r.entry with
    | some e =>
      if relayDue t h v then
        let rel : RelayFields := { handle := h, rseq := r.rseq, requester := t.node.id, port := e.port }
        siteResponse t e.port { tag := e.tag, relay := some rel, status := .timeout, count := 0, entries := [] } .plain
          (mapRelay h (fun r => { r with entry := none }) v)
      else v
    | none => v
  | none => v

/-- The relay timers that a NODE write has left at or beyond the timeout run out (R187), in the order of their handles
(assumption 61). -/
def relayChecks (t : Tables) : List Nat → Live → Live
  | [], v => v
  | h :: hs, v => relayChecks t hs (relayCheck t h v)

/-- Whether a response matches a slot of the relay table: handle, relay sequence and tag (R187). -/
def relayMatches (v : Live) (b : RespBody) : Option (Nat × RelayEntry) :=
  match b.relay with
  | none => none
  | some f => match v.mgmt.relays[f.handle]? with
    | none => none
    | some r => match r.entry with
      | none => none
      | some e => if r.rseq = f.rseq ∧ e.tag = b.tag then some (f.handle, e) else none

/-- A response taken here: sent out of the site port its request came by, or late (R187). The header fields that R187
does not name stay as they arrived (assumption 74). -/
def takeResponse (t : Tables) (h : Header) (b : RespBody) (v : Live) : Live :=
  match relayMatches v b with
  | some (i, e) =>
    hand (.site e.port) (mkFrame t { h with sender := t.node.id } (.response b) .plain)
      (mapRelay i (fun r => { r with entry := none }) v)
  | none => { v with mgmt := { v.mgmt with late := bump v.mgmt.late } }

/-! ## Frames along the ring (R186) -/

/-- Whether a management frame passes checks 1 to 3 of R186. -/
def mgmtPasses (t : Tables) (d : Side) (h : Header) : Bool :=
  (h.rev == d.inRev) && decide (h.origin ≠ t.node.id) && decide (h.hops < 31)

/-- Check 4 of R186: a request carries its relay fields and does not name 255. -/
def requestPasses (h : Header) (b : ReqBody) : Bool := b.relay.isSome && decide (h.target ≠ 255)

/-- A management frame for another node leaves by the opposite line port, or is dropped at a DOWN span (R186). -/
def forwardMgmt (t : Tables) (d : Side) (h : Header) (b : Body) (v : Live) : Live :=
  if v.spanIs d.other .down then mgmtDrop v
  else hand (.line d.other) (mkFrame t { h with sender := t.node.id, hops := h.hops + 1 } b .plain) v

/-- A MGMT-RESPONSE claimed at a line port (R186). -/
def responseArrives (t : Tables) (d : Side) (h : Header) (b : RespBody) (v : Live) : Live :=
  if mgmtPasses t d h = false then mgmtDiscard v
  else if h.target = t.node.id then takeResponse t h b v
  else forwardMgmt t d h (.response b) v

end Sys2Proof.Machine
end

