-- ==== Sys2Proof/Machine/Install.lean ====
section
/-! DEFINITION. New contents of the writable tables taken by the blocks that read them: the effects of a WRITE, of a
RELOAD-PROFILE and of an adoption (R7, R13, R31, R60, R93, R132, R142, R156, R167, R187). -/

namespace Sys2Proof.Machine

/-- The effects of a NODE write on the duplicate flag, which the alarm unit hears of at once, and on the relay timers
(R132, R166, R187). -/
def nodeEffects (old new : Tables) (v : Live) : Live :=
  let v := if old.node.id = new.node.id then v else refreshAlarms new (clearDuplicate v)
  relayChecks new (List.range 8) v

/-- The effects of a PORT write, port by port (R7, R93, R156), in record order (assumption 64). -/
def portEffects (old new : Tables) (v : Live) : Live :=
  let line := fun (d : Side) => lineEffects new (old.port.line.get d) (new.port.line.get d) d
  let access := fun (i : Fin 4) => accessEffects new (old.port.access.get i) (new.port.access.get i) i
  access 3 (access 2 (access 1 (access 0 (line .west (line .east v)))))

/-- The effects of a SERVO write: a changed N empties the queue, and a lowered limit L clamps I to ±L, and F_servo as
well outside HOLDOVER, where it keeps F_hold (R13). L bounds both (R12), so a value already within ±L stands
(assumption 38). -/
def servoEffects (old new : ServoTable) (v : Live) : Live :=
  let v := if old.n = new.n then v else { v with servo := { v.servo with queue := [] } }
  if new.limit < old.limit then
    let f := if v.servo.state = .holdover then v.servo.fServo else clampSym new.limit v.servo.fServo
    ({ v with servo := { v.servo with integ := clampSym new.limit v.servo.integ, fServo := f } } : Live).recomputeF
  else v

/-- The holdover history emptied (R60). -/
def emptyHistory (v : Live) : Live := { v with servo := { v.servo with history := [] } }

/-- The effects of changed gradients (R60). -/
def thermalEffects (old new : ThermalTable) (v : Live) : Live := if old.grads = new.grads then v else emptyHistory v

/-- The effects of an ALARM-PROFILE write on running soaks (R167), point by point in index order (assumption 64). -/
def alarmEffects (old new : Tables) (v : Live) : Live :=
  if old.alarm = new.alarm then v else soakChecks new (List.range 21) v

/-- Every block takes the new tables, in the order of the table ids. The conditions that the new tables decide by
themselves, and those that a block's taking has changed, reach their points before the next block acts (R166). -/
def takeTables (old new : Tables) (v : Live) : Live :=
  let v := nodeEffects old new (refreshAlarms new v)
  let v := refreshAlarms new (ringEffects new old.ring (originRole old) v)
  let v := refreshAlarms new (candEffects new (portEffects old new v))
  let v := servoEffects old.servo new.servo v
  let v := thermalEffects old.thermal new.thermal v
  alarmEffects old new v

/-- New tables in force, with their effects and what follows from them. -/
def State.install (new : Tables) (s : State) : State :=
  { s with tables := new, live := finish new (takeTables s.tables new s.live) }

/-- A CONFIG claimed at a line port: discarded, forwarded, deferred, refused or adopted (R146 to R148). An adoption has
the effects of a taken write. -/
def State.takeConfig (d : Side) (h : Header) (b : ConfigBody) (s : State) : State :=
  let t := s.tables
  match configVerdict t s.locks.ring s.store.commit.isSome d h b with
  | .discard => { s with live := configDiscard s.live }
  | .forward => { s with live := forwardConfig t d h b s.live }
  | .deferred => { s with live := { s.live with roll := { s.live.roll with
      configDeferred := bump s.live.roll.configDeferred } } }
  | .refuse => { s with live := refuseConfig b.ring.gen s.live }
  | .adopt => State.install { t with ring := b.ring }
      { s with live := { s.live with roll := { s.live.roll with rejectedGen := none } } }

end Sys2Proof.Machine
end

