-- ==== Sys2Proof/Machine/Requests.lean ====
section
/-! DEFINITION. Requests executed at this node: the order of checks, the eight tables written, the commands, and the
profile store (sections 11.2, 11.3 and 11.5). -/

namespace Sys2Proof.Machine

/-- What a request comes to: its status, the entries it returns, and the state it leaves. -/
structure Reply where
  status : Status
  entries : List Entry
  state : State
  deriving DecidableEq, Repr

/-- A request that fails a check has no effect (R181). -/
def refuse (st : Status) (s : State) : Reply := { status := st, entries := [], state := s }

/-- A request carried out and answered DONE (R181). -/
def carryOut (s : State) : Reply := { status := .done, entries := [], state := s }

/-- A request counted as executed here (R190). -/
def State.counted (s : State) : State :=
  { s with live := { s.live with mgmt := { s.live.mgmt with executed := bump s.live.mgmt.executed } } }

/-- What follows from a request, and then its answer, sent by the way the request came (R180, R186). -/
def State.answer (env : ReqEnv) (st : Status) (es : List Entry) (n : Note) (s : State) : State :=
  { s with live := finish s.tables (respond s.tables env st es n (finish s.tables s.live)) }

/-- A request served here: counted, carried out, and answered by the way it came. LOADING discards it, and one from a
line port without relay fields is a MGMT discard (R180, R181, R186, R190, R191). -/
def serve (env : ReqEnv) (n : Note) (f : State → Reply) (s : State) : State :=
  match s.live.part, env.via, env.relay with
  | .loading, _, _ => s
  | .running, .line _, none => { s with live := mgmtDiscard s.live }
  | .running, _, _ =>
    let r := f s.counted
    r.state.answer env r.status r.entries (if r.status = .done then n else .plain)

/-! ## READ (R181, R182) -/

def performRead (relay : Option RelayFields) (table first count : Nat) (s : State) : Reply :=
  if count = 0 then refuse .badRequest s
  else match tableEntries s table with
    | none => refuse .badTable s
    | some l =>
      if l.length ≤ first then refuse .badIndex s
      else match serveEntries relay first count l with
        | [] => refuse .badRequest s
        | es => { status := .done, entries := es, state := s }

/-! ## WRITE (R181, R182) -/

/-- Whether the entries of a WRITE are the run of consecutive indices from the first (R181, step 1). -/
def isRun : Nat → List Entry → Bool
  | _, [] => true
  | i, e :: es => (e.index == i) && isRun (i + 1) es

/-- Step 4a: the ring write guard stops what arrived over a line port (R181, R184). -/
def guarded (env : ReqEnv) (s : State) : Bool :=
  s.tables.node.ringGuard && match env.via with
    | .line _ => true
    | .site _ => false

/-- Whether a WRITE names a gradient (R60). -/
def namesGradient (es : List Entry) : Bool := es.any (fun e => decide (e.index < 16))

/-- A THERMAL write that is taken and names a gradient empties the history, whatever it writes (R60). -/
def afterWrite (n : TableName) (es : List Entry) (s : State) : State :=
  match n with
  | .thermal => if namesGradient es then { s with live := emptyHistory s.live } else s
  | _ => s

/-- A WRITE to a table (R181, steps 1 to 7). -/
def performWrite (env : ReqEnv) (table : Nat) (w : WriteArgs) (s : State) : Reply :=
  if w.count = 0 ∨ w.entries.length ≠ w.count ∨ isRun w.first w.entries = false then refuse .badRequest s
  else match tableOfId table with
    | none => refuse .badTable s
    | some n =>
      if w.entries.all (fun e => decide (e.index ≤ lastIndex n)) = false then refuse .badIndex s
      else if guarded env s then refuse .guarded s
      else if s.locks.get n ≠ .opened then refuse .locked s
      else if s.store.commit.isSome then refuse .busy s
      else if n = .ring ∧ s.tables.node.role ≠ .primary then refuse .notHead s
      else match writeTable n s.tables w.entries with
        | none => refuse .badValue s
        | some t => carryOut ((afterWrite n w.entries s).install t)

/-! ## Commands (R183) -/

/-- A command that passes step 4a (R181). -/
def command (env : ReqEnv) (f : State → Reply) (s : State) : Reply := if guarded env s then refuse .guarded s else f s

/-- One port's counters and link-lost flag cleared (R92). -/
def PortIO.clearCounters (x : PortIO) : PortIO :=
  { x with insertDrops := 0, throughDrops := 0, fcs := 0, short := 0, overrun := 0, malformed := 0, misdirected := 0,
           linkLost := false }

/-- One span's counters cleared (R94). -/
def Span.clearCounters (s : Span) : Span := { s with timeouts := 0, unmatched := 0, rejected := 0, downs := 0 }

/-- One access port's counters cleared (R162). -/
def AccessPort.clearCounters (a : AccessPort) : AccessPort := { a with sent := 0, replies := 0, unanswered := 0 }

/-- A function on each side of a pair. -/
def Pair.map {α : Type} (f : α → α) (p : Pair α) : Pair α := ⟨f p.east, f p.west⟩

/-- A function on each of four. -/
def Quad.map {α : Type} (f : α → α) (q : Quad α) : Quad α := ⟨f q.a0, f q.a1, f q.a2, f q.a3⟩

/-- A function on each port. -/
def Ports.map (f : PortIO → PortIO) (p : Ports) : Ports :=
  { line := Pair.map f p.line, site := Pair.map f p.site, access := Quad.map f p.access }

/-- The epoch engine's counters cleared (R119). -/
def Epoch.clearCounters (e : Epoch) : Epoch :=
  { e with notUp := ⟨0, 0⟩, wrongDir := ⟨0, 0⟩, ownOrigin := 0, hopLimit := 0, unknownOrigin := 0, fwdDrops := 0,
           takeovers := 0, reverts := 0 }

/-- The roll engine's counters cleared, with the cycle minimum and maximum (R128, R139, R151). -/
def Roll.clearCounters (r : Roll) : Roll :=
  { r with rollTimeouts := 0, lateRolls := 0, loopSwitches := 0, unknownHead := 0, wrongDir := ⟨0, 0⟩, ownHead := 0,
           hopLimit := 0, loopDrops := 0, configSent := 0, configDiscards := 0, configDrops := 0, configDeferred := 0,
           configRefused := 0, cycleMin := none, cycleMax := none }

/-- The management unit's counters cleared (R190). -/
def Mgmt.clearCounters (m : Mgmt) : Mgmt := { m with executed := 0, relayed := 0, discards := 0, drops := 0, late := 0 }

/-- CLEAR-COUNTERS: every counter of the COUNTERS table, the link-lost flags, the cycle minimum and maximum, the raise
counts (R24, R28, R92, R94, R119, R128, R139, R151, R162, R176, R183, R190). -/
def clearAllCounters (v : Live) : Live :=
  { v with
    servo := { v.servo with phaseSteps := 0, gated := 0, skipped := 0 }
    refIn := { v.refIn with jumps := 0 }
    io := v.io.map PortIO.clearCounters
    spans := Pair.map Span.clearCounters v.spans
    epoch := v.epoch.clearCounters
    roll := v.roll.clearCounters
    access := Quad.map AccessPort.clearCounters v.access
    alarms := { v.alarms with
      points := v.alarms.points.map (fun p => { p with raises := 0 }), notices := ⟨0, 0⟩ }
    mgmt := v.mgmt.clearCounters }

def performClearCounters (s : State) : Reply := carryOut { s with live := clearAllCounters s.live }

/-- CLEAR-HISTORY (R172). -/
def performClearHistory (s : State) : Reply :=
  carryOut { s with live := { s.live with alarms := { s.live.alarms with history := [], overwrites := 0 } } }

/-- SOFT-RESTART is answered DONE; the restart follows the end of that answer (R191). -/
def performSoftRestart (s : State) : Reply := carryOut s

/-- The tables a reload leaves: those of the image but for the LOCKED-DOWN ones, the unit serial untouched (R189). -/
def reloaded (locks : PerTable Lock) (old img : Tables) : Tables :=
  let pick := fun {α : Type} (n : TableName) (a b : α) => if locks.get n = .lockedDown then a else b
  { node := pick .node old.node { img.node with serial := old.node.serial }
    ring := pick .ring old.ring img.ring
    port := pick .port old.port img.port
    cand := pick .cand old.cand img.cand
    servo := pick .servo old.servo img.servo
    thermal := pick .thermal old.thermal img.thermal
    quality := pick .quality old.quality img.quality
    alarm := pick .alarm old.alarm img.alarm }

/-- The rejected generation goes where the RING table is replaced, as at an adoption; a LOCKED-DOWN RING table is not
replaced (R148, R151, R189; assumption 36). -/
def dropRejected (ringLock : Lock) (v : Live) : Live :=
  if ringLock = .lockedDown then v else { v with roll := { v.roll with rejectedGen := none } }

/-- RELOAD-PROFILE (R189). The RING table is replaced as an adoption does it (R151). -/
def performReload (s : State) : Reply :=
  if s.store.commit.isSome then refuse .busy s
  else match s.store.image with
    | none => refuse .badStore s
    | some i =>
      carryOut (({ s with live := dropRejected s.locks.ring s.live } : State).install
        (reloaded s.locks s.tables i.tables))

/-- COMMIT-PROFILE: the tables and lock states as they stand go to the store (R188). -/
def performCommit (s : State) : Reply :=
  if s.store.commit.isSome then refuse .busy s
  else carryOut { s with store := { s.store with commit := some { tables := s.tables, locks := s.locks } } }

/-- The level a LOCK-TABLE names, in its one entry (R183, R184). -/
def lockLevel (es : List Entry) : Option Lock :=
  match es with
  | [e] => match readByte e.value with
    | some 0 => some .locked
    | some 1 => some .lockedDown
    | _ => none
  | _ => none

/-- LOCK-TABLE (R181, R184). -/
def performLock (table : Nat) (es : List Entry) (s : State) : Reply :=
  match tableOfId table with
  | none => refuse .badTable s
  | some n =>
    if s.live.guard then refuse .locked s
    else if s.locks.get n = .lockedDown ∧ lockLevel es = some .locked then refuse .locked s
    else if s.store.commit.isSome then refuse .busy s
    else match lockLevel es with
      | none => refuse .badValue s
      | some l => carryOut { s with locks := s.locks.set n l }

/-- UNLOCK-TABLE (R181, R184). -/
def performUnlock (table : Nat) (s : State) : Reply :=
  match tableOfId table with
  | none => refuse .badTable s
  | some n =>
    if s.live.guard then refuse .locked s
    else if s.locks.get n = .lockedDown then refuse .locked s
    else if s.store.commit.isSome then refuse .busy s
    else carryOut { s with locks := s.locks.set n .opened }

/-- The candidate an index names (R183). -/
def candOfIndex : Nat → Option Cand
  | 0 => some .ref
  | 1 => some .fwd
  | 2 => some .rev
  | _ => none

/-- SELECT (R45). -/
def performSelect (i : Nat) (s : State) : Reply :=
  match candOfIndex i with
  | none => refuse .badValue s
  | some c =>
    if (s.live.cands.get c).isAvailable then carryOut { s with live := { s.live with manual := some c } }
    else refuse .notNow s

/-- CLEAR-SELECT (R46). -/
def performClearSelect (s : State) : Reply := carryOut { s with live := { s.live with manual := none } }

/-! ## A MGMT-REQUEST executed here (R180, R181) -/

/-- LOCK-TABLE among the commands: its table is judged before the ring write guard (R181, steps 2 and 4a). -/
def lockCommand (env : ReqEnv) (table : Nat) (es : List Entry) (s : State) : Reply :=
  if (tableOfId table).isNone then refuse .badTable s else command env (performLock table es) s

/-- UNLOCK-TABLE among the commands: its table is judged before the ring write guard (R181, steps 2 and 4a). -/
def unlockCommand (env : ReqEnv) (table : Nat) (s : State) : Reply :=
  if (tableOfId table).isNone then refuse .badTable s else command env (performUnlock table) s

/-- A command by its code (section 12.2); an unknown code is BAD-REQUEST (R181, step 1), though no frame brings one
(assumption 24). -/
def performCommand (env : ReqEnv) (b : ReqBody) (s : State) : Reply :=
  match b.code with
  | 1 => command env performClearCounters s
  | 2 => command env performClearHistory s
  | 3 => command env performSoftRestart s
  | 4 => command env performReload s
  | 5 => command env performCommit s
  | 6 => lockCommand env b.first b.entries s
  | 7 => unlockCommand env b.first s
  | 8 => command env (performSelect b.first) s
  | 9 => command env performClearSelect s
  | _ => refuse .badRequest s

/-- A request by its operation: READ, WRITE or COMMAND; any other is BAD-REQUEST (R181, step 1), though no frame brings
one (assumption 24). -/
def performRequest (env : ReqEnv) (b : ReqBody) (s : State) : Reply :=
  match b.op with
  | 1 => performRead env.relay b.code b.first b.count s
  | 2 => performWrite env b.code { first := b.first, count := b.count, entries := b.entries } s
  | 3 => performCommand env b s
  | _ => refuse .badRequest s

/-- What the response of a request has still to bring about: the restart of a SOFT-RESTART (R191). -/
def requestNote (b : ReqBody) : Note := if b.op = 3 ∧ b.code = 3 then .restart else .plain

/-- A MGMT-REQUEST claimed at a site or line port: executed here, relayed, forwarded or discarded (R180, R185,
R186). -/
def State.requestArrives (via : Via) (h : Header) (b : ReqBody) (s : State) : State :=
  let t := s.tables
  let env : ReqEnv := { via := via, tag := b.tag, relay := b.relay }
  match via with
  | .site d =>
    if h.target = t.node.id ∨ h.target = 255 then serve env (requestNote b) (performRequest env b) s
    else { s with live := finish t (relayRequest t d h.target b s.live) }
  | .line d =>
    if mgmtPasses t d h = false ∨ requestPasses h b = false then { s with live := mgmtDiscard s.live }
    else if h.target = t.node.id then serve env (requestNote b) (performRequest env b) s
    else { s with live := finish t (forwardMgmt t d h (.request b) s.live) }

end Sys2Proof.Machine
end

