-- ==== Sys2Proof/Machine/Start.lean ====
section
/-! DEFINITION. The three kinds of reset, the end of LOADING, and the profile store's part in them (R8, R26, R32, R62,
R71, R102, R121, R140, R151, R164, R177, R188, R190, R191). -/

namespace Sys2Proof.Machine

/-! ## The entry to RUNNING and the restart share their order -/

/-- The access ports take their states, and each alarm point takes its condition as its owner's reset gives it:
SPAN-DOWN for both spans, which stand DOWN until their probe clocks start (R102, R164, R177). -/
def takeConditions (t : Tables) (v : Live) : Live :=
  refreshAlarms t (startAccess t 3 (startAccess t 2 (startAccess t 1 (startAccess t 0 v))))

/-- Every block takes up its work: a probe interval begins on each line port, J is set, and the node takes its origin
role (R95, R102, R105, R114, R121). -/
def takeUp (t : Tables) (v : Live) : Live :=
  let v := startProbeClock t .west (startProbeClock t .east v)
  let v := v.resetJ t
  match originRole t with
  | .primary => becomeActive t v
  | .standby => startTakeover v
  | .none => v

/-- The part enters RUNNING: the points take the conditions held at start, and the blocks take up their work (R177,
R190; assumption 19 for their order). -/
def enterRunning (t : Tables) (v : Live) : Live :=
  finish t (takeUp t (takeConditions t { v with part := .running }))

/-! ## Power-on and the reset pin (R190) -/

/-- A port right after power-on or the pin: only its link stands. -/
def freshPort (x : PortIO) : PortIO := Reset.port x.link

/-- The store after power is lost or the pin is taken: a commit in progress leaves the image invalid (R188). -/
def Store.interrupt (st : Store) : Option Image := if st.commit.isSome then none else st.image

/-- The tables loaded from a valid image, or the built-in ones, for a unit of the given serial (R190). -/
def loadTables (serial : Word48) (i : Option Image) : Tables :=
  match i with
  | some i => { i.tables with node := { i.tables.node with serial := serial } }
  | none => Config.builtIn serial

/-- Every lock OPEN (R190). -/
def allOpen : PerTable Lock := ⟨.opened, .opened, .opened, .opened, .opened, .opened, .opened, .opened⟩

/-- The start-up lock states (R190). -/
def loadLocks (i : Option Image) : PerTable Lock :=
  match i with
  | some i => i.locks
  | none => allOpen

/-- The part from the release of a reset: LOADING, with the given tables and locks (R8, R190). -/
def State.load (tables : Tables) (locks : PerTable Lock) (nodeKept : Bool) (last : Option CommitResult) (s : State) :
    State :=
  let image := s.store.interrupt
  { s with
    tables := tables
    locks := locks
    store := { image := image, commit := none, validAtLoad := image.isSome, lastCommit := last }
    live := { Reset.live tables (s.live.io.map freshPort) s.live.guard image.isNone with nodeKept := nodeKept } }

/-- What is known of the last commit after power-on (R188, R190). -/
def Store.afterPower (st : Store) : Option CommitResult := if st.commit.isSome then some .interrupted else none

/-- What is known of the last commit after the reset pin (R188, R190). -/
def Store.afterPin (st : Store) : Option CommitResult := if st.commit.isSome then some .interrupted else st.lastCommit

/-- Power-on (R190, R191). -/
def State.powerOn (s : State) : State :=
  let image := s.store.interrupt
  s.load (loadTables s.tables.node.serial image) (loadLocks image) false s.store.afterPower

/-- The locks after the reset pin: LOCKED-DOWN ones are kept (R190). -/
def keepDown (old new : PerTable Lock) : PerTable Lock :=
  let pick := fun (n : TableName) => if old.get n = .lockedDown then .lockedDown else new.get n
  ⟨pick .node, pick .ring, pick .port, pick .cand, pick .servo, pick .thermal, pick .quality, pick .alarm⟩

/-- The reset pin: as power-on, but a table that was LOCKED-DOWN keeps its contents and its lock (R190). -/
def State.resetPin (s : State) : State :=
  let image := s.store.interrupt
  s.load (reloaded s.locks s.tables (loadTables s.tables.node.serial image)) (keepDown s.locks (loadLocks image))
    (decide (s.locks.node = .lockedDown)) s.store.afterPin

/-- The end of LOADING (R190). -/
def State.endLoading (s : State) : State :=
  match s.live.part with
  | .loading => { s with live := enterRunning s.tables { s.live with nodeKept := false } }
  | .running => s

/-! ## SOFT-RESTART takes effect (R191) -/

/-- The servo after a soft restart: I and the history are kept, and F_servo takes I (R26). -/
def Servo.softReset (s : Servo) : Servo :=
  { Reset.servo with integ := s.integ, fServo := s.integ, history := s.history }

/-- A port after a soft restart: the insert queue is emptied, the through path runs on, and the counters and the
link-lost flag are cleared (R102). -/
def PortIO.softReset (x : PortIO) : PortIO := { x.clearCounters with queue := [] }

/-- The alarm unit after a soft restart: the history and its overwrite count are kept (R177). -/
def Alarms.softReset (a : Alarms) : Alarms :=
  { Reset.alarms with history := a.history, overwrites := a.overwrites }

/-- The management unit after a soft restart: the relay table is emptied, the relay sequences kept (R191). -/
def Mgmt.softReset (m : Mgmt) : Mgmt :=
  { Reset.mgmt with relays := m.relays.map (fun r => { r with entry := none }) }

/-- Every block at its soft-restart state; the time scale, the thermal unit and the stay's quantities are kept (R8, R26,
R32, R62, R71, R102, R121, R140, R151, R164, R177, R191). The part is held as LOADING until
`enterRunning`, where the points take their conditions. The response of a second SOFT-RESTART that waits in an emptied
queue brings no second restart (assumption 67). -/
def softReset (t : Tables) (v : Live) : Live :=
  let cand := fun (c : Cand) => Reset.cand (candEnabled t c)
  ({ v with
    part := .loading
    servo := v.servo.softReset
    cands := ⟨cand .ref, cand .fwd, cand .rev⟩
    refIn := Reset.refIn v.now
    manual := none
    selection := none
    hold := { v.hold with nextTick := none }
    ownClass := .q4
    io := v.io.map PortIO.softReset
    spans := Reset.both Reset.span
    epoch := Reset.epoch
    roll := Reset.roll
    access := Reset.four Reset.access
    alarms := v.alarms.softReset
    mgmt := v.mgmt.softReset
    restartDue := false
    losses := [] } : Live).recomputeF

/-- The restart takes effect where one is due (R191). -/
def State.restart (s : State) : State :=
  match s.live.part with
  | .loading => s
  | .running =>
    if s.live.restartDue then { s with live := enterRunning s.tables (softReset s.tables s.live) } else s

/-! ## The end of a commit (R188) -/

/-- A commit ends, verified or with a read-back mismatch (R188). -/
def State.endCommit (verified : Bool) (s : State) : State :=
  match s.store.commit with
  | none => s
  | some i =>
    let image := if verified then some i else none
    let result := if verified then CommitResult.verified else CommitResult.mismatch
    { s with
      store := { s.store with image := image, commit := none, lastCommit := some result }
      live := finish s.tables { s.live with storeFault := !verified } }

end Sys2Proof.Machine
end

