-- ==== Sys2Proof/Machine/Receive.lean ====
section
/-! DEFINITION. An arriving frame, from the wire to the block that owns it (section 5.2, R83 to R85). -/

namespace Sys2Proof.Machine

/-- A frame claimed at a line port handed to its owner (R83). -/
def State.claimLine (d : Side) (rx : Stamp) (f : Frame) (s : State) : State :=
  let t := s.tables
  let v := s.live
  match f.body with
  | .epoch b => { s with live := finish t (takeEpoch t d rx f.hdr b v) }
  | .probe seq => { s with live := finish t (answerProbe t d rx seq v) }
  | .reply seq t2 t3 => { s with live := finish t (takeReply t d rx f.hdr.sender seq t2 t3 v) }
  | .roll b => { s with live := finish t (takeRoll t d f.hdr b v) }
  | .config b =>
    let s := s.takeConfig d f.hdr b
    { s with live := finish s.tables s.live }
  | .request b => s.requestArrives (.line d) f.hdr b
  | .response b => { s with live := finish t (responseArrives t d f.hdr b v) }
  | .notice _ => s

/-- A frame claimed at a site port handed to the management unit (R84). -/
def State.claimSite (d : Side) (f : Frame) (s : State) : State :=
  match f.body with
  | .request b => s.requestArrives (.site d) f.hdr b
  | _ => s

/-- A frame accepted at an access port handed to the access unit (R85). -/
def State.claimAccess (i : Fin 4) (rx : Stamp) (f : Frame) (s : State) : State :=
  match f.body with
  | .probe seq => { s with live := finish s.tables (answerAccessProbe s.tables i rx f.hdr seq s.live) }
  | _ => s

/-- A claimed frame handed to its owner (R83, R84, R85). -/
def State.claim (p : Port) (rx : Stamp) (f : Frame) (s : State) : State :=
  match p with
  | .line d => s.claimLine d rx f
  | .site d => s.claimSite d f
  | .access i => s.claimAccess i rx f

/-- A frame whose arrival ends, with the receive instant it was given: passed through, claimed or discarded by R82 to
R86. -/
def State.takeFrame (p : Port) (rx : Stamp) (f : RawFrame) (s : State) : State :=
  let t := s.tables
  let v := s.live
  match verdict t v p f with
  | .through => { s with live := finish t (passThrough p f v) }
  | .claimed q => s.claim p rx q
  | .overrun => { s with live := finish t (discardFrame t p .overrun v) }
  | .short => { s with live := finish t (discardFrame t p .short v) }
  | .fcs => { s with live := finish t (discardFrame t p .fcs v) }
  | .silent => { s with live := finish t (discardFrame t p .silent v) }
  | .malformed => { s with live := finish t (discardFrame t p .malformed v) }
  | .misdirected => { s with live := finish t (discardFrame t p .misdirected v) }

/-- A port that has received the whole of a frame is receiving none. -/
def PortIO.received (x : PortIO) : PortIO := { x with arriving := none }

/-- A frame arrives at a port. Nothing does over a link that is down. Its first byte gives it its receive instant, the
timestamp of R3 at that instant; at the end of its arrival it is taken with that instant, and an end of which no first
byte was seen, as after a link loss or a reset in between, brings nothing (R81, R82). -/
def State.receive (p : Port) (a : Arrival) (f : RawFrame) (s : State) : State :=
  if (s.live.port p).link = false then s
  else match a, (s.live.port p).arriving with
    | .begins, _ => { s with live := s.live.mapPort p (fun x => { x with arriving := some s.live.now }) }
    | .ends, some rx => State.takeFrame p rx f { s with live := s.live.mapPort p PortIO.received }
    | .ends, none => s

end Sys2Proof.Machine
end

