-- ==== Sys2Proof/Machine/Event.lean ====
section
/-! DEFINITION. How a command meets the part: time passes up to its instant, and then it acts; an event that a timer
brings acts only where the timer stands at or beyond its end (assumptions 1 and 3). -/

namespace Sys2Proof.Machine

/-- `n` oscillator periods pass (R1). -/
def State.elapse (n : Nat) (s : State) : State := { s with live := s.live.elapse n }

/-- An event acts on the blocks, and what follows from it follows. -/
def State.act (f : Tables → Live → Live) (s : State) : State :=
  { s with live := finish s.tables (f s.tables s.live) }

/-- A timed event acts where it is due. -/
def State.timed (due : Tables → Live → Bool) (f : Tables → Live → Live) (s : State) : State :=
  if due s.tables s.live then s.act f else s

/-! ## When a timed event is due, beside those that the blocks' own files say -/

/-- The qualify time is reached (R30). -/
def qualifyDue (c : Cand) (t : Tables) (v : Live) : Bool :=
  decide ((v.cands.get c).state = .qualifying) && qualified t c v

/-- An origins-heard entry has gone 3 epoch intervals without an EPOCH (R38). -/
def originDue (d : Side) (id : Nat) (t : Tables) (v : Live) : Bool :=
  (v.cands.get d.cand).origins.any (fun o => o.id == id && decide (gapPs t ≤ interval o.gapSince v.now))

/-- The time scale stands at or above the crossing point of a port's K (R6). -/
def pulseDue (i : Fin 4) (t : Tables) (v : Live) : Bool :=
  decide (0 ≤ pastCrossing (t.port.access.get i).advance (v.ts.k.get i) v.ts.value.toPs)

/-- The time scale stands at or above J (R105). -/
def epochDue (v : Live) : Bool := decide (v.part = .running) && reachedNs v.epoch.j v.ts.value.toPs

/-- The time scale stands at or above J_p (R158). -/
def accessEpochDue (i : Fin 4) (v : Live) : Bool :=
  decide (v.part = .running) && reachedNs (v.access.get i).jp v.ts.value.toPs

/-- The probe clock stands at or beyond the end of its interval (R95). -/
def probeDue (d : Side) (v : Live) : Bool :=
  match (v.span d).nextProbe with
  | some n => decide (n ≤ v.osc)
  | none => false

/-- A probe interval ends and the next begins (R95). -/
def nextInterval (t : Tables) (d : Side) (v : Live) : Live :=
  beginInterval t d (v.mapSpan d (fun s => { s with nextProbe := s.nextProbe.map (fun n => n + Reset.second) }))

/-- An active standby's revert watch has reached the revert hold-off (R117). -/
def revertDue (t : Tables) (v : Live) : Bool :=
  decide (originRole t = .standby) && v.epoch.active && revertReached t v

/-- The revert watch stops (R116). -/
def stopRevert (v : Live) : Live := { v with epoch := { v.epoch with revert := none } }

/-- A heads-heard entry has gone 3 roll intervals without a ROLL (R131). -/
def headDue (id : Nat) (t : Tables) (v : Live) : Bool :=
  v.roll.heads.any (fun h => h.id == id && headExpired t v.now h)

/-- A running soak stands at or beyond its length (R168, R169). -/
def soakDue (i : Nat) (t : Tables) (v : Live) : Bool :=
  match v.alarms.points[i]? with
  | some p => match p.soak, p.state with
    | some since, .raising => decide (soakPeriods (pointCfg t i).raiseSoak ≤ v.osc - since)
    | some since, .clearing => decide (soakPeriods (pointCfg t i).clearSoak ≤ v.osc - since)
    | _, _ => false
  | none => false

end Sys2Proof.Machine
end

