-- ==== Sys2Proof/Machine/Arrivals.lean ====
section
/-! DEFINITION. The commands that arriving frames give. What becomes of a frame is decided by the frame itself, by R82
to R86; each row of the table names one of the outcomes. Each row's command has the two halves of an arrival: the first
byte, which gives the receive instant, and the end (assumption 5). -/

namespace Sys2Proof.Machine

/-- THROUGH_FRAME_ARRIVAL (R80, R83, R84). -/
def execThroughFrameArrival (after : Nat) (via : Via) (a : Arrival) (f : RawFrame) (s : State) :
    Host.Outcome State Fault Refusal :=
  .next ((s.elapse after).receive via.port a f)

/-- FRAME_RECEIVE_DISCARD (R82 to R86). -/
def execFrameReceiveDiscard (after : Nat) (p : Port) (a : Arrival) (f : RawFrame) (s : State) :
    Host.Outcome State Fault Refusal :=
  .next ((s.elapse after).receive p a f)

/-- EPOCH_ARRIVAL (R107 to R111). -/
def execEpochArrival (after : Nat) (d : Side) (a : Arrival) (f : RawFrame) (s : State) :
    Host.Outcome State Fault Refusal :=
  .next ((s.elapse after).receive (.line d) a f)

/-- SPAN_PROBE_ARRIVAL (R97). -/
def execSpanProbeArrival (after : Nat) (d : Side) (a : Arrival) (f : RawFrame) (s : State) :
    Host.Outcome State Fault Refusal :=
  .next ((s.elapse after).receive (.line d) a f)

/-- SPAN_REPLY_ARRIVAL (R96, R98, R100). -/
def execSpanReplyArrival (after : Nat) (d : Side) (a : Arrival) (f : RawFrame) (s : State) :
    Host.Outcome State Fault Refusal :=
  .next ((s.elapse after).receive (.line d) a f)

/-- ROLL_ARRIVAL (R125, R130 to R138). -/
def execRollArrival (after : Nat) (d : Side) (a : Arrival) (f : RawFrame) (s : State) :
    Host.Outcome State Fault Refusal :=
  .next ((s.elapse after).receive (.line d) a f)

/-- CONFIG_ARRIVAL (R146 to R148). -/
def execConfigArrival (after : Nat) (d : Side) (a : Arrival) (f : RawFrame) (s : State) :
    Host.Outcome State Fault Refusal :=
  .next ((s.elapse after).receive (.line d) a f)

/-- MGMT_REQUEST_ARRIVAL (R180, R185, R186). -/
def execMgmtRequestArrival (after : Nat) (via : Via) (a : Arrival) (f : RawFrame) (s : State) :
    Host.Outcome State Fault Refusal :=
  .next ((s.elapse after).receive via.port a f)

/-- MGMT_RESPONSE_ARRIVAL (R186, R187). -/
def execMgmtResponseArrival (after : Nat) (d : Side) (a : Arrival) (f : RawFrame) (s : State) :
    Host.Outcome State Fault Refusal :=
  .next ((s.elapse after).receive (.line d) a f)

/-- ACCESS_SPAN_PROBE (R85, R161). -/
def execAccessSpanProbe (after : Nat) (i : Fin 4) (a : Arrival) (f : RawFrame) (s : State) :
    Host.Outcome State Fault Refusal :=
  .next ((s.elapse after).receive (.access i) a f)

end Sys2Proof.Machine
end

