-- ==== Sys2Proof/Machine/Management.lean ====
section
/-! DEFINITION. The commands that a management request gives, as taken by the node that executes it. -/

namespace Sys2Proof.Machine

/-- READ (R181, R182). -/
def execRead (after : Nat) (env : ReqEnv) (table first count : Nat) (s : State) :
    Host.Outcome State Fault Refusal :=
  .next (serve env .plain (performRead env.relay table first count) (s.elapse after))

/-- WRITE to NODE (R179). -/
def execWriteNode (after : Nat) (env : ReqEnv) (w : WriteArgs) (s : State) : Host.Outcome State Fault Refusal :=
  .next (serve env .plain (performWrite env 1 w) (s.elapse after))

/-- WRITE to RING (R141, R142). -/
def execWriteRing (after : Nat) (env : ReqEnv) (w : WriteArgs) (s : State) : Host.Outcome State Fault Refusal :=
  .next (serve env .plain (performWrite env 2 w) (s.elapse after))

/-- WRITE to PORT (R93, R152). -/
def execWritePort (after : Nat) (env : ReqEnv) (w : WriteArgs) (s : State) : Host.Outcome State Fault Refusal :=
  .next (serve env .plain (performWrite env 3 w) (s.elapse after))

/-- WRITE to CANDIDATE (R27, R31). -/
def execWriteCandidate (after : Nat) (env : ReqEnv) (w : WriteArgs) (s : State) : Host.Outcome State Fault Refusal :=
  .next (serve env .plain (performWrite env 4 w) (s.elapse after))

/-- WRITE to SERVO (R12, R13). -/
def execWriteServo (after : Nat) (env : ReqEnv) (w : WriteArgs) (s : State) : Host.Outcome State Fault Refusal :=
  .next (serve env .plain (performWrite env 5 w) (s.elapse after))

/-- WRITE to THERMAL (R51, R57, R60). -/
def execWriteThermal (after : Nat) (env : ReqEnv) (w : WriteArgs) (s : State) : Host.Outcome State Fault Refusal :=
  .next (serve env .plain (performWrite env 6 w) (s.elapse after))

/-- WRITE to QUALITY (R73, R74). -/
def execWriteQuality (after : Nat) (env : ReqEnv) (w : WriteArgs) (s : State) : Host.Outcome State Fault Refusal :=
  .next (serve env .plain (performWrite env 7 w) (s.elapse after))

/-- WRITE to ALARM-PROFILE (R167). -/
def execWriteAlarmProfile (after : Nat) (env : ReqEnv) (w : WriteArgs) (s : State) :
    Host.Outcome State Fault Refusal :=
  .next (serve env .plain (performWrite env 8 w) (s.elapse after))

/-- CLEAR-COUNTERS (R183). -/
def execClearCounters (after : Nat) (env : ReqEnv) (s : State) : Host.Outcome State Fault Refusal :=
  .next (serve env .plain (command env performClearCounters) (s.elapse after))

/-- CLEAR-HISTORY (R172). -/
def execClearHistory (after : Nat) (env : ReqEnv) (s : State) : Host.Outcome State Fault Refusal :=
  .next (serve env .plain (command env performClearHistory) (s.elapse after))

/-- SOFT-RESTART (R191). -/
def execSoftRestart (after : Nat) (env : ReqEnv) (s : State) : Host.Outcome State Fault Refusal :=
  .next (serve env .restart (command env performSoftRestart) (s.elapse after))

/-- RELOAD-PROFILE (R189). -/
def execReloadProfile (after : Nat) (env : ReqEnv) (s : State) : Host.Outcome State Fault Refusal :=
  .next (serve env .plain (command env performReload) (s.elapse after))

/-- COMMIT-PROFILE (R188). -/
def execCommitProfile (after : Nat) (env : ReqEnv) (s : State) : Host.Outcome State Fault Refusal :=
  .next (serve env .plain (command env performCommit) (s.elapse after))

/-- LOCK-TABLE (R184). -/
def execLockTable (after : Nat) (env : ReqEnv) (table : Nat) (entries : List Entry) (s : State) :
    Host.Outcome State Fault Refusal :=
  .next (serve env .plain (lockCommand env table entries) (s.elapse after))

/-- UNLOCK-TABLE (R184). -/
def execUnlockTable (after : Nat) (env : ReqEnv) (table : Nat) (s : State) : Host.Outcome State Fault Refusal :=
  .next (serve env .plain (unlockCommand env table) (s.elapse after))

/-- SELECT (R45). -/
def execSelect (after : Nat) (env : ReqEnv) (candidate : Nat) (s : State) : Host.Outcome State Fault Refusal :=
  .next (serve env .plain (command env (performSelect candidate)) (s.elapse after))

/-- CLEAR-SELECT (R46). -/
def execClearSelect (after : Nat) (env : ReqEnv) (s : State) : Host.Outcome State Fault Refusal :=
  .next (serve env .plain (command env performClearSelect) (s.elapse after))

end Sys2Proof.Machine
end

