-- ==== Sys2Proof/Machine/Pins.lean ====
section
/-! DEFINITION. The commands that the part's signals give: links, GUARD, REFP, REFT, the sensor, the store, and the
end of a transmission. -/

namespace Sys2Proof.Machine

/-- LINK_DOWN (R81, R99). -/
def execLinkDown (after : Nat) (p : Port) (s : State) : Host.Outcome State Fault Refusal :=
  .next ((s.elapse after).act (fun t v => takeLinkDown t p v))

/-- LINK_UP (R81). -/
def execLinkUp (after : Nat) (p : Port) (s : State) : Host.Outcome State Fault Refusal :=
  .next ((s.elapse after).act (fun _ v => takeLinkUp p v))

/-- GUARD_CHANGE (R184). -/
def execGuardChange (after : Nat) (asserted : Bool) (s : State) : Host.Outcome State Fault Refusal :=
  .next ((s.elapse after).act (fun _ v => { v with guard := asserted }))

/-- REFP_PULSE (R33, R34). -/
def execRefpPulse (after : Nat) (s : State) : Host.Outcome State Fault Refusal :=
  .next ((s.elapse after).act takePulse)

/-- REFT_ANNOUNCEMENT (R33). -/
def execReftAnnouncement (after : Nat) (a : Announcement) (s : State) : Host.Outcome State Fault Refusal :=
  .next ((s.elapse after).act (fun _ v => takeAnnouncement a v))

/-- SENSOR_READING (R47, R48). -/
def execSensorReading (after : Nat) (answer : Option Int) (s : State) : Host.Outcome State Fault Refusal :=
  .next ((s.elapse after).timed (fun _ v => readingDue v) (fun t v => takeReading t answer v))

/-- COMMIT_END (R188). -/
def execCommitEnd (after : Nat) (verified : Bool) (s : State) : Host.Outcome State Fault Refusal :=
  .next ((s.elapse after).endCommit verified)

/-- TRANSMISSION_END (R80, R87, R91). -/
def execTransmissionEnd (after : Nat) (p : Port) (s : State) : Host.Outcome State Fault Refusal :=
  .next ((s.elapse after).act (fun _ v => takeSent p v))

end Sys2Proof.Machine
end

