-- ==== Sys2Proof/Machine/Resets.lean ====
section
/-! DEFINITION. The commands that start the part over. -/

namespace Sys2Proof.Machine

/-- POWER_ON (R8, R190, R191). -/
def execPowerOn (after : Nat) (s : State) : Host.Outcome State Fault Refusal := .next (s.elapse after).powerOn

/-- RESETN (R8, R190, R191). -/
def execResetn (after : Nat) (s : State) : Host.Outcome State Fault Refusal := .next (s.elapse after).resetPin

/-- LOADING_END (R190, R177). -/
def execLoadingEnd (after : Nat) (s : State) : Host.Outcome State Fault Refusal := .next (s.elapse after).endLoading

/-- SOFT_RESTART_EFFECT (R191). -/
def execSoftRestartEffect (after : Nat) (s : State) : Host.Outcome State Fault Refusal :=
  .next (s.elapse after).restart

end Sys2Proof.Machine
end

