-- ==== Sys2Proof/Machine/Timers.lean ====
section
/-! DEFINITION. The commands that the part's own timers and crossings give. -/

namespace Sys2Proof.Machine

/-- MISSING_SECOND (R33, R36). -/
def execMissingSecond (after : Nat) (s : State) : Host.Outcome State Fault Refusal :=
  .next ((s.elapse after).timed (fun _ v => missingDue v) (fun _ v => declareMissing v))

/-- QUALIFY_TIME_REACHED (R30). -/
def execQualifyTimeReached (after : Nat) (c : Cand) (s : State) : Host.Outcome State Fault Refusal :=
  .next ((s.elapse after).timed (qualifyDue c) (fun t v => promote t c v))

/-- ORIGIN_ENTRY_EXPIRY (R38). -/
def execOriginEntryExpiry (after : Nat) (d : Side) (origin : Nat) (s : State) : Host.Outcome State Fault Refusal :=
  .next ((s.elapse after).timed (originDue d origin) (fun t v => expireOrigin t d.cand origin v))

/-- HOLDOVER_TICK (R67). -/
def execHoldoverTick (after : Nat) (s : State) : Host.Outcome State Fault Refusal :=
  .next ((s.elapse after).timed (fun _ v => holdTickDue v) holdTick)

/-- PULSE_CROSSING (R6, R160). -/
def execPulseCrossing (after : Nat) (a : Fin 4) (s : State) : Host.Outcome State Fault Refusal :=
  .next ((s.elapse after).timed (pulseDue a) (fun t v => crossPulse t a v))

/-- EPOCH_INSTANT_CROSSING (R105, R106). -/
def execEpochInstantCrossing (after : Nat) (s : State) : Host.Outcome State Fault Refusal :=
  .next ((s.elapse after).timed (fun _ v => epochDue v) crossEpoch)

/-- ACCESS_EPOCH_CROSSING (R158, R159). -/
def execAccessEpochCrossing (after : Nat) (a : Fin 4) (s : State) : Host.Outcome State Fault Refusal :=
  .next ((s.elapse after).timed (fun _ v => accessEpochDue a v) (fun t v => crossAccessEpoch t a v))

/-- PROBE_INTERVAL (R95). -/
def execProbeInterval (after : Nat) (d : Side) (s : State) : Host.Outcome State Fault Refusal :=
  .next ((s.elapse after).timed (fun _ v => probeDue d v) (fun t v => nextInterval t d v))

/-- REPLY_WAIT_TIMEOUT (R96). -/
def execReplyWaitTimeout (after : Nat) (d : Side) (s : State) : Host.Outcome State Fault Refusal :=
  .next ((s.elapse after).timed (fun _ v => replyWaitOver d v) (fun t v => replyTimedOut t d v))

/-- TAKEOVER_TIME_REACHED (R115). -/
def execTakeoverTimeReached (after : Nat) (s : State) : Host.Outcome State Fault Refusal :=
  .next ((s.elapse after).timed takeoverDue takeoverCheck)

/-- REVERT_WATCH_GAP_EXPIRY (R116). -/
def execRevertWatchGapExpiry (after : Nat) (s : State) : Host.Outcome State Fault Refusal :=
  .next ((s.elapse after).timed revertGapOver (fun _ v => stopRevert v))

/-- REVERT_HOLD_OFF_REACHED (R117). -/
def execRevertHoldOffReached (after : Nat) (s : State) : Host.Outcome State Fault Refusal :=
  .next ((s.elapse after).timed revertDue revertCheck)

/-- ROLL_CLOCK_TICK (R122). -/
def execRollClockTick (after : Nat) (s : State) : Host.Outcome State Fault Refusal :=
  .next ((s.elapse after).timed rollTickDue rollTick)

/-- ROLL_TIMEOUT (R124). -/
def execRollTimeout (after : Nat) (s : State) : Host.Outcome State Fault Refusal :=
  .next ((s.elapse after).timed (fun _ v => rollTimeoutDue v) rollTimedOut)

/-- HEAD_ENTRY_EXPIRY (R131). -/
def execHeadEntryExpiry (after : Nat) (head : Nat) (s : State) : Host.Outcome State Fault Refusal :=
  .next ((s.elapse after).timed (headDue head) (fun t v => expireHead t head v))

/-- DUPLICATE_FLAG_EXPIRY (R132). -/
def execDuplicateFlagExpiry (after : Nat) (s : State) : Host.Outcome State Fault Refusal :=
  .next ((s.elapse after).timed duplicateExpired (fun _ v => clearDuplicate v))

/-- RESTORE_TIME_REACHED (R154). -/
def execRestoreTimeReached (after : Nat) (a : Fin 4) (s : State) : Host.Outcome State Fault Refusal :=
  .next ((s.elapse after).timed (fun t v => restoreReached t a v) (fun t v => restoreCheck t a v))

/-- SOAK_END (R168). -/
def execSoakEnd (after : Nat) (point : Nat) (s : State) : Host.Outcome State Fault Refusal :=
  .next ((s.elapse after).timed (soakDue point) (fun t v => soakCheck t point v))

/-- RELAY_TIMEOUT (R187). -/
def execRelayTimeout (after : Nat) (handle : Nat) (s : State) : Host.Outcome State Fault Refusal :=
  .next ((s.elapse after).timed (fun t v => relayDue t handle v) (fun t v => relayCheck t handle v))

end Sys2Proof.Machine
end

