-- ==== Sys2Proof/Machine/Dispatch.lean ====
section
/-! DEFINITION. The meaning of every command: one arm for each row of spec/opcode_table.json. -/

namespace Sys2Proof.Machine

/-- The effect of a command on everything but the queue. -/
def exec (i : Instr) (s : State) : Host.Outcome State Fault Refusal :=
  match i with
  | .powerOn after => Sys2Proof.Machine.execPowerOn after s
  | .resetn after => Sys2Proof.Machine.execResetn after s
  | .loadingEnd after => Sys2Proof.Machine.execLoadingEnd after s
  | .linkDown after p => Sys2Proof.Machine.execLinkDown after p s
  | .linkUp after p => Sys2Proof.Machine.execLinkUp after p s
  | .guardChange after asserted => Sys2Proof.Machine.execGuardChange after asserted s
  | .refpPulse after => Sys2Proof.Machine.execRefpPulse after s
  | .reftAnnouncement after a => Sys2Proof.Machine.execReftAnnouncement after a s
  | .missingSecond after => Sys2Proof.Machine.execMissingSecond after s
  | .qualifyTimeReached after c => Sys2Proof.Machine.execQualifyTimeReached after c s
  | .originEntryExpiry after d origin => Sys2Proof.Machine.execOriginEntryExpiry after d origin s
  | .sensorReading after answer => Sys2Proof.Machine.execSensorReading after answer s
  | .holdoverTick after => Sys2Proof.Machine.execHoldoverTick after s
  | .pulseCrossing after a => Sys2Proof.Machine.execPulseCrossing after a s
  | .epochInstantCrossing after => Sys2Proof.Machine.execEpochInstantCrossing after s
  | .accessEpochCrossing after a => Sys2Proof.Machine.execAccessEpochCrossing after a s
  | .probeInterval after d => Sys2Proof.Machine.execProbeInterval after d s
  | .replyWaitTimeout after d => Sys2Proof.Machine.execReplyWaitTimeout after d s
  | .takeoverTimeReached after => Sys2Proof.Machine.execTakeoverTimeReached after s
  | .revertWatchGapExpiry after => Sys2Proof.Machine.execRevertWatchGapExpiry after s
  | .revertHoldOffReached after => Sys2Proof.Machine.execRevertHoldOffReached after s
  | .rollClockTick after => Sys2Proof.Machine.execRollClockTick after s
  | .rollTimeout after => Sys2Proof.Machine.execRollTimeout after s
  | .headEntryExpiry after head => Sys2Proof.Machine.execHeadEntryExpiry after head s
  | .duplicateFlagExpiry after => Sys2Proof.Machine.execDuplicateFlagExpiry after s
  | .restoreTimeReached after a => Sys2Proof.Machine.execRestoreTimeReached after a s
  | .soakEnd after point => Sys2Proof.Machine.execSoakEnd after point s
  | .relayTimeout after handle => Sys2Proof.Machine.execRelayTimeout after handle s
  | .commitEnd after verified => Sys2Proof.Machine.execCommitEnd after verified s
  | .softRestartEffect after => Sys2Proof.Machine.execSoftRestartEffect after s
  | .throughFrameArrival after via x f => Sys2Proof.Machine.execThroughFrameArrival after via x f s
  | .frameReceiveDiscard after p x f => Sys2Proof.Machine.execFrameReceiveDiscard after p x f s
  | .epochArrival after d x f => Sys2Proof.Machine.execEpochArrival after d x f s
  | .spanProbeArrival after d x f => Sys2Proof.Machine.execSpanProbeArrival after d x f s
  | .spanReplyArrival after d x f => Sys2Proof.Machine.execSpanReplyArrival after d x f s
  | .rollArrival after d x f => Sys2Proof.Machine.execRollArrival after d x f s
  | .configArrival after d x f => Sys2Proof.Machine.execConfigArrival after d x f s
  | .mgmtRequestArrival after via x f => Sys2Proof.Machine.execMgmtRequestArrival after via x f s
  | .mgmtResponseArrival after d x f => Sys2Proof.Machine.execMgmtResponseArrival after d x f s
  | .accessSpanProbe after a x f => Sys2Proof.Machine.execAccessSpanProbe after a x f s
  | .transmissionEnd after p => Sys2Proof.Machine.execTransmissionEnd after p s
  | .read after env table first count => Sys2Proof.Machine.execRead after env table first count s
  | .writeNode after env w => Sys2Proof.Machine.execWriteNode after env w s
  | .writeRing after env w => Sys2Proof.Machine.execWriteRing after env w s
  | .writePort after env w => Sys2Proof.Machine.execWritePort after env w s
  | .writeCandidate after env w => Sys2Proof.Machine.execWriteCandidate after env w s
  | .writeServo after env w => Sys2Proof.Machine.execWriteServo after env w s
  | .writeThermal after env w => Sys2Proof.Machine.execWriteThermal after env w s
  | .writeQuality after env w => Sys2Proof.Machine.execWriteQuality after env w s
  | .writeAlarmProfile after env w => Sys2Proof.Machine.execWriteAlarmProfile after env w s
  | .clearCounters after env => Sys2Proof.Machine.execClearCounters after env s
  | .clearHistory after env => Sys2Proof.Machine.execClearHistory after env s
  | .softRestart after env => Sys2Proof.Machine.execSoftRestart after env s
  | .reloadProfile after env => Sys2Proof.Machine.execReloadProfile after env s
  | .commitProfile after env => Sys2Proof.Machine.execCommitProfile after env s
  | .lockTable after env table entries => Sys2Proof.Machine.execLockTable after env table entries s
  | .unlockTable after env table => Sys2Proof.Machine.execUnlockTable after env table s
  | .select after env candidate => Sys2Proof.Machine.execSelect after env candidate s
  | .clearSelect after env => Sys2Proof.Machine.execClearSelect after env s

end Sys2Proof.Machine
end

