-- ==== Sys2Proof/Machine/Step.lean ====
section
/-! DEFINITION. One step of the part: the command at the front of the queue, or, on an empty queue, the passing of
time with the events that the part's own timers bring (assumption 4). -/

namespace Sys2Proof.Machine

/-- A command posted where a condition holds. -/
def post (b : Bool) (i : Instr) : List Instr := if b then [i] else []

/-- Commands posted for each of a list. -/
def postEach {α : Type} (l : List α) (b : α → Bool) (i : α → Instr) : List Instr := (l.filter b).map i

/-- The two sides in their order. -/
def sides : List Side := [.east, .west]

/-- The three candidates in their fixed order. -/
def candidates : List Cand := [.ref, .fwd, .rev]

/-- The events due now by the part's own clocks, in the order of the tests below. The sensor's answer, the end of LOADING,
the end of a commit and the end of a transmission are not the part's to give: they come from outside as commands. -/
def dueEvents (t : Tables) (v : Live) : List Instr :=
  post (decide (v.part = .running) && v.restartDue) (.softRestartEffect 0) ++
  postEach accessPorts (fun i => pulseDue i t v) (fun i => .pulseCrossing 0 i) ++
  post (epochDue v) (.epochInstantCrossing 0) ++
  postEach accessPorts (fun i => accessEpochDue i v) (fun i => .accessEpochCrossing 0 i) ++
  post (missingDue v) (.missingSecond 0) ++
  postEach candidates (fun c => qualifyDue c t v && decide ((v.cands.get c).offered ≠ .q4))
    (fun c => .qualifyTimeReached 0 c) ++
  sides.flatMap (fun d => postEach (v.cands.get d.cand).origins (fun o => originDue d o.id t v)
    (fun o => .originEntryExpiry 0 d o.id)) ++
  post (holdTickDue v) (.holdoverTick 0) ++
  postEach sides (fun d => probeDue d v) (fun d => .probeInterval 0 d) ++
  postEach sides (fun d => replyWaitOver d v) (fun d => .replyWaitTimeout 0 d) ++
  post (takeoverDue t v) (.takeoverTimeReached 0) ++
  post (revertGapOver t v) (.revertWatchGapExpiry 0) ++
  post (revertDue t v) (.revertHoldOffReached 0) ++
  post (rollTickDue t v) (.rollClockTick 0) ++
  post (rollTimeoutDue v) (.rollTimeout 0) ++
  postEach v.roll.heads (fun h => headDue h.id t v) (fun h => .headEntryExpiry 0 h.id) ++
  post (duplicateExpired t v) (.duplicateFlagExpiry 0) ++
  postEach accessPorts (fun i => restoreReached t i v) (fun i => .restoreTimeReached 0 i) ++
  postEach (List.range 21) (fun i => soakDue i t v) (fun i => .soakEnd 0 i) ++
  postEach (List.range 8) (fun h => relayDue t h v) (fun h => .relayTimeout 0 h)

/-- The part with no command waiting: the events due now join the queue; with none due, one oscillator period passes
(R1). -/
def idle (s : State) : State :=
  match dueEvents s.tables s.live with
  | [] => s.elapse 1
  | l => { s with pending := l }

/-- One step: the command at the front of the queue acts with the queue's rest; an empty queue idles. -/
def step (s : State) : Host.Outcome State Fault Refusal :=
  match s.pending with
  | [] => .next (idle s)
  | c :: rest => exec c { s with pending := rest }

/-- The command a word spells put at the front of the queue; a state is unchanged where the word spells none. -/
def State.withFetchWord (s : State) (nbits w : Nat) : State :=
  match decodeTableWord nbits w with
  | some c => { s with pending := c :: s.pending }
  | none => s

end Sys2Proof.Machine
end

