-- ==== Sys2Proof/WellFormed.lean ====
section
/-! DEFINITION. Which commands are well formed: operands within the ranges that the spec's fields have. -/

namespace Sys2Proof

/-- A time value: seconds below 2^40, nanoseconds below 10^9, picoseconds below 1,000 (R1). -/
def TimeValue.wf (t : TimeValue) : Bool :=
  decide (t.sec < 1099511627776) && decide (t.ns < 1000000000) && decide (t.ps < 1000)

/-- An announcement carries a seconds value below 2^40 (section 2.3). -/
def Announcement.wf (a : Announcement) : Bool := decide (a.sec < 1099511627776)

/-- An entry's index and length are two bytes each (section 12.2). -/
def Entry.wf (e : Entry) : Bool := decide (e.index < 65536) && decide (e.value.length < 65536)

/-- A WRITE's first index and count are two bytes each (section 12.2). -/
def WriteArgs.wf (w : WriteArgs) : Bool :=
  decide (w.first < 65536) && decide (w.count < 65536) && w.entries.all Entry.wf

/-- The relay fields: a handle of one byte and a requester that is a node id (section 12.2, R193). -/
def RelayFields.wf (r : RelayFields) : Bool := decide (r.handle < 256) && decide (r.requester ≤ 31)

/-- The relay fields of a request, where it carries them. -/
def ReqEnv.wf (e : ReqEnv) : Bool :=
  match e.relay with
  | some r => r.wf
  | none => true

/-- A well-formed command. -/
def Instr.wf : Instr → Bool
  | .powerOn _ => true
  | .resetn _ => true
  | .loadingEnd _ => true
  | .linkDown _ _ => true
  | .linkUp _ _ => true
  | .guardChange _ _ => true
  | .refpPulse _ => true
  | .reftAnnouncement _ a => a.wf
  | .missingSecond _ => true
  | .qualifyTimeReached _ _ => true
  | .originEntryExpiry _ _ o => decide (o ≤ 31)
  | .sensorReading _ _ => true
  | .holdoverTick _ => true
  | .pulseCrossing _ _ => true
  | .epochInstantCrossing _ => true
  | .accessEpochCrossing _ _ => true
  | .probeInterval _ _ => true
  | .replyWaitTimeout _ _ => true
  | .takeoverTimeReached _ => true
  | .revertWatchGapExpiry _ => true
  | .revertHoldOffReached _ => true
  | .rollClockTick _ => true
  | .rollTimeout _ => true
  | .headEntryExpiry _ h => decide (h ≤ 31)
  | .duplicateFlagExpiry _ => true
  | .restoreTimeReached _ _ => true
  | .soakEnd _ p => decide (p < 21)
  | .relayTimeout _ h => decide (h < 8)
  | .commitEnd _ _ => true
  | .softRestartEffect _ => true
  | .throughFrameArrival _ _ _ _ => true
  | .frameReceiveDiscard _ _ _ _ => true
  | .epochArrival _ _ _ _ => true
  | .spanProbeArrival _ _ _ _ => true
  | .spanReplyArrival _ _ _ _ => true
  | .rollArrival _ _ _ _ => true
  | .configArrival _ _ _ _ => true
  | .mgmtRequestArrival _ _ _ _ => true
  | .mgmtResponseArrival _ _ _ _ => true
  | .accessSpanProbe _ _ _ _ => true
  | .transmissionEnd _ _ => true
  | .read _ e t f c => e.wf && decide (t < 256) && decide (f < 65536) && decide (c < 65536)
  | .writeNode _ e w => e.wf && w.wf
  | .writeRing _ e w => e.wf && w.wf
  | .writePort _ e w => e.wf && w.wf
  | .writeCandidate _ e w => e.wf && w.wf
  | .writeServo _ e w => e.wf && w.wf
  | .writeThermal _ e w => e.wf && w.wf
  | .writeQuality _ e w => e.wf && w.wf
  | .writeAlarmProfile _ e w => e.wf && w.wf
  | .clearCounters _ e => e.wf
  | .clearHistory _ e => e.wf
  | .softRestart _ e => e.wf
  | .reloadProfile _ e => e.wf
  | .commitProfile _ e => e.wf
  | .lockTable _ e t l => e.wf && decide (t < 65536) && l.all Entry.wf
  | .unlockTable _ e t => e.wf && decide (t < 65536)
  | .select _ e c => e.wf && decide (c < 65536)
  | .clearSelect _ e => e.wf

end Sys2Proof
end

