-- ==== Sys2Proof/Safety.lean ====
section
/-! DEFINITION. What counts as a sound state and a safe run, in the terms the statements use: the ranges the spec gives
the state, the frames that are well formed, what the consequences of an event leave alone, and how a request is
answered. -/

namespace Sys2Proof.Machine

/-! ## Sound states -/

/-- The time scale within its ranges: a time value, a remainder below 125,000,000, F_total within ±100,000,000 ppt
(R1, R2). -/
def TimeScale.sound (x : TimeScale) : Bool :=
  x.value.wf && decide (x.rem < unitsPerPs) && decide (-100000000 ≤ x.fTotal) && decide (x.fTotal ≤ 100000000)

/-- A port within its capacities: the insert queue (R88, R90) and the through buffer toward it (R80). -/
def PortIO.sound (p : Port) (x : PortIO) : Bool :=
  decide (x.queue.length ≤ capacity p) && decide (throughUsed x ≤ throughCapacity)

/-- The eight ports. -/
def allPorts : List Port :=
  [.line .east, .line .west, .site .east, .site .west, .access 0, .access 1, .access 2, .access 3]

/-- Every port within its capacities. -/
def Live.portsSound (v : Live) : Bool := allPorts.all (fun p => PortIO.sound p (v.port p))

/-- The two histories hold at most 64 entries each (R63, R171). -/
def Live.historiesSound (v : Live) : Bool :=
  decide (v.servo.history.length ≤ 64) && decide (v.alarms.history.length ≤ 64)

/-- The fixed numbers of things: 21 alarm points, 32 ring map entries, 8 relay handles (R136, R165, R185). -/
def Live.countsSound (v : Live) : Bool :=
  decide (v.alarms.points.length = 21) && decide (v.roll.map.length = 32) && decide (v.mgmt.relays.length = 8)

/-- Whether a candidate is the one SELECTED exactly where the selection says so (R29, R42). -/
def Live.selectionSound (v : Live) : Bool :=
  [Cand.ref, .fwd, .rev].all (fun c => decide ((v.cands.get c).state = .selected ↔ v.selection = some c))

/-! ## Tables -/

/-- Two sets of tables that hold the same contents in one table. -/
def Tables.agreeOn (n : TableName) (a b : Tables) : Bool :=
  match n with
  | .node => decide (a.node = b.node)
  | .ring => decide (a.ring = b.ring)
  | .port => decide (a.port = b.port)
  | .cand => decide (a.cand = b.cand)
  | .servo => decide (a.servo = b.servo)
  | .thermal => decide (a.thermal = b.thermal)
  | .quality => decide (a.quality = b.quality)
  | .alarm => decide (a.alarm = b.alarm)

/-- The commands that start the part over from a reset: POWER_ON and RESETN. -/
def isHardReset : Instr → Bool
  | .powerOn _ => true
  | .resetn _ => true
  | _ => false

/-- The commands in which the servo may take a sample: a REFP pulse, and the arrival of a frame. -/
def mayBringSample : Instr → Bool
  | .refpPulse _ => true
  | .throughFrameArrival _ _ _ _ => true
  | .frameReceiveDiscard _ _ _ _ => true
  | .epochArrival _ _ _ _ => true
  | .spanProbeArrival _ _ _ _ => true
  | .spanReplyArrival _ _ _ _ => true
  | .rollArrival _ _ _ _ => true
  | .configArrival _ _ _ _ => true
  | .mgmtRequestArrival _ _ _ _ => true
  | .mgmtResponseArrival _ _ _ _ => true
  | _ => false

/-- The arrivals of frames: their periods, their port, their half and their frame. Ten rows of the table name them
(assumption 39). -/
def arrivalOf : Instr → Option (Nat × Port × Arrival × RawFrame)
  | .throughFrameArrival n via a f => some (n, via.port, a, f)
  | .frameReceiveDiscard n p a f => some (n, p, a, f)
  | .epochArrival n d a f => some (n, .line d, a, f)
  | .spanProbeArrival n d a f => some (n, .line d, a, f)
  | .spanReplyArrival n d a f => some (n, .line d, a, f)
  | .rollArrival n d a f => some (n, .line d, a, f)
  | .configArrival n d a f => some (n, .line d, a, f)
  | .mgmtRequestArrival n via a f => some (n, via.port, a, f)
  | .mgmtResponseArrival n d a f => some (n, .line d, a, f)
  | .accessSpanProbe n i a f => some (n, .access i, a, f)
  | _ => none

/-- The oscillator periods that pass before a command acts. -/
def periodsBefore : Instr → Nat
  | .powerOn n => n
  | .resetn n => n
  | .loadingEnd n => n
  | .linkDown n _ => n
  | .linkUp n _ => n
  | .guardChange n _ => n
  | .refpPulse n => n
  | .reftAnnouncement n _ => n
  | .missingSecond n => n
  | .qualifyTimeReached n _ => n
  | .originEntryExpiry n _ _ => n
  | .sensorReading n _ => n
  | .holdoverTick n => n
  | .pulseCrossing n _ => n
  | .epochInstantCrossing n => n
  | .accessEpochCrossing n _ => n
  | .probeInterval n _ => n
  | .replyWaitTimeout n _ => n
  | .takeoverTimeReached n => n
  | .revertWatchGapExpiry n => n
  | .revertHoldOffReached n => n
  | .rollClockTick n => n
  | .rollTimeout n => n
  | .headEntryExpiry n _ => n
  | .duplicateFlagExpiry n => n
  | .restoreTimeReached n _ => n
  | .soakEnd n _ => n
  | .relayTimeout n _ => n
  | .commitEnd n _ => n
  | .softRestartEffect n => n
  | .throughFrameArrival n _ _ _ => n
  | .frameReceiveDiscard n _ _ _ => n
  | .epochArrival n _ _ _ => n
  | .spanProbeArrival n _ _ _ => n
  | .spanReplyArrival n _ _ _ => n
  | .rollArrival n _ _ _ => n
  | .configArrival n _ _ _ => n
  | .mgmtRequestArrival n _ _ _ => n
  | .mgmtResponseArrival n _ _ _ => n
  | .accessSpanProbe n _ _ _ => n
  | .transmissionEnd n _ => n
  | .read n _ _ _ _ => n
  | .writeNode n _ _ => n
  | .writeRing n _ _ => n
  | .writePort n _ _ => n
  | .writeCandidate n _ _ => n
  | .writeServo n _ _ => n
  | .writeThermal n _ _ => n
  | .writeQuality n _ _ => n
  | .writeAlarmProfile n _ _ => n
  | .clearCounters n _ => n
  | .clearHistory n _ => n
  | .softRestart n _ => n
  | .reloadProfile n _ => n
  | .commitProfile n _ => n
  | .lockTable n _ _ _ => n
  | .unlockTable n _ _ => n
  | .select n _ _ => n
  | .clearSelect n _ => n

/-! ## What the consequences of an event leave alone -/

/-- A port less its queues, its transmitter, and its insert drops. -/
def PortIO.kept (x : PortIO) : PortIO := { x with queue := [], sending := none, through := [], insertDrops := 0 }

/-- A span less what its state and its probe's wait give. -/
def Span.kept (s : Span) : Span :=
  { s with state := .down, learned := none, df := none, accepted := 0, timeoutRun := 0, outstanding := none,
           mismatch := false, timeouts := 0, downs := 0 }

/-- A ring candidate's record less all but its last sample. -/
def CandRec.kept (r : CandRec) : CandRec := { Reset.cand false with last := r.last }

/-- The servo less its state, its steering, its queue and its runs. -/
def Servo.kept (s : Servo) : Servo :=
  { s with state := .freerun, integ := 0, fServo := 0, queue := [], lockRun := 0, unlockRun := 0, skipRun := 0,
           ungated := false }

/-- The epoch engine less its active state and watches. -/
def Epoch.kept (e : Epoch) : Epoch := { e with active := false, takeover := none, revert := none, takeovers := 0 }

/-- The roll engine less what its cycles give. -/
def Roll.kept (r : Roll) : Roll :=
  { Reset.roll with
    heads := r.heads, view := r.view, duplicate := r.duplicate, lateRolls := r.lateRolls,
    unknownHead := r.unknownHead, wrongDir := r.wrongDir, ownHead := r.ownHead, hopLimit := r.hopLimit,
    loopDrops := r.loopDrops, rejectedGen := r.rejectedGen, configDiscards := r.configDiscards,
    configDrops := r.configDrops, configDeferred := r.configDeferred, configRefused := r.configRefused }

/-- The blocks less everything that the consequences of an event may change within its step: the selection with what
it hands the servo, the own class and the access ports' states, a takeover with its first roll cycle, the alarm
points, the queues that own frames join, and a span's probe timeouts. What is left is kept by `finish`. -/
def Live.kept (v : Live) : Live :=
  { v with
    ts := { v.ts with fTotal := 0 }
    servo := v.servo.kept
    cands := ⟨{ v.cands.ref with state := .disabled }, v.cands.fwd.kept, v.cands.rev.kept⟩
    manual := none
    selection := none
    hold := Reset.hold
    ownClass := .q4
    io := v.io.map PortIO.kept
    spans := Pair.map Span.kept v.spans
    epoch := v.epoch.kept
    roll := v.roll.kept
    access := Quad.map (fun a => { a with state := .off, timer := none }) v.access
    alarms := Reset.alarms
    restartDue := false
    losses := [] }

/-! ## How a statement speaks of what follows -/

/-- The state with its blocks as given, and everything that follows from that within the same step. -/
def State.settled (s : State) (v : Live) : State := { s with live := finish s.tables v }

/-- Whether a request is served where it arrives: the part is RUNNING, and a request from a line port carries its relay
fields (R180, R186, R190). -/
def heardRequest (env : ReqEnv) (s : State) : Bool :=
  decide (s.live.part = .running) && match env.via with
    | .site _ => true
    | .line _ => env.relay.isSome

/-- Whether a port is receiving a frame whose first byte reached it at the given receive instant (R82). -/
def State.receiving (s : State) (p : Port) (rx : Stamp) : Bool :=
  (s.live.port p).link && decide ((s.live.port p).arriving = some rx)

/-- The state in which a port has received the whole of its frame (R82). -/
def State.taken (p : Port) (s : State) : State := { s with live := s.live.mapPort p PortIO.received }

/-- The blocks `n` oscillator periods on, where a port has then received the whole of its frame. -/
def State.arrived (n : Nat) (p : Port) (s : State) : Live := (s.live.elapse n).mapPort p PortIO.received

/-- Whether a frame that a port is receiving since the given instant is claimed there as the given frame: the port's link
is up, and the checks of R82 and the classification of R83 to R85 let it through to its owner. -/
def claimedAs (s : State) (p : Port) (rx : Stamp) (f : RawFrame) (q : Frame) : Bool :=
  s.receiving p rx && decide (verdict s.tables s.live p f = .claimed q)

/-- Whether a WRITE passes checks 1 to 6 of R181 at a table. -/
def writeAllowed (n : TableName) (env : ReqEnv) (w : WriteArgs) (s : State) : Bool :=
  decide (1 ≤ w.count) && decide (w.entries.length = w.count) && isRun w.first w.entries &&
    w.entries.all (fun e => decide (e.index ≤ lastIndex n)) && !guarded env s && decide (s.locks.get n = .opened) &&
    s.store.commit.isNone && (decide (n ≠ .ring) || decide (s.tables.node.role = .primary))

/-- The WRITE command of a table. -/
def writeCommand (n : TableName) (after : Nat) (env : ReqEnv) (w : WriteArgs) : Instr :=
  match n with
  | .node => .writeNode after env w
  | .ring => .writeRing after env w
  | .port => .writePort after env w
  | .cand => .writeCandidate after env w
  | .servo => .writeServo after env w
  | .thermal => .writeThermal after env w
  | .quality => .writeQuality after env w
  | .alarm => .writeAlarmProfile after env w

/-- The accepted samples of a window, its filtered offset, and whether its update is skipped (R17, R18). -/
def filteredOffset (s : Servo) : Int :=
  divZero (acceptedOffsets s.queue).sum (acceptedOffsets s.queue).length

def updateSkipped (c : ServoTable) (s : Servo) : Bool :=
  decide ((acceptedOffsets s.queue).length < (c.n + 1) / 2)

/-! ## Frames that are well formed (section 12.1, section 12.2, R192, R193) -/

def NsTime.wf (x : NsTime) : Bool := decide (x.sec < 1099511627776) && decide (x.ns < 1000000000)

def Slot.wf (s : Slot) : Bool := decide (s.summary ≤ 4) && decide (s.gen < 65536)

def slotWf : Option Slot → Bool
  | none => true
  | some s => s.wf

def EpochBody.wf (b : EpochBody) : Bool :=
  b.time.wf && decide (-9223372036854775808 ≤ b.corr) && decide (b.corr ≤ 9223372036854775807) && decide (b.rank ≤ 1)

def RollBody.wf (looped : Bool) (b : RollBody) : Bool :=
  decide (b.rank ≤ 1) && decide (b.headGen < 65536) && decide (b.slots.length = 32) && b.slots.all slotWf &&
    match b.loopId with
    | none => !looped
    | some i => looped && decide (i ≤ 31)

def ConfigBody.wf (target : Nat) (b : ConfigBody) : Bool :=
  decide (b.target = target) && decide (target ≤ 31) && ringInRange b.ring

def relayWf : Option RelayFields → Bool
  | none => true
  | some r => r.wf

def ReqBody.wf (b : ReqBody) : Bool :=
  relayWf b.relay && requestCoded b.op b.code && decide (b.code < 256) && decide (b.first < 65536) &&
    decide (b.count < 65536) && b.entries.all Entry.wf

def RespBody.wf (b : RespBody) : Bool := relayWf b.relay && decide (b.count < 65536) && b.entries.all Entry.wf

def NoticeBody.wf (b : NoticeBody) : Bool :=
  decide (b.node ≤ 31) && decide (b.record.kind ≤ 15) && decide (b.record.inst ≤ 3) &&
    decide (b.record.time < 281474976710656)

def Body.wf (h : Header) : Body → Bool
  | .epoch b => b.wf
  | .probe _ => true
  | .reply _ t2 t3 => t2.wf && t3.wf
  | .roll b => b.wf h.looped
  | .config b => b.wf h.target
  | .request b => b.wf
  | .response b => b.wf
  | .notice b => b.wf

/-- A header whose fields fit their bytes and whose ids are node ids or 255. -/
def Header.wf (h : Header) : Bool :=
  decide (h.ring < 256) && decide (h.hops ≤ 31) && idOk h.origin && idOk h.sender && idOk h.target

/-- A frame that chapter 12 can carry: its fields within their ranges, and its body within the two bytes of its
length. -/
def Frame.wf (f : Frame) : Bool := f.hdr.wf && f.body.wf f.hdr && decide ((encodeBody f.body).length < 65536)

end Sys2Proof.Machine
end

