-- ==== Sys2Proof/Certificates/Slice0/Obligations.lean ====
section
/-! DEFINITION. The statements about the part, each a proposition over the model's own definitions. -/

open Sys2Proof Sys2Proof.Machine

/-! ## The queue of commands -/

/-- A command at the front of the queue acts on the state with the queue's rest. With no command waiting, the events
that the part's own clocks bring join the queue, and with none due one oscillator period passes: the model's choice
(assumption 4). -/
def Obligations.StepTakesTheFrontCommand : Prop :=
  (∀ (c : Instr) (rest : List Instr) (s : State),
    step { s with pending := c :: rest } = exec c { s with pending := rest }) ∧
  (∀ s : State, s.pending = [] →
    (dueEvents s.tables s.live = [] → step s = .next (s.elapse 1)) ∧
    (dueEvents s.tables s.live ≠ [] → step s = .next { s with pending := dueEvents s.tables s.live }))

/-- Every command answers a next state from every state, and leaves the queue to the step. Rests on the model's
choices in assumptions 33, 3, 39, 40. -/
def Obligations.EveryCommandLeavesTheQueue : Prop :=
  ∀ (c : Instr) (s : State), ∃ t : State, exec c s = .next t ∧ t.pending = s.pending

/-! ## Resets -/

/-- The state right after power-on, item by item, and each block's record at a reset, which the statements about the
resets name (R8, R26, R32, R62, R71, R102, R121, R140, R151, R164, R177, R190, R191). The store is one that has never
been committed; links, GUARD, unit serial, and J and J_p of 0 until RUNNING sets them, are the model's choice
(assumption 2); every access port is taken as OFF until LOADING ends. -/
def Obligations.ResetHoldsTheChaptersValues : Prop :=
  State.reset.pending = [] ∧ State.reset.live.part = .loading ∧
  State.reset.live.ts.value = { sec := 0, ns := 0, ps := 0 } ∧ State.reset.live.ts.rem = 0 ∧
  State.reset.live.ts.steps = 0 ∧ State.reset.live.ts.fTotal = 0 ∧ (∀ i, State.reset.live.ts.k.get i = 1) ∧
  State.reset.live.servo.state = .freerun ∧ State.reset.live.servo.integ = 0 ∧
  State.reset.live.servo.fServo = 0 ∧ State.reset.live.servo.history = [] ∧
  State.reset.live.cands.ref.state = .disabled ∧ State.reset.live.cands.fwd.state = .unavailable ∧
  State.reset.live.cands.rev.state = .unavailable ∧ State.reset.live.selection = none ∧
  State.reset.live.manual = none ∧ State.reset.live.thermal.sensor = .starting ∧
  State.reset.live.thermal.zone = none ∧ State.reset.live.ownClass = .q4 ∧
  (∀ d, (State.reset.live.span d).state = .down) ∧ State.reset.live.epoch.active = false ∧
  State.reset.live.roll.status = .unknown ∧ (∀ i, (State.reset.live.access.get i).state = .off) ∧
  State.reset.live.alarms.history = [] ∧ State.reset.live.alarms.summary = none ∧
  State.reset.live.mgmt.seq = 0 ∧ State.reset.tables = Config.builtIn 0 ∧
  (∀ n, State.reset.locks.get n = .opened) ∧ State.reset.store.image = none ∧
  State.reset.live.storeFault = true ∧
  (State.reset.live.ts = Reset.ts ∧ State.reset.live.servo = Reset.servo ∧
    State.reset.live.refIn = Reset.refIn Reset.stamp ∧ State.reset.live.thermal = Reset.thermal ∧
    State.reset.live.hold = Reset.hold ∧ (∀ d, State.reset.live.span d = Reset.span) ∧
    State.reset.live.epoch = Reset.epoch ∧ State.reset.live.roll = Reset.roll ∧
    (∀ i, State.reset.live.access.get i = Reset.access) ∧ State.reset.live.alarms = Reset.alarms ∧
    State.reset.live.mgmt = Reset.mgmt ∧ (∀ p, State.reset.live.port p = Reset.port false)) ∧
  Reset.ts = { value := { sec := 0, ns := 0, ps := 0 }, rem := 0, steps := 0, fTotal := 0, k := ⟨1, 1, 1, 1⟩ } ∧
  Reset.servo =
    { state := .freerun, integ := 0, fServo := 0, queue := [], lockRun := 0, unlockRun := 0, skipRun := 0,
      ungated := false, lastTheta := 0, phaseUnstable := false, history := [], phaseSteps := 0, gated := 0,
      skipped := 0 } ∧
  (∀ b, Reset.cand b =
    { state := if b then .unavailable else .disabled, offered := .q4, hops := none, preferred := none, origins := [],
      last := none, qual := none }) ∧
  (∀ now, Reset.refIn now = { pending := none, unusable := 0, expected := none, watch := now, jumps := 0 }) ∧
  Reset.thermal =
    { sensor := .starting, lastRaw := none, lastTemp := none, sinceGood := none, zone := none, fTemp := 0,
      next := 125000000 } ∧
  Reset.hold = { fHold := none, t := 0, d := 0, e0 := 0, e := 0, aging := 0, nextTick := none } ∧
  (∀ link, Reset.port link =
    { link := link, arriving := none, queue := [], sending := none, through := [], insertDrops := 0,
      throughDrops := 0, fcs := 0, short := 0, overrun := 0, malformed := 0, misdirected := 0, linkLost := false }) ∧
  Reset.span =
    { state := .down, learned := none, df := none, last := none, accepted := 0, timeoutRun := 0, fcsCount := 0,
      probeSeq := 0, outstanding := none, mismatch := false, nextProbe := none, timeouts := 0, unmatched := 0,
      rejected := 0, downs := 0 } ∧
  Reset.epoch =
    { active := false, takeover := none, revert := none, origSeq := 0, j := 0, notUp := ⟨0, 0⟩, wrongDir := ⟨0, 0⟩,
      ownOrigin := 0, hopLimit := 0, unknownOrigin := 0, fwdDrops := 0, takeovers := 0, reverts := 0 } ∧
  Reset.roll =
    { seq := 0, cycle := none, clock := none
      map := List.replicate 32 { presence := .unknown, slot := none, miss := 0, mergeRev := none, mergeGen := none,
                                 config := none, marker := false }
      status := .unknown, fwd := none, rev := none, cycleTime := none, cycleMin := none, cycleMax := none
      heads := [], view := none, duplicate := none, rollTimeouts := 0, lateRolls := 0, loopSwitches := 0
      unknownHead := 0, wrongDir := ⟨0, 0⟩, ownHead := 0, hopLimit := 0, loopDrops := 0, rejectedGen := none
      configSeq := 0, lastServed := none, configSent := 0, configDiscards := 0, configDrops := 0, configDeferred := 0
      configRefused := 0 } ∧
  Reset.access =
    { state := .off, timer := none, jp := 0, epochSeq := 0, lastClass := none, lastPulse := none, sent := 0,
      replies := 0, unanswered := 0 } ∧
  Reset.alarms =
    { points := List.replicate 21 { state := .clear, soak := none, cond := false, severity := none, raises := 0 }
      history := [], overwrites := 0, summary := none, notices := ⟨0, 0⟩ } ∧
  Reset.mgmt =
    { relays := List.replicate 8 { rseq := 0, entry := none }, seq := 0, executed := 0, relayed := 0, discards := 0,
      drops := 0, late := 0 }

/-- POWER_ON (R8, R26, R62, R86, R188, R190, R191): the part is LOADING, every block is at its power-on state, the
tables and locks come from a valid image, or else the tables are the built-in ones, every table is OPEN and
STORE-FAULT holds. A commit in progress is interrupted, and leaves no valid image. The validity of the image at this
load is kept, and as the result of the last commit INTERRUPTED where one was running, and otherwise none (assumption
30). During LOADING the built-in frame type alone is the vendor frame type (R86). The unit serial stays the unit's
own. Rests on the model's choices in assumptions 1, 30, 31, 32. -/
def Obligations.PowerOnLoadsTheStore : Prop :=
  ∀ (n : Nat) (s : State), ∃ t : State, exec (.powerOn n) s = .next t ∧ t.pending = s.pending ∧
    t.live.part = .loading ∧ t.live.ts = Reset.ts ∧ t.live.servo = Reset.servo ∧ t.live.thermal = Reset.thermal ∧
    t.live.hold = Reset.hold ∧ t.live.roll = Reset.roll ∧ t.live.epoch = Reset.epoch ∧
    t.live.alarms = Reset.alarms ∧ t.live.mgmt = Reset.mgmt ∧ t.live.selection = none ∧ t.live.manual = none ∧
    t.live.ownClass = .q4 ∧ t.live.refIn = Reset.refIn Reset.stamp ∧
    (∀ c, t.live.cands.get c = Reset.cand (candEnabled t.tables c)) ∧ (∀ d, t.live.span d = Reset.span) ∧
    (∀ i, t.live.access.get i = Reset.access) ∧ t.live.guard = s.live.guard ∧
    (∀ p, t.live.port p = Reset.port (s.live.port p).link) ∧ t.store.commit = none ∧
    t.live.nodeKept = false ∧ t.live.restartDue = false ∧ t.live.losses = [] ∧
    t.store.validAtLoad = (s.store.image.isSome && s.store.commit.isNone) ∧
    t.store.lastCommit = (if s.store.commit = none then none else some .interrupted) ∧
    (∀ i, s.store.image = some i → s.store.commit = none →
      t.tables = { i.tables with node := { i.tables.node with serial := s.tables.node.serial } } ∧
      t.locks = i.locks ∧ t.live.storeFault = false ∧ t.store.image = some i) ∧
    (s.store.image = none ∨ s.store.commit ≠ none →
      t.tables = Config.builtIn s.tables.node.serial ∧ (∀ m, t.locks.get m = .opened) ∧
      t.live.storeFault = true ∧ t.store.image = none)

/-- RESETN (R86, R188, R190): as power-on, but each table that was LOCKED-DOWN keeps its running contents and stays
LOCKED-DOWN; every other one is loaded from a valid image with its start-up lock, or takes the built-in contents and
OPEN. A commit in progress is interrupted and leaves no valid image; STORE-FAULT holds exactly where no valid image is
to be had. A LOCKED-DOWN NODE table keeps its frame type in force during LOADING beside the built-in one (R86). Rests
on the model's choices in assumptions 1, 30, 31, 32. -/
def Obligations.ResetPinKeepsLockedDownTables : Prop :=
  ∀ (n : Nat) (s : State), ∃ t : State, exec (.resetn n) s = .next t ∧ t.pending = s.pending ∧
    t.live.part = .loading ∧ t.live.ts = Reset.ts ∧ t.live.servo = Reset.servo ∧ t.live.thermal = Reset.thermal ∧
    t.live.hold = Reset.hold ∧ t.live.roll = Reset.roll ∧ t.live.epoch = Reset.epoch ∧
    t.live.alarms = Reset.alarms ∧ t.live.mgmt = Reset.mgmt ∧ t.live.selection = none ∧ t.live.manual = none ∧
    t.live.ownClass = .q4 ∧ t.live.refIn = Reset.refIn Reset.stamp ∧
    (∀ c, t.live.cands.get c = Reset.cand (candEnabled t.tables c)) ∧ (∀ d, t.live.span d = Reset.span) ∧
    (∀ i, t.live.access.get i = Reset.access) ∧ t.live.guard = s.live.guard ∧
    (∀ p, t.live.port p = Reset.port (s.live.port p).link) ∧ t.store.commit = none ∧
    t.live.nodeKept = decide (s.locks.node = .lockedDown) ∧ t.live.restartDue = false ∧ t.live.losses = [] ∧
    t.live.storeFault = (s.store.image.isNone || s.store.commit.isSome) ∧
    t.store.image = (if s.store.commit = none then s.store.image else none) ∧
    t.store.validAtLoad = (s.store.image.isSome && s.store.commit.isNone) ∧
    t.store.lastCommit = (if s.store.commit = none then s.store.lastCommit else some .interrupted) ∧
    (∀ m, s.locks.get m = .lockedDown → t.locks.get m = .lockedDown ∧ Tables.agreeOn m t.tables s.tables = true) ∧
    (∀ m i, s.locks.get m ≠ .lockedDown → s.store.image = some i → s.store.commit = none →
      t.locks.get m = i.locks.get m ∧
      Tables.agreeOn m t.tables
        { i.tables with node := { i.tables.node with serial := s.tables.node.serial } } = true) ∧
    (∀ m, s.locks.get m ≠ .lockedDown → s.store.image = none ∨ s.store.commit ≠ none →
      t.locks.get m = .opened ∧ Tables.agreeOn m t.tables (Config.builtIn s.tables.node.serial) = true)

/-- LOADING_END (R95, R102, R104, R105, R114, R158, R164, R177, R190): a part that is LOADING enters RUNNING with its
tables, locks and time scale as they stand; each access port first takes its state, OFF where its mode is OFF, else
SQUELCHED under SQUELCH and DEGRADED otherwise, and its J_p, the first epoch instant above the time value; the alarm
points then take the conditions held at start, SPAN-DOWN of a DOWN span among them, which begins its raise soak or,
where that is 0, is RAISED at once; then the probe clock of each line port starts, LE and then LW, J is set to the
first epoch instant above the time value, and the primary origin becomes active or the standby origin starts its
takeover watch at 0. In RUNNING the event does not arise, and nothing but time passes. That the points come before the
probe clocks is the model's order (assumption 19). Rests on the model's choices in assumptions 1, 3, 19. -/
def Obligations.LoadingEndEntersRunning : Prop :=
  (∀ (n : Nat) (s : State),
    (s.live.part = .loading → ∃ t : State, exec (.loadingEnd n) s = .next t ∧ t.live.part = .running ∧
      t.tables = s.tables ∧ t.locks = s.locks ∧ t.store = s.store ∧
      t.live.ts.value = (s.live.elapse n).ts.value ∧ t.live.ts.steps = s.live.ts.steps ∧
      t.live.ts.k = s.live.ts.k ∧
      (∀ d, (t.live.span d).nextProbe = some (s.live.osc + n + 125000000)) ∧
      (originRole s.tables = .primary → t.live.epoch.active = true) ∧
      ∃ u : Live, u = takeConditions s.tables { s.live.elapse n with part := .running, nodeKept := false } ∧
        t.live = finish s.tables (takeUp s.tables u) ∧
        (∀ (i : Fin 4) (cfg : AccessCfg), cfg = s.tables.port.access.get i → u.access.get i = { Reset.access with
          state := if cfg.mode = .off then .off else if cfg.loss = .squelch then .squelched else .degraded
          jp := epochAbove cfg.rate (s.live.elapse n).ts.value.toPs }) ∧
        (s.live.alarms.points = List.replicate 21 Reset.point →
          ∀ (d : Side) (i : Nat), i = (match d with | .east => 6 | .west => 7) → (s.live.span d).state = .down →
            (u.span d).state = .down ∧
            (0 < (pointCfg s.tables i).raiseSoak → u.alarms.points[i]? = some { Reset.point with
              state := .raising, soak := some (s.live.osc + n), cond := true }) ∧
            ((pointCfg s.tables i).raiseSoak = 0 → u.alarms.points[i]? = some { Reset.point with
              state := .raised, cond := true, severity := some (pointCfg s.tables i).severity, raises := 1 }))) ∧
    (s.live.part = .running → exec (.loadingEnd n) s = .next (s.elapse n))) ∧
  (∀ (t : Tables) (v w x : Live),
    takeConditions t v =
      refreshAlarms t (startAccess t 3 (startAccess t 2 (startAccess t 1 (startAccess t 0 v)))) ∧
    (∀ (i : Fin 4) (cfg : AccessCfg), cfg = t.port.access.get i →
      startAccess t i v = v.mapAccess i (fun _ => { Reset.access with
        state := if cfg.mode = .off then .off else if cfg.loss = .squelch then .squelched else .degraded
        jp := epochAbove cfg.rate v.ts.value.toPs })) ∧
    (∀ d, startProbeClock t d v =
      beginInterval t d (v.mapSpan d (fun y => { y with nextProbe := some (v.osc + 125000000) }))) ∧
    (w = startProbeClock t .west (startProbeClock t .east v) →
      x = { w with epoch := { w.epoch with j := epochAbove t.ring.rate w.ts.value.toPs } } →
      (originRole t = .primary → takeUp t v = becomeActive t x) ∧
      (originRole t = .standby → takeUp t v = { x with epoch := { x.epoch with
        takeover := some { since := x.now, base := 0 } } }) ∧
      (originRole t = .none → takeUp t v = x)))

/-- SOFT_RESTART_EFFECT (R8, R26, R32, R62, R64, R71, R102, R121, R140, R151, R164, R177, R191): the tables, the
locks, the image and a commit in progress are kept; so are the time value, the remainder, the step total, K, the
thermal unit, the integrator, which F_servo takes, the holdover history, the alarm history and the relay sequences;
every relay ends, the management sequence and counters are 0, and every insert queue is emptied, the counters and the
link-lost flag of each port cleared, with the frame in transmission and the through path running on. Candidates, REF
input, selection, own class, holdover tick, spans, access ports, epoch engine and roll engine stand at their reset
values when the blocks take up their work. The points take the conditions held at start before the blocks take up
their work (assumption 19). The response of a second SOFT-RESTART that waits in an emptied queue brings no second
restart (assumption 67). Rests on the model's choices in assumptions 1, 19, 67. -/
def Obligations.SoftRestartKeepsWhatItMust : Prop :=
  ∀ (n : Nat) (s : State), s.live.part = .running → s.live.restartDue = true →
    ∃ t : State, exec (.softRestartEffect n) s = .next t ∧ t.pending = s.pending ∧ t.live.part = .running ∧
      t.tables = s.tables ∧ t.locks = s.locks ∧ t.store = s.store ∧
      t.live.ts.value = (s.live.elapse n).ts.value ∧ t.live.ts.rem = (s.live.elapse n).ts.rem ∧
      t.live.ts.steps = s.live.ts.steps ∧ t.live.ts.k = s.live.ts.k ∧ t.live.thermal = s.live.thermal ∧
      t.live.servo.state = .freerun ∧ t.live.servo.integ = s.live.servo.integ ∧
      t.live.servo.history = s.live.servo.history ∧ t.live.selection = none ∧ t.live.manual = none ∧
      t.live.mgmt = { Reset.mgmt with relays := s.live.mgmt.relays.map (fun r => { r with entry := none }) } ∧
      ∃ r u : Live, r = softReset s.tables (s.live.elapse n) ∧
        u = takeConditions s.tables { r with part := .running } ∧ t.live = finish s.tables (takeUp s.tables u) ∧
        r.servo = { Reset.servo with
          integ := s.live.servo.integ, fServo := s.live.servo.integ, history := s.live.servo.history } ∧
        r.ts.fTotal = max (-100000000) (min 100000000 (s.live.servo.integ + s.live.thermal.fTemp)) ∧
        (∀ c, r.cands.get c = Reset.cand (candEnabled s.tables c)) ∧
        r.refIn = Reset.refIn (s.live.elapse n).now ∧ r.selection = none ∧ r.manual = none ∧ r.ownClass = .q4 ∧
        r.hold = { s.live.hold with nextTick := none } ∧ (∀ i, r.access.get i = Reset.access) ∧
        r.epoch = Reset.epoch ∧ r.roll = Reset.roll ∧ r.restartDue = false ∧ r.losses = [] ∧
        r.alarms = { Reset.alarms with
          history := s.live.alarms.history, overwrites := s.live.alarms.overwrites } ∧
        r.alarms.points = List.replicate 21 Reset.point ∧ (∀ d, r.span d = Reset.span) ∧
        (∀ p, r.port p = { s.live.port p with
          queue := [], insertDrops := 0, throughDrops := 0, fcs := 0, short := 0, overrun := 0, malformed := 0
          misdirected := 0, linkLost := false }) ∧
        ∀ (d : Side) (i : Nat), i = (match d with | .east => 6 | .west => 7) →
          (0 < (pointCfg s.tables i).raiseSoak → u.alarms.points[i]? = some { Reset.point with
            state := .raising, soak := some (s.live.osc + n), cond := true }) ∧
          ((pointCfg s.tables i).raiseSoak = 0 → u.alarms.points[i]? = some { Reset.point with
            state := .raised, cond := true, severity := some (pointCfg s.tables i).severity, raises := 1 })

/-! ## The time scale -/

/-- R1: `n` periods under one F_total add exactly `n` times 10^12 + F_total units of 1/125,000,000 ps, modulo 2^40 s,
and leave a time value and a remainder within their ranges; no fraction is lost where time is taken in parts. -/
def Obligations.AdvanceIsExact : Prop :=
  ∀ (m n : Nat) (x : TimeScale), 0 ≤ 1000000000000 + x.fTotal →
    (x.advance n).value.wf = true ∧ (x.advance n).rem < 125000000 ∧
    (((x.advance n).value.toPs * 125000000 + (x.advance n).rem : Nat) : Int) =
      (x.value.toPs * 125000000 + x.rem + n * (1000000000000 + x.fTotal)) % (wrapPs * 125000000 : Nat) ∧
    (x.advance m).advance n = x.advance (m + n)

/-- R4, R6, R105, R158: a step of `d` ns moves the time value and the step total alike and leaves the remainder and
F_total; every K, J and J_p is the first above the new time value; so an interval to this instant is the same, modulo
2^40 s, as it was before the step (R3). -/
def Obligations.StepMovesTimeAndTotalAlike : Prop :=
  ∀ (t : Tables) (d : Int) (v : Live),
    (((v.stepTime t d).ts.value.toPs : Nat) : Int) = (v.ts.value.toPs + d * 1000) % (wrapPs : Nat) ∧
    (v.stepTime t d).ts.steps = v.ts.steps + d * 1000 ∧ (v.stepTime t d).ts.rem = v.ts.rem ∧
    (v.stepTime t d).ts.fTotal = v.ts.fTotal ∧
    (∀ i, (v.stepTime t d).ts.k.get i =
      boundaryAbove (t.port.access.get i).advance (v.stepTime t d).ts.value.toPs) ∧
    (v.stepTime t d).epoch.j = epochAbove t.ring.rate (v.stepTime t d).ts.value.toPs ∧
    (∀ i, ((v.stepTime t d).access.get i).jp =
      epochAbove (t.port.access.get i).rate (v.stepTime t d).ts.value.toPs) ∧
    (∀ a : Stamp, (interval a (v.stepTime t d).now - interval a v.now) % (wrapPs : Nat) = 0)

/-- PULSE_CROSSING and ACCESS_EPOCH_CROSSING (R6, R157, R158, R159, R160): at a crossing point reached, the pulse of
boundary K is driven where the mode is PULSE or BOTH and the state is DELIVER or DEGRADED under CONTINUE, and K moves
on by one; at J_p reached, an EPOCH is formed where the mode is FRAMES or BOTH, the state is DELIVER or DEGRADED, and
the link is up, and J_p moves on, formed or not. The EPOCH bears this node's id as origin and sender, the port's next
EPOCH sequence, hop count 0, rank 0, correction 0, and the own class, or Q4 where the port is DEGRADED under MARK.
Rests on the model's choices in assumptions 1, 3, 44. -/
def Obligations.CrossingsAtAnAccessPort : Prop :=
  ∀ (n : Nat) (i : Fin 4) (s : State) (v : Live) (cfg : AccessCfg) (a : AccessPort) (cls : QClass),
    v = s.live.elapse n → cfg = s.tables.port.access.get i → a = v.access.get i →
    cls = (if a.state = .degraded ∧ cfg.loss = .mark then .q4 else v.ownClass) →
    (drivesPulses cfg a.state = true ↔
      (cfg.mode = .pulse ∨ cfg.mode = .both) ∧ (a.state = .deliver ∨ a.state = .degraded ∧ cfg.loss = .continue)) ∧
    (sendsEpochs cfg a.state = true ↔
      (cfg.mode = .frames ∨ cfg.mode = .both) ∧ (a.state = .deliver ∨ a.state = .degraded)) ∧
    formAccessEpoch s.tables i v = hand (.access i)
      (mkFrame s.tables
        { ring := s.tables.node.ringId, rev := false, looped := false, origin := s.tables.node.id,
          sender := s.tables.node.id, target := 255, hops := 0, seq := a.epochSeq + 1 }
        (.epoch { time := ⟨v.ts.value.sec, v.ts.value.ns⟩, corr := 0, cls := cls, rank := 0 }) .origEpoch)
      (v.mapAccess i (fun x => { x with epochSeq := a.epochSeq + 1, lastClass := some cls })) ∧
    (pulseDue i s.tables v = true →
      exec (.pulseCrossing n i) s = .next (s.settled
        { v with
          access := if drivesPulses cfg a.state then v.access.set i { a with lastPulse := some (v.ts.k.get i) }
            else v.access
          ts := { v.ts with k := v.ts.k.set i ((v.ts.k.get i + 1) % 1099511627776) } })) ∧
    (s.live.part = .running → reachedNs a.jp v.ts.value.toPs = true →
      exec (.accessEpochCrossing n i) s = .next (s.settled
        ((if sendsEpochs cfg a.state && (v.port (.access i)).link
          then formAccessEpoch s.tables i v else v).mapAccess i
            (fun x => { x with jp := (a.jp + 1000000000 / cfg.rate) % (1099511627776 * 1000000000) }))))

/-- EPOCH_INSTANT_CROSSING (R105, R106): at J reached, an active origin originates under the next sequence, east and
then west, at each port whose span is not DOWN, and forms nothing at a DOWN one; J moves to the following epoch instant,
active or not. The EPOCH bears this node's id as origin and sender, the direction of its port, the own class, the
origin's rank, correction 0 and hop count 0. That the EPOCH on LE comes before the one on LW is the model's choice
(assumption 69). Rests on the model's choices in assumptions 1, 3, 44, 69. -/
def Obligations.EpochInstantMovesOn : Prop :=
  (∀ (t : Tables) (d : Side) (seq : Seq16) (v : Live),
    ((v.span d).state = .down → originateOn t d seq v = v) ∧
    ((v.span d).state ≠ .down → originateOn t d seq v = hand (.line d)
      (mkFrame t
        { ring := t.node.ringId, rev := decide (d = .west), looped := false, origin := t.node.id,
          sender := t.node.id, target := 255, hops := 0, seq := seq }
        (.epoch { time := ⟨v.ts.value.sec, v.ts.value.ns⟩, corr := 0, cls := v.ownClass
                  rank := if originRole t = .standby then 1 else 0 }) .origEpoch) v)) ∧
  ∀ (n : Nat) (s : State) (v : Live), v = s.live.elapse n → s.live.part = .running →
    reachedNs v.epoch.j v.ts.value.toPs = true →
    ∃ t : State, exec (.epochInstantCrossing n) s = .next t ∧ t.tables = s.tables ∧ t.locks = s.locks ∧
      t.live.epoch.j = (v.epoch.j + 1000000000 / s.tables.ring.rate) % (1099511627776 * 1000000000) ∧
      t.live.epoch.origSeq = (if v.epoch.active then v.epoch.origSeq + 1 else v.epoch.origSeq) ∧
      t = s.settled
        (let w := if v.epoch.active
          then originateOn s.tables .west (v.epoch.origSeq + 1)
            (originateOn s.tables .east (v.epoch.origSeq + 1)
              { v with epoch := { v.epoch with origSeq := v.epoch.origSeq + 1 } })
          else v
         { w with epoch := { w.epoch with j := epochAfter s.tables.ring.rate v.epoch.j } })

/-! ## The servo -/

/-- R18, R19: an update that is not skipped takes θ_f. In ACQUIRE above the step threshold it steps the time scale by
−θ_f, with the lock run at 0 and the step counted, and steers nothing; in ACQUIRE at or below it, and in LOCKED, it
makes no step and steers: r, P and I_new are as the five steps give them, each division and shift rounding toward zero;
F_total follows. -/
def Obligations.PiUpdateSteers : Prop :=
  ∀ (t : Tables) (v : Live) (theta : Int),
    updateSkipped t.servo v.servo = false → theta = filteredOffset v.servo →
    (v.servo.state = .acquire → (t.servo.stepThr : Int) < theta.natAbs →
      servoUpdate t v = Live.stepTime t (-theta) { v with servo := { v.servo with
        queue := [], ungated := false, skipRun := 0, lockRun := 0
        phaseSteps := min 65535 (v.servo.phaseSteps + 1), lastTheta := theta } }) ∧
    (v.selection = some .ref → sampleRate t v = 1) ∧
    (v.selection = some .fwd ∨ v.selection = some .rev → sampleRate t v = t.ring.rate) ∧
    (∀ r p iNew : Int,
      v.servo.state = .locked ∨ v.servo.state = .acquire ∧ (theta.natAbs : Int) ≤ t.servo.stepThr →
      r = Int.tdiv (theta * 1000 * sampleRate t v) t.servo.n →
      p = -(Int.tdiv r (2 ^ t.servo.kp)) →
      iNew = max (-(t.servo.limit : Int)) (min t.servo.limit (v.servo.integ - Int.tdiv r (2 ^ t.servo.ki))) →
      (servoUpdate t v).servo.integ = iNew ∧
      (servoUpdate t v).servo.fServo = max (-(t.servo.limit : Int)) (min t.servo.limit (iNew + p)) ∧
      (servoUpdate t v).servo.lastTheta = theta ∧ (servoUpdate t v).servo.queue = [] ∧
      (servoUpdate t v).servo.ungated = false ∧ (servoUpdate t v).servo.skipRun = 0 ∧
      (servoUpdate t v).ts.value = v.ts.value ∧ (servoUpdate t v).ts.steps = v.ts.steps ∧
      (servoUpdate t v).ts.fTotal =
        max (-100000000) (min 100000000 ((servoUpdate t v).servo.fServo + v.thermal.fTemp)))

/-- R20: a PI update in ACQUIRE counts toward lock at or below the lock threshold and sets the run to 0 above it, as a
step does; at a run of 4 the servo enters LOCKED with its runs at 0, the flag and the PHASE-UNSTABLE condition clear,
the next window gated around the θ_f just taken; the holdover history gains nothing. -/
def Obligations.LockRunReachesLocked : Prop :=
  ∀ (t : Tables) (v : Live) (theta : Int), v.servo.state = .acquire → updateSkipped t.servo v.servo = false →
    theta = filteredOffset v.servo →
    (servoUpdate t v).servo.history = v.servo.history ∧ (servoUpdate t v).servo.lastTheta = theta ∧
    (t.servo.stepThr < theta.natAbs →
      (servoUpdate t v).servo.lockRun = 0 ∧ (servoUpdate t v).servo.state = .acquire) ∧
    (theta.natAbs ≤ t.servo.stepThr → t.servo.lockThr < theta.natAbs →
      (servoUpdate t v).servo.lockRun = 0 ∧ (servoUpdate t v).servo.state = .acquire) ∧
    (theta.natAbs ≤ t.servo.stepThr → theta.natAbs ≤ t.servo.lockThr → v.servo.lockRun + 1 < 4 →
      (servoUpdate t v).servo.lockRun = v.servo.lockRun + 1 ∧ (servoUpdate t v).servo.state = .acquire) ∧
    (theta.natAbs ≤ t.servo.stepThr → theta.natAbs ≤ t.servo.lockThr → 4 ≤ v.servo.lockRun + 1 →
      (servoUpdate t v).servo.state = .locked ∧ (servoUpdate t v).servo.lockRun = 0 ∧
      (servoUpdate t v).servo.unlockRun = 0 ∧ (servoUpdate t v).servo.skipRun = 0 ∧
      (servoUpdate t v).servo.ungated = false ∧ (servoUpdate t v).servo.phaseUnstable = false)

/-- R21, R22: a PI update in LOCKED above the unlock threshold grows the unlock run, and at or below it sets the run to
0; at a run of 3 the servo enters ACQUIRE with its runs at 0 and raises PHASE-UNSTABLE, its PI result standing; while
it stays LOCKED its I_new joins the holdover history, the oldest of 64 leaving. -/
def Obligations.UnlockRunReturnsToAcquire : Prop :=
  ∀ (t : Tables) (v : Live) (theta iNew : Int), v.servo.state = .locked → updateSkipped t.servo v.servo = false →
    theta = filteredOffset v.servo → iNew = (servoUpdate t v).servo.integ →
    (theta.natAbs ≤ t.servo.unlockThr →
      (servoUpdate t v).servo.unlockRun = 0 ∧ (servoUpdate t v).servo.state = .locked ∧
      (servoUpdate t v).servo.history =
        (if v.servo.history.length < 64 then v.servo.history else v.servo.history.drop 1) ++ [iNew]) ∧
    (t.servo.unlockThr < theta.natAbs → v.servo.unlockRun + 1 < 3 →
      (servoUpdate t v).servo.unlockRun = v.servo.unlockRun + 1 ∧ (servoUpdate t v).servo.state = .locked ∧
      (servoUpdate t v).servo.history =
        (if v.servo.history.length < 64 then v.servo.history else v.servo.history.drop 1) ++ [iNew]) ∧
    (t.servo.unlockThr < theta.natAbs → 3 ≤ v.servo.unlockRun + 1 →
      (servoUpdate t v).servo.state = .acquire ∧ (servoUpdate t v).servo.phaseUnstable = true ∧
      (servoUpdate t v).servo.lockRun = 0 ∧ (servoUpdate t v).servo.unlockRun = 0 ∧
      (servoUpdate t v).servo.skipRun = 0 ∧ (servoUpdate t v).servo.history = v.servo.history ∧
      iNew = nextInteg t.servo v.servo.integ
        (frequencyError theta (sampleRate t v) t.servo.n))

/-- R17: a window with fewer than half its N samples accepted, rounded up, is skipped: the steering, last θ_f, the time
and the history stand; the lock and unlock runs are 0; in LOCKED the skip run grows, and at 3 the servo enters
ACQUIRE, with PHASE-UNSTABLE as it was. An update that is not skipped leaves the skip run at 0. -/
def Obligations.SkippedUpdateLeavesTheSteering : Prop :=
  ∀ (t : Tables) (v : Live),
    (updateSkipped t.servo v.servo = true ↔ (acceptedOffsets v.servo.queue).length < (t.servo.n + 1) / 2) ∧
    (updateSkipped t.servo v.servo = false → (servoUpdate t v).servo.skipRun = 0) ∧
    (updateSkipped t.servo v.servo = true →
    (servoUpdate t v).ts = v.ts ∧ (servoUpdate t v).servo.integ = v.servo.integ ∧
    (servoUpdate t v).servo.fServo = v.servo.fServo ∧ (servoUpdate t v).servo.lastTheta = v.servo.lastTheta ∧
    (servoUpdate t v).servo.history = v.servo.history ∧ (servoUpdate t v).servo.queue = [] ∧
    (servoUpdate t v).servo.ungated = false ∧ (servoUpdate t v).servo.lockRun = 0 ∧
    (servoUpdate t v).servo.unlockRun = 0 ∧ (servoUpdate t v).servo.skipped = min 65535 (v.servo.skipped + 1) ∧
    (servoUpdate t v).servo.phaseUnstable = v.servo.phaseUnstable ∧
    (v.servo.state = .locked → v.servo.skipRun + 1 < 3 →
      (servoUpdate t v).servo.state = .locked ∧ (servoUpdate t v).servo.skipRun = v.servo.skipRun + 1) ∧
    (v.servo.state = .locked → 3 ≤ v.servo.skipRun + 1 →
      (servoUpdate t v).servo.state = .acquire ∧ (servoUpdate t v).servo.skipRun = 0) ∧
    (v.servo.state ≠ .locked →
      (servoUpdate t v).servo.state = v.servo.state ∧ (servoUpdate t v).servo.skipRun = v.servo.skipRun))

/-- R14, R15, R16: what becomes of a sample. In ACQUIRE one of a second or more coarse-sets the time by −θ and is not
queued; a smaller one joins the queue accepted. In LOCKED one of a second or more, or beyond the gate of a gated
window, joins the queue rejected and is counted; any other joins it accepted. A sample that brings the queue to N
entries makes an update at that instant, on the entries then held, and every update leaves the queue empty. In FREERUN
and HOLDOVER no sample reaches the servo. -/
def Obligations.SamplesAreTakenByState : Prop :=
  ∀ (t : Tables) (v joined refused : Live) (theta : Int),
    joined = { v with servo := { v.servo with queue := v.servo.queue ++ [{ theta := theta, accept := true }] } } →
    refused = { v with servo := { v.servo with
      queue := v.servo.queue ++ [{ theta := theta, accept := false }], gated := min 65535 (v.servo.gated + 1) } } →
    (v.servo.state = .acquire → 1000000000 ≤ theta.natAbs →
      servoSample t theta v = Live.stepTime t (-theta)
        { v with servo := { v.servo with
            queue := [], lockRun := 0, phaseSteps := min 65535 (v.servo.phaseSteps + 1) } }) ∧
    (v.servo.state = .acquire ∧ theta.natAbs < 1000000000 ∨
        v.servo.state = .locked ∧ theta.natAbs < 1000000000 ∧
          (v.servo.ungated = true ∨ (theta - v.servo.lastTheta).natAbs ≤ t.servo.gate) →
      (v.servo.queue.length + 1 < t.servo.n → servoSample t theta v = joined) ∧
      (t.servo.n ≤ v.servo.queue.length + 1 → servoSample t theta v = servoUpdate t joined)) ∧
    (v.servo.state = .locked ∧
        (1000000000 ≤ theta.natAbs ∨
          v.servo.ungated = false ∧ t.servo.gate < (theta - v.servo.lastTheta).natAbs) →
      (v.servo.queue.length + 1 < t.servo.n → servoSample t theta v = refused) ∧
      (t.servo.n ≤ v.servo.queue.length + 1 → servoSample t theta v = servoUpdate t refused)) ∧
    (servoUpdate t v).servo.queue = [] ∧ (servoUpdate t v).servo.ungated = false ∧
    (v.servo.state = .freerun ∨ v.servo.state = .holdover → servoSample t theta v = v)

/-- R11, R65, R66: a loss with 16 entries or more in the holdover history enters HOLDOVER on their mean, truncated and
clamped to the limit in force, and starts a stay; with fewer it enters FREERUN on I. R10, R69: a selection from none
enters ACQUIRE with the queue empty and the runs at 0, keeping I from FREERUN, and loading I and F_servo from F_hold
clamped to the limit from HOLDOVER, whose tick then stops. R23: a rearm in LOCKED empties the queue, zeroes the runs
and leaves the next window ungated; in ACQUIRE it empties the queue alone. -/
def Obligations.LossEntersHoldoverOrFreerun : Prop :=
  ∀ (t : Tables) (v : Live),
    (∀ w : Live, w = loseSelection t v →
      w.servo.integ = v.servo.integ ∧ w.servo.history = v.servo.history ∧ w.servo.lastTheta = v.servo.lastTheta ∧
      w.servo.queue = [] ∧ w.servo.lockRun = 0 ∧ w.servo.unlockRun = 0 ∧ w.servo.skipRun = 0 ∧
      w.servo.ungated = false ∧ w.servo.phaseUnstable = v.servo.phaseUnstable ∧
      w.servo.phaseSteps = v.servo.phaseSteps ∧ w.servo.gated = v.servo.gated ∧ w.servo.skipped = v.servo.skipped ∧
      w.ts = { v.ts with fTotal := max (-100000000) (min 100000000 (w.servo.fServo + v.thermal.fTemp)) } ∧
      (16 ≤ v.servo.history.length →
        w.servo.state = .holdover ∧
        w.servo.fServo = max (-(t.servo.limit : Int)) (min t.servo.limit
          (Int.tdiv v.servo.history.sum v.servo.history.length)) ∧
        w.hold.fHold = some w.servo.fServo ∧ w.hold.t = 0 ∧ w.hold.d = 0 ∧
        w.hold.e0 = (v.servo.lastTheta.natAbs + t.quality.base) * 1000 ∧
        w.hold.e = min w.hold.e0 281474976710655 ∧ w.hold.aging = t.thermal.aging ∧
        w.hold.nextTick = some (v.osc + 125000000)) ∧
      (v.servo.history.length < 16 →
        w.servo.state = .freerun ∧ w.servo.fServo = v.servo.integ ∧ w.hold = v.hold)) ∧
    (∀ (w : Live) (f : Int), w = enterAcquire t v →
      w.servo.state = .acquire ∧ w.servo.queue = [] ∧ w.servo.lockRun = 0 ∧ w.servo.unlockRun = 0 ∧
      w.servo.skipRun = 0 ∧ w.servo.ungated = false ∧ w.servo.history = v.servo.history ∧
      w.servo.lastTheta = v.servo.lastTheta ∧ w.servo.phaseUnstable = v.servo.phaseUnstable ∧
      w.servo.phaseSteps = v.servo.phaseSteps ∧ w.servo.gated = v.servo.gated ∧ w.servo.skipped = v.servo.skipped ∧
      w.ts.value = v.ts.value ∧ w.ts.steps = v.ts.steps ∧
      (v.servo.state = .freerun →
        w.servo.integ = v.servo.integ ∧ w.servo.fServo = v.servo.fServo ∧ w.hold = v.hold ∧ w.ts = v.ts) ∧
      (v.servo.state = .holdover → v.hold.fHold = some f →
        w.servo.integ = max (-(t.servo.limit : Int)) (min t.servo.limit f) ∧ w.servo.fServo = w.servo.integ ∧
        w.hold = { v.hold with nextTick := none } ∧
        w.ts = { v.ts with fTotal := max (-100000000) (min 100000000 (w.servo.fServo + v.thermal.fTemp)) })) ∧
    (v.servo.state = .locked → rearm v = { v with servo := { v.servo with
      queue := [], lockRun := 0, unlockRun := 0, skipRun := 0, ungated := true } }) ∧
    (v.servo.state = .acquire → rearm v = { v with servo := { v.servo with queue := [] } })

/-! ## Reference candidates and the selection -/

/-- R41, R42, R43, R45, R46: a candidate is eligible where it is available and, in HOLDOVER, offers a class no worse
than the own class. With no manual selection the candidate chosen is eligible and its key, offered class, priority,
hops with REF at 0, and fixed order compared term by term, beats that of every other eligible one; none is chosen only
where none is eligible. A standing manual selection is chosen whatever its key, and is cancelled where its candidate
has left its available states. A choice that is the selection changes nothing; otherwise the candidate selected
before, if still SELECTED, returns to AVAILABLE, the new one becomes SELECTED, and the servo enters ACQUIRE from none,
rearms on a change of candidate, or takes the loss. -/
def Obligations.BestKeyIsChosen : Prop :=
  ∀ (t : Tables) (v : Live),
    (∀ c, eligible v c = true ↔
      ((v.cands.get c).state = .available ∨ (v.cands.get c).state = .selected) ∧
        (v.servo.state = .holdover → (v.cands.get c).offered.num ≤ v.ownClass.num)) ∧
    selectionKey t v .ref = [(v.cands.get .ref).offered.num, t.cand.ref.priority, 0, 0] ∧
    (∀ (d : Side) (k : Nat), (v.cands.get d.cand).hops = some k → selectionKey t v d.cand =
      [(v.cands.get d.cand).offered.num, (t.cand.get d.cand).priority, k, match d with | .west => 1 | .east => 2]) ∧
    (∀ a b c d a' b' c' d' : Nat, keyBetter [a, b, c, d] [a', b', c', d'] = true ↔
      a < a' ∨ a = a' ∧ (b < b' ∨ b = b' ∧ (c < c' ∨ c = c' ∧ d < d'))) ∧
    (v.manual = none →
      (∀ c, target t v = some c → eligible v c = true ∧
        ∀ e, eligible v e = true → e ≠ c → keyBetter (selectionKey t v c) (selectionKey t v e) = true) ∧
      (target t v = none → ∀ e, eligible v e = false)) ∧
    (∀ c, v.manual = some c →
      ((v.cands.get c).isAvailable = true → target t v = some c ∧ cancelManual v = v) ∧
      ((v.cands.get c).isAvailable = false → cancelManual v = { v with manual := none })) ∧
    (∀ (x w : Live) (new : Option Cand), x = cancelManual v → new = target t x → w = evaluate t v →
      w.selection = new ∧ w.manual = x.manual ∧ (new = v.selection → w = x) ∧
      (new ≠ v.selection →
        (∀ c, new = some c → (w.cands.get c).state = .selected) ∧
        (∀ c, v.selection = some c → (v.cands.get c).state = .selected → (w.cands.get c).state = .available) ∧
        (∀ c, v.selection ≠ some c → new ≠ some c → w.cands.get c = v.cands.get c) ∧
        (∀ c, new = some c → v.selection = none →
          w.servo = (enterAcquire t v).servo ∧ w.hold = (enterAcquire t v).hold ∧ w.ts = (enterAcquire t v).ts) ∧
        (∀ c e, new = some c → v.selection = some e → w.servo = (rearm v).servo ∧ w.hold = v.hold ∧ w.ts = v.ts) ∧
        (∀ e, new = none → v.selection = some e →
          w.servo = (loseSelection t v).servo ∧ w.hold = (loseSelection t v).hold ∧
          w.ts = (loseSelection t v).ts)))

/-- REFP_PULSE, a usable second (R33, R34, R35, R36, R44): a pulse paired with a valid announcement in sequence and of
receiver code 0 or 1 sets the expected seconds to the announced value plus 1, modulo 2^40 (assumption 35), ends the
unusable run, holds nothing pending, restarts the missing-second watch, and makes the sample the last one, θ being the
local time less the announced seconds and cable delay. An UNAVAILABLE input enters QUALIFYING with its timer at 0; a
QUALIFYING one whose timer has reached the qualify time is first AVAILABLE. The selection is then evaluated, and where
REF is the selected candidate the sample is handed to the servo. Rests on the model's choices in assumptions 1, 35. -/
def Obligations.UsableSecondIsTaken : Prop :=
  ∀ (n : Nat) (s : State) (v : Live) (a : Announcement), v = s.live.elapse n → s.live.part = .running →
    v.cands.ref.state ≠ .disabled → v.refIn.pending = some a → a.valid = true → a.code.val ≤ 1 →
    (v.cands.ref.state = .unavailable ∨ v.refIn.expected = none ∨ v.refIn.expected = some a.sec) →
    (∃ t : State, exec (.refpPulse n) s = .next t ∧ t.tables = s.tables ∧ t.locks = s.locks ∧ t.store = s.store ∧
      t.live.refIn = { v.refIn with
        pending := none, unusable := 0, expected := some ((a.sec + 1) % 1099511627776), watch := v.now } ∧
      t.live.cands.ref.last = some
        (Int.tdiv (wrapDiff v.ts.value.toPs
          (a.sec * 1000000000000 + s.tables.cand.ref.cable * 1000)) 1000, v.ts.value.sec) ∧
      t.live.cands.ref.offered = (if a.code = 0 then .q0 else .q1) ∧ t.live.thermal = v.thermal ∧
      t.live.mgmt = v.mgmt) ∧
    ∀ (u x w z : Live) (theta : Int) (r : CandRec),
      theta = Int.tdiv (wrapDiff v.ts.value.toPs
        (a.sec * 1000000000000 + s.tables.cand.ref.cable * 1000)) 1000 →
      x = { v with refIn := { v.refIn with pending := none, watch := v.now } } →
      (v.cands.ref.state ≠ .qualifying ∨ v.cands.ref.qual = none ∨ (∃ tm, v.cands.ref.qual = some tm ∧
        tm.base + interval tm.since v.now < (s.tables.cand.ref.qualify : Int) * 1000000000000) → u = x) →
      (∀ tm, v.cands.ref.state = .qualifying → v.cands.ref.qual = some tm →
        (s.tables.cand.ref.qualify : Int) * 1000000000000 ≤ tm.base + interval tm.since v.now →
        u = settle s.tables (if v.cands.ref.offered = .q4 then x
          else { x with cands := v.cands.set .ref { v.cands.ref with state := .available, qual := none } })) →
      r = { u.cands.ref with
        state := if u.cands.ref.state = .unavailable then .qualifying else u.cands.ref.state
        qual := if u.cands.ref.state = .unavailable then some { since := v.now, base := 0 } else u.cands.ref.qual
        offered := if a.code = 0 then .q0 else .q1, last := some (theta, v.ts.value.sec) } →
      w = { u with
        refIn := { u.refIn with unusable := 0, expected := some ((a.sec + 1) % 1099511627776) }
        cands := u.cands.set .ref r } →
      z = settleSelection s.tables 4 w →
      (z.selection = some .ref → exec (.refpPulse n) s = .next (s.settled (servoSample s.tables theta z))) ∧
      (z.selection ≠ some .ref → exec (.refpPulse n) s = .next (s.settled z))

/-- REFP_PULSE, an unusable second, and MISSING_SECOND (R33, R34, R36): expected seconds that are held increase by 1,
nothing is pending, the watch restarts, and the unusable run grows to at most 3; below 3 a QUALIFYING timer restarts
at 0 and an AVAILABLE or SELECTED input stays as it is; at 3 an input that was not UNAVAILABLE becomes UNAVAILABLE, of
class Q4, its expected seconds cleared and its timer stopped, its last sample kept. Rests on the model's choices in
assumptions 1, 3, 35. -/
def Obligations.UnusableSecondIsCounted : Prop :=
  ∀ (n : Nat) (s : State) (v : Live) (c : Instr), v = s.live.elapse n → s.live.part = .running →
    v.cands.ref.state ≠ .disabled →
    (c = .refpPulse n ∧ (v.refIn.pending = none ∨ ∃ a, v.refIn.pending = some a ∧ (a.valid = false ∨
        2 ≤ a.code.val ∧
          (v.cands.ref.state = .unavailable ∨ v.refIn.expected = none ∨ v.refIn.expected = some a.sec))) ∨
     c = .missingSecond n ∧ 1100000000000 ≤ interval v.refIn.watch v.now) →
    (∃ t : State, exec c s = .next t ∧ t.tables = s.tables ∧ t.locks = s.locks ∧ t.store = s.store ∧
      t.live.refIn = { v.refIn with
        pending := none, unusable := min 3 (v.refIn.unusable + 1), watch := v.now
        expected := if 2 ≤ v.refIn.unusable ∧ v.cands.ref.state ≠ .unavailable then none
          else v.refIn.expected.map (fun x => (x + 1) % 1099511627776) } ∧
      (2 ≤ v.refIn.unusable → t.live.cands.ref.state = .unavailable) ∧
      t.live.cands.ref.last = v.cands.ref.last ∧ t.live.ts.value = v.ts.value ∧ t.live.ts.steps = v.ts.steps) ∧
    ∀ (i : RefInput) (r y : CandRec), r = v.cands.ref →
      i = { v.refIn with
        pending := none, unusable := min 3 (v.refIn.unusable + 1), watch := v.now
        expected := if 2 ≤ v.refIn.unusable ∧ r.state ≠ .unavailable then none
          else v.refIn.expected.map (fun x => (x + 1) % 1099511627776) } →
      (v.refIn.unusable < 2 → r.state = .qualifying → y = { r with qual := some { since := v.now, base := 0 } }) →
      (v.refIn.unusable < 2 → r.state ≠ .qualifying → y = r) →
      (2 ≤ v.refIn.unusable → r.state = .unavailable → y = r) →
      (2 ≤ v.refIn.unusable → r.state ≠ .unavailable → y = { r with
        state := .unavailable, offered := .q4, hops := none, preferred := none, origins := [], qual := none }) →
      exec c s = .next (s.settled { v with refIn := i, cands := v.cands.set .ref y })

/-- REFT_ANNOUNCEMENT (R33): while REF is enabled and the part is RUNNING, the announcement becomes the pending one,
replacing any; otherwise it is ignored. REFP_PULSE, a jump (R34, R36): a valid announcement out of sequence while REF
is not UNAVAILABLE counts a jump, resumes the sequence on the announced value, forms no sample, and takes REF to
QUALIFYING with its timer at 0, which costs it its selection. Rests on the model's choices in assumptions 1, 35. -/
def Obligations.AnnouncementsAndJumps : Prop :=
  ∀ (n : Nat) (s : State) (v : Live) (a : Announcement), v = s.live.elapse n →
    (s.live.part = .running → v.cands.ref.state ≠ .disabled →
      exec (.reftAnnouncement n a) s =
        .next (s.settled { v with refIn := { v.refIn with pending := some a } })) ∧
    (s.live.part = .loading ∨ v.cands.ref.state = .disabled →
      exec (.reftAnnouncement n a) s = .next (s.settled v)) ∧
    (∀ x : Nat, s.live.part = .running → v.cands.ref.state ≠ .disabled → v.cands.ref.state ≠ .unavailable →
      v.refIn.pending = some a → a.valid = true → v.refIn.expected = some x → x ≠ a.sec →
      ∃ t : State, exec (.refpPulse n) s = .next t ∧ t.tables = s.tables ∧ t.locks = s.locks ∧ t.store = s.store ∧
        t.live.refIn = { v.refIn with
          pending := none, unusable := 0, expected := some ((a.sec + 1) % 1099511627776), watch := v.now
          jumps := min 65535 (v.refIn.jumps + 1) } ∧
        t.live.cands.ref.state = .qualifying ∧ t.live.selection ≠ some .ref ∧
        t.live.cands.ref.last = v.cands.ref.last ∧ t.live.ts.value = v.ts.value ∧ t.live.ts.steps = v.ts.steps ∧
        exec (.refpPulse n) s = .next (s.settled
          { v with
            refIn := { v.refIn with
              pending := none, unusable := 0, expected := some ((a.sec + 1) % 1099511627776), watch := v.now
              jumps := min 65535 (v.refIn.jumps + 1) }
            cands := v.cands.set .ref { v.cands.ref with
              state := .qualifying, qual := some { since := v.now, base := 0 } } }))

/-- QUALIFY_TIME_REACHED (R30): a QUALIFYING candidate whose timer has reached its qualify time becomes AVAILABLE
where its offered class is better than Q4, and stays QUALIFYING, the timer running on, where it is Q4.
ORIGIN_ENTRY_EXPIRY (R38, R40): an entry not refreshed for 3 epoch intervals leaves its list; where that empties the
list, the candidate becomes UNAVAILABLE with class Q4, keeping its last sample; where entries are left, the record is
revised from them. Such a revision takes the best entry by class, rank and id as the preferred origin, its class, Q1
at best, and its hops, rearms the servo where the preferred origin of the SELECTED candidate changes from one origin
to another, and then lets the class rules act (R30, R39). An EPOCH heard (R30, R37, R38, R39, R40) refreshes its
origin's entry in place or adds one at the end, an order that R38 leaves open (assumption 63); the preferred origin is
the best by class, rank and id, the offered class is that of the preferred origin, Q1 at best, and the hops are its
own; an UNAVAILABLE candidate enters QUALIFYING, a QUALIFYING one whose timer has reached the qualify time becomes
AVAILABLE where its new class is better than Q4; an available one of class Q4 returns to it; a change of preferred
origin of the SELECTED candidate rearms the servo; the EPOCH forms a sample, the last one, exactly where its origin is
preferred. That an EPOCH at the instant of the qualify time promotes the candidate is assumption 56. A candidate that
loses its input keeps its last sample alone (R36, R40). Rests on the model's choices in assumptions 1, 3, 56, 63. -/
def Obligations.CandidatesQualifyAndExpire : Prop :=
  (∀ (n : Nat) (s : State) (v : Live), v = s.live.elapse n →
    (∀ (c : Cand) (tm : Timer), (v.cands.get c).state = .qualifying → (v.cands.get c).qual = some tm →
      ((s.tables.cand.get c).qualify : Int) * 1000000000000 ≤ tm.base + interval tm.since v.now →
      ((v.cands.get c).offered ≠ .q4 →
        exec (.qualifyTimeReached n c) s = .next (s.settled
          { v with cands := v.cands.set c { v.cands.get c with state := .available, qual := none } })) ∧
      ((v.cands.get c).offered = .q4 → exec (.qualifyTimeReached n c) s = .next (s.settled v))) ∧
    (∀ (d : Side) (o : OriginHeard), o ∈ (v.cands.get d.cand).origins →
      3 * (1000000000 / s.tables.ring.rate : Nat) * 1000 ≤ interval o.gapSince v.now →
      exec (.originEntryExpiry n d o.id) s = .next (s.settled (reviseRing s.tables d.cand (v.mapCand d.cand
        (fun r => { r with origins := r.origins.filter (fun x => !(x.id == o.id &&
          decide (3 * (1000000000 / s.tables.ring.rate : Nat) * 1000 ≤ interval x.gapSince v.now))) })))) ∧
      ∃ t : State, exec (.originEntryExpiry n d o.id) s = .next t ∧ t.tables = s.tables ∧ t.locks = s.locks ∧
        o ∉ (t.live.cands.get d.cand).origins ∧
        ((v.cands.get d.cand).origins = [o] → (v.cands.get d.cand).state ≠ .disabled →
          (v.cands.get d.cand).state ≠ .unavailable →
          (t.live.cands.get d.cand).state = .unavailable ∧ (t.live.cands.get d.cand).offered = .q4) ∧
        (t.live.cands.get d.cand).last = (v.cands.get d.cand).last ∧ t.live.ts.value = v.ts.value)) ∧
  (∀ (t : Tables) (c : Cand) (v : Live) (r : CandRec), r = v.cands.get c →
    (r.origins = [] → reviseRing t c v = loseInput c v) ∧
    (r.origins ≠ [] → ∃ p ∈ r.origins,
      (∀ y ∈ r.origins, p.cls.num < y.cls.num ∨
        p.cls.num = y.cls.num ∧ (p.rank < y.rank ∨ p.rank = y.rank ∧ p.id ≤ y.id)) ∧
      ∀ (x : CandRec) (u y : Live),
        x = { r with
          offered := if p.cls = .q0 then .q1 else p.cls, hops := some p.hops, preferred := some p.id } →
        u = { v with cands := v.cands.set c x } →
        y = (if r.state = .selected ∧ r.preferred ≠ none ∧ r.preferred ≠ some p.id then rearm u else u) →
        (r.state = .available ∨ r.state = .selected →
          (x.offered = .q4 → reviseRing t c v = { y with cands := v.cands.set c { x with
            state := .qualifying, qual := some { since := v.now, base := (t.cand.get c).qualify * 1000000000000 } } }) ∧
          (x.offered ≠ .q4 → reviseRing t c v = y)) ∧
        (∀ tm, r.state = .qualifying → r.qual = some tm →
          (((t.cand.get c).qualify : Int) * 1000000000000 ≤ tm.base + interval tm.since v.now → x.offered ≠ .q4 →
            reviseRing t c v =
              { y with cands := v.cands.set c { x with state := .available, qual := none } }) ∧
          (tm.base + interval tm.since v.now < ((t.cand.get c).qualify : Int) * 1000000000000 ∨ x.offered = .q4 →
            reviseRing t c v = y)) ∧
        (r.state = .disabled ∨ r.state = .unavailable ∨ r.state = .qualifying ∧ r.qual = none →
          reviseRing t c v = y))) ∧
  (∀ (t : Tables) (d : Side) (h : Header) (b : EpochBody) (theta : Int) (v w : Live) (r x : CandRec) (formed : Bool)
      (e : OriginHeard),
    hearEpoch t d.cand h b theta v = (formed, w) → r = v.cands.get d.cand → x = w.cands.get d.cand →
    e = { id := h.origin, rank := b.rank, cls := b.cls, hops := h.hops + 1, heardAt := v.now, gapSince := v.now } →
    (∀ a o z, r.origins = a ++ o :: z → o.id = h.origin → (∀ y ∈ a ++ z, y.id ≠ h.origin) →
      x.origins = a ++ e :: z) ∧
    ((∀ y ∈ r.origins, y.id ≠ h.origin) → x.origins = r.origins ++ [e]) ∧
    (∃ p ∈ x.origins,
      (∀ y ∈ x.origins, p.cls.num < y.cls.num ∨
        p.cls.num = y.cls.num ∧ (p.rank < y.rank ∨ p.rank = y.rank ∧ p.id ≤ y.id)) ∧
      x.preferred = some p.id ∧ x.hops = some p.hops ∧ x.offered = (if p.cls = .q0 then .q1 else p.cls) ∧
      (r.state = .selected → (∃ q, r.preferred = some q ∧ q ≠ p.id) → w.servo = (rearm v).servo) ∧
      (r.state ≠ .selected ∨ r.preferred = none ∨ r.preferred = some p.id → w.servo = v.servo) ∧
      formed = decide (p.id = h.origin) ∧
      x.last = (if p.id = h.origin then some (theta, v.ts.value.sec) else r.last)) ∧
    (r.state = .unavailable → 1 ≤ (t.cand.get d.cand).qualify →
      x.state = .qualifying ∧ x.qual = some { since := v.now, base := 0 }) ∧
    (∀ tm, r.state = .qualifying → r.qual = some tm →
      (((t.cand.get d.cand).qualify : Int) * 1000000000000 ≤ tm.base + interval tm.since v.now → x.offered ≠ .q4 →
        x.state = .available ∧ x.qual = none) ∧
      (tm.base + interval tm.since v.now < ((t.cand.get d.cand).qualify : Int) * 1000000000000 ∨ x.offered = .q4 →
        x.state = .qualifying ∧ x.qual = some tm)) ∧
    (r.state = .available ∨ r.state = .selected →
      (x.offered = .q4 → x.state = .qualifying ∧
        x.qual = some { since := v.now, base := (t.cand.get d.cand).qualify * 1000000000000 }) ∧
      (x.offered ≠ .q4 → x.state = r.state ∧ x.qual = r.qual)) ∧
    w.selection = v.selection ∧ w.ts = v.ts) ∧
  (∀ (c : Cand) (v : Live) (r : CandRec), r = v.cands.get c →
    (r.state = .disabled ∨ r.state = .unavailable → loseInput c v = v) ∧
    (r.state ≠ .disabled → r.state ≠ .unavailable → loseInput c v = { v with cands := v.cands.set c { r with
      state := .unavailable, offered := .q4, hops := none, preferred := none, origins := [], qual := none } }))

/-! ## Temperature and holdover -/

/-- SENSOR_READING (R48, R49, R50, R54, R61) at a reading instant: a reading within −55 to +125 °C is good, clamped to
−40 to +105 °C, places or moves the zone, and gives F_temp under the gradients in force; a reading outside is a fault
that holds zone, temperature and F_temp; no answer is a fault from the second interval on, and before it leaves the
sensor as it is, STARTING. F_total then is F_servo plus the F_temp that stands after the reading, within ±100,000,000
ppt (R2), before anything else follows. The seconds since the last good reading count up to 65,535, and the next
instant is one second of oscillator time later. A zone moved across several thresholds is one change (assumption 62).
Rests on the model's choices in assumptions 1, 3, 35, 62. -/
def Obligations.SensorReadingIsJudged : Prop :=
  ∀ (n : Nat) (s : State) (v : Live) (answer : Option Int), v = s.live.elapse n → v.thermal.next ≤ v.osc →
    ∃ t : State, exec (.sensorReading n answer) s = .next t ∧ t.tables = s.tables ∧ t.locks = s.locks ∧
      t.store = s.store ∧ t.live.thermal.next = v.thermal.next + 125000000 ∧ t.live.ts.value = v.ts.value ∧
      t.live.ts.steps = v.ts.steps ∧
      (∀ raw x, answer = some raw → -880 ≤ raw → raw ≤ 2000 → x = max (-640) (min 1680 raw) →
        t.live.thermal = { v.thermal with
          sensor := .good, lastRaw := some raw, lastTemp := some x, sinceGood := some 0
          zone := some (match v.thermal.zone with
            | none => placeZone s.tables.thermal x
            | some z => moveZone s.tables.thermal x z)
          fTemp := fTempOf s.tables.thermal.grads x, next := v.thermal.next + 125000000 }) ∧
      (∀ raw, answer = some raw → raw < -880 ∨ 2000 < raw →
        t.live.thermal = { v.thermal with
          sensor := .fault, lastRaw := some raw
          sinceGood := v.thermal.sinceGood.map (fun k => min 65535 (k + 1)), next := v.thermal.next + 125000000 }) ∧
      (answer = none → 250000000 ≤ v.thermal.next →
        t.live.thermal = { v.thermal with
          sensor := .fault, sinceGood := v.thermal.sinceGood.map (fun k => min 65535 (k + 1))
          next := v.thermal.next + 125000000 }) ∧
      (answer = none → v.thermal.next < 250000000 →
        t.live.thermal = { v.thermal with
          sinceGood := v.thermal.sinceGood.map (fun k => min 65535 (k + 1)), next := v.thermal.next + 125000000 }) ∧
      exec (.sensorReading n answer) s = .next (s.settled { v with
        thermal := t.live.thermal
        ts := { v.ts with
          fTotal := max (-100000000) (min 100000000 (v.servo.fServo + t.live.thermal.fTemp)) } })

/-- R55: with no zone placed, the zone is COLD below TA, NORMAL from TA to below TB, WARM from TB to below TC, HOT at
or above TC, each threshold taken as 16 times its degrees. R56: with one placed, it stays while the temperature lies
within its band widened by TH above, moves up only at an upper edge plus TH, testing again from each new zone, and
moves down as soon as the temperature lies below its lower edge, testing again likewise. -/
def Obligations.ZoneHoldsItsTemperature : Prop :=
  ∀ (c : ThermalTable) (x : Int), c.ta < c.tb → c.tb < c.tc → 1 ≤ c.th → c.th < c.tb - c.ta → c.th < c.tc - c.tb →
    (x < 16 * c.ta → placeZone c x = .cold) ∧
    (16 * c.ta ≤ x → x < 16 * c.tb → placeZone c x = .normal) ∧
    (16 * c.tb ≤ x → x < 16 * c.tc → placeZone c x = .warm) ∧
    (16 * c.tc ≤ x → placeZone c x = .hot) ∧
    (x < 16 * (c.ta + c.th) → moveZone c x .cold = .cold) ∧
    (16 * c.ta ≤ x → x < 16 * (c.tb + c.th) → moveZone c x .normal = .normal) ∧
    (16 * c.tb ≤ x → x < 16 * (c.tc + c.th) → moveZone c x .warm = .warm) ∧
    (16 * c.tc ≤ x → moveZone c x .hot = .hot) ∧
    (16 * (c.ta + c.th) ≤ x → x < 16 * (c.tb + c.th) → moveZone c x .cold = .normal) ∧
    (16 * (c.tb + c.th) ≤ x → x < 16 * (c.tc + c.th) → moveZone c x .cold = .warm ∧ moveZone c x .normal = .warm) ∧
    (16 * (c.tc + c.th) ≤ x →
      moveZone c x .cold = .hot ∧ moveZone c x .normal = .hot ∧ moveZone c x .warm = .hot) ∧
    (x < 16 * c.ta → moveZone c x .normal = .cold ∧ moveZone c x .warm = .cold ∧ moveZone c x .hot = .cold) ∧
    (16 * c.ta ≤ x → x < 16 * c.tb → moveZone c x .warm = .normal ∧ moveZone c x .hot = .normal) ∧
    (16 * c.tb ≤ x → x < 16 * c.tc → moveZone c x .hot = .warm)

/-- R52, R53: above 384 sixteenths F_temp is the sum over the bands of gradient times overlap with the interval from
384 to the temperature, divided by 16 toward zero; below, it is the negative of the sum over the interval from the
temperature to 384, divided by 16 toward zero; at 384 it is 0. It lies within −2,654,208 to +2,654,127 ppt for
gradients within their range and a temperature within −40 to +105 °C, and a band that the interval does not reach
contributes nothing. -/
def Obligations.TemperatureCorrectionIsBounded : Prop :=
  ∀ (g : List Int) (lo hi : Nat → Int), g.length = 16 → (∀ x ∈ g, -32768 ≤ x ∧ x ≤ 32767) →
    (∀ k : Nat, lo k = -640 + 128 * (k : Int)) → (∀ k : Nat, hi k = if k = 15 then 1680 else -512 + 128 * (k : Int)) →
    (∀ x : Int, 384 < x → fTempOf g x =
      Int.tdiv ((List.range 16).map (fun k => g.getD k 0 * max 0 (min (hi k) x - max (lo k) 384))).sum 16) ∧
    (∀ x : Int, x < 384 → fTempOf g x =
      Int.tdiv (-((List.range 16).map (fun k => g.getD k 0 * max 0 (min (hi k) 384 - max (lo k) x))).sum) 16) ∧
    fTempOf g 384 = 0 ∧
    (∀ x : Int, -640 ≤ x → x ≤ 1680 → -2654208 ≤ fTempOf g x ∧ fTempOf g x ≤ 2654127) ∧
    (∀ (k : Nat) (y x : Int), k < 16 → 384 ≤ x ∧ (x ≤ lo k ∨ k < 8) ∨ x ≤ 384 ∧ (hi k ≤ x ∨ 8 ≤ k) →
      fTempOf (g.set k y) x = fTempOf g x)

/-- HOLDOVER_TICK (R58, R67): t, then D by the drift allowance in force, then E from E0, D and the aging term, each
saturating; the next tick falls 125,000,000 periods later. The allowance is that of the zone while the sensor is GOOD,
and the largest of the four otherwise. Rests on the model's choices in assumptions 1, 3, 35. -/
def Obligations.HoldoverTickGrowsTheEstimate : Prop :=
  ∀ (n k t' d' : Nat) (s : State) (v : Live), v = s.live.elapse n → v.hold.nextTick = some k → k ≤ v.osc →
    t' = min 4294967295 (v.hold.t + 1) →
    d' = min 281474976710655 (v.hold.d + driftAllowance s.tables v) →
    exec (.holdoverTick n) s = .next (s.settled { v with hold := { v.hold with
      t := t', d := d', e := min 281474976710655 (v.hold.e0 + d' + v.hold.aging * t' * t' / 172800)
      nextTick := some (k + 125000000) } }) ∧
    (∀ z, v.thermal.sensor = .good → v.thermal.zone = some z → driftAllowance s.tables v = match z with
      | .cold => s.tables.thermal.dCold
      | .normal => s.tables.thermal.dNormal
      | .warm => s.tables.thermal.dWarm
      | .hot => s.tables.thermal.dHot) ∧
    (v.thermal.sensor ≠ .good → driftAllowance s.tables v =
      max (max s.tables.thermal.dCold s.tables.thermal.dNormal)
        (max s.tables.thermal.dWarm s.tables.thermal.dHot))

/-- R75, R76: whatever brought the blocks to where they stand, once what follows has followed the own class is Q4 in
FREERUN and ACQUIRE, the selected candidate's offered class in LOCKED, and in HOLDOVER the class that E / 1,000,
truncated, has against the two limits. R42, R43: the selection is evaluated again after each change of class, until
none follows. R77, R153, R154, R157: a change of the own class is judged by every access port. One in DELIVER stays
while the class is within its floor, and otherwise leaves for DEGRADED or SQUELCHED with its waiting frames withdrawn
as its loss behaviour says; in DEGRADED and SQUELCHED the restore timer stops, starts at 0, restarts at 0 or runs on;
a port in OFF is left. So a port in DELIVER stays within its floor through all that follows. R156: a write of a port's
record changes mode, rate, floor, loss behaviour and restore time in this order, then the advance, each acting on the
port's state, its restore timer and its waiting frames. Rests on the model's choice in assumption 43. -/
def Obligations.OwnClassFollowsTheServo : Prop :=
  (∀ (t : Tables) (v w : Live), w = finish t v →
    (w.servo.state = .freerun ∨ w.servo.state = .acquire → w.ownClass = .q4) ∧
    (∀ c, w.servo.state = .locked → w.selection = some c → w.ownClass = (w.cands.get c).offered) ∧
    (w.servo.state = .holdover →
      (w.hold.e / 1000 ≤ t.quality.limit1 → w.ownClass = .q2) ∧
      (t.quality.limit1 < w.hold.e / 1000 → w.hold.e / 1000 ≤ t.quality.limit2 → w.ownClass = .q3) ∧
      (t.quality.limit1 < w.hold.e / 1000 → t.quality.limit2 < w.hold.e / 1000 → w.ownClass = .q4)) ∧
    ((∀ i, (v.access.get i).state = .deliver → v.ownClass.num ≤ (t.port.access.get i).floor.num) →
      ∀ i, (w.access.get i).state = .deliver → w.ownClass.num ≤ (t.port.access.get i).floor.num)) ∧
  (∀ (t : Tables) (new : QClass) (v w : Live), w = setClass t new v → w.ownClass = new ∧
    ∀ i, w.access.get i = (judgeAccess t v.ownClass new i v).access.get i) ∧
  (∀ (t : Tables) (old new : QClass) (i : Fin 4) (v w : Live) (cfg : AccessCfg) (a b : AccessPort),
    w = judgeAccess t old new i v → cfg = t.port.access.get i → a = v.access.get i → b = w.access.get i →
    (∀ j, j ≠ i → w.access.get j = v.access.get j) ∧
    (a.state = .off → w = v) ∧
    (a.state = .deliver → new.num ≤ cfg.floor.num → w = v) ∧
    (a.state = .deliver → cfg.floor.num < new.num →
      b = { a with state := if cfg.loss = .squelch then .squelched else .degraded, timer := none } ∧
      w.port (.access i) = { v.port (.access i) with
        queue := match cfg.loss with
          | .squelch => []
          | .mark => (v.port (.access i)).queue.filter (fun q => q.frame.body.kind != 1)
          | .continue => (v.port (.access i)).queue }) ∧
    (a.state = .degraded ∨ a.state = .squelched →
      b.state = a.state ∧ w.io = v.io ∧
      (cfg.floor.num < new.num → b.timer = none) ∧
      (new.num ≤ cfg.floor.num → cfg.floor.num < old.num → b.timer = some { since := v.now, base := 0 }) ∧
      (new.num ≤ cfg.floor.num → old.num ≤ cfg.floor.num → old.num < new.num → a.timer ≠ none →
        b.timer = some { since := v.now, base := 0 }) ∧
      (new.num ≤ cfg.floor.num → old.num ≤ cfg.floor.num → new.num ≤ old.num ∨ a.timer = none →
        b.timer = a.timer))) ∧
  (∀ (old new : AccessCfg) (i : Fin 4) (v w x y : Live) (a b c d : AccessPort) (q r : List QFrame),
    a = v.access.get i → q = (v.port (.access i)).queue → r = q.filter (fun f => f.frame.body.kind != 1) →
    w = applyMode old new i v → b = w.access.get i → x = applyFloor old new i v → c = x.access.get i →
    y = applyLoss old new i v → d = y.access.get i →
    (old.mode = new.mode → w = v) ∧ (old.floor = new.floor → x = v) ∧ (old.loss = new.loss → y = v) ∧
    (old.mode ≠ new.mode → new.mode = .off →
      b = { a with state := .off, timer := none } ∧ (w.port (.access i)).queue = []) ∧
    (old.mode = .off → new.mode ≠ .off → b = { a with
      state := if old.loss = .squelch then .squelched else .degraded
      timer := if v.ownClass.num ≤ old.floor.num then some { since := v.now, base := 0 } else none }) ∧
    (old.mode ≠ .off → new.mode ≠ .off → old.mode ≠ new.mode →
      b = a ∧ (w.port (.access i)).queue = if new.mode = .pulse then r else q) ∧
    (a.state = .off → x = v ∧ y = v) ∧ (a.state = .deliver → y = v) ∧
    (old.floor ≠ new.floor → a.state = .deliver →
      (v.ownClass.num ≤ new.floor.num → x = v) ∧
      (new.floor.num < v.ownClass.num → c = { a with
        state := if new.loss = .squelch then .squelched else .degraded, timer := none })) ∧
    (old.floor ≠ new.floor → a.state = .degraded ∨ a.state = .squelched →
      (new.floor.num < v.ownClass.num → c = { a with timer := none }) ∧
      (v.ownClass.num ≤ new.floor.num → a.timer = none →
        c = { a with timer := some { since := v.now, base := 0 } }) ∧
      (v.ownClass.num ≤ new.floor.num → a.timer ≠ none → x = v)) ∧
    (old.loss ≠ new.loss → a.state = .degraded ∨ a.state = .squelched →
      d = { a with state := if new.loss = .squelch then .squelched else .degraded } ∧
      (y.port (.access i)).queue = match new.loss with
        | .squelch => []
        | .mark => r
        | .continue => q)) ∧
  (∀ (t : Tables) (old new : AccessCfg) (i : Fin 4) (v a b c d : Live),
    a = refreshAlarms t (applyMode old new i v) →
    b = (if old.rate = new.rate then a
      else a.mapAccess i (fun x => { x with jp := epochAbove (t.port.access.get i).rate a.ts.value.toPs })) →
    c = refreshAlarms t (applyLoss old new i (refreshAlarms t (applyFloor old { new with loss := old.loss } i b))) →
    d = (if old.restore = new.restore then c else refreshAlarms t (restoreCheck t i c)) →
    accessEffects t old new i v = (if old.advance = new.advance then d else applyAdvance new i d)) ∧
  (∀ (t : Tables) (i : Fin 4) (v : Live) (tm : Timer), (v.access.get i).timer = some tm →
    (tm.base + interval tm.since v.now < ((t.port.access.get i).restore : Int) * 1000000000000 →
      restoreCheck t i v = v) ∧
    (((t.port.access.get i).restore : Int) * 1000000000000 ≤ tm.base + interval tm.since v.now →
      restoreCheck t i v = v.mapAccess i (fun x => { x with state := .deliver, timer := none }))) ∧
  (∀ (t : Tables) (n : Nat) (v u : Live), u = evaluate t v →
    (u.servo.state = .freerun ∨ u.servo.state = .acquire → deriveClass t u = .q4) ∧
    (∀ c, u.servo.state = .locked → u.selection = some c → deriveClass t u = (u.cands.get c).offered) ∧
    (u.servo.state = .holdover → deriveClass t u = if u.hold.e / 1000 ≤ t.quality.limit1 then .q2
      else if u.hold.e / 1000 ≤ t.quality.limit2 then .q3 else .q4) ∧
    (deriveClass t u = u.ownClass → settleSelection t (n + 1) v = refreshAlarms t u) ∧
    (deriveClass t u ≠ u.ownClass →
      settleSelection t (n + 1) v = settleSelection t n (setClass t (deriveClass t u) u)))

/-! ## Ports and spans -/

/-- R81, R87, R88, R89, R90, R95, R124, R191: a line or site queue holds 8 frames and an access queue 4, each frame at
the level its kind has there. A frame handed to a port whose link is up and whose queue has room joins the end of the
queue, and where the transmitter is idle the arbiter grants at once: with nothing else waiting the frame is sent,
completed at this instant; that the transmit instant is the grant is the model's choice (assumption 10). A frame
handed to a port whose link is down, or to a full queue that holds nothing less urgent, or to a full access queue, is
dropped and counted, and the loss of a ROLL of the cycle or of a SOFT-RESTART's response is noted for its owner; a
full line or site queue that holds something less urgent gives up the youngest of its largest level for the newcomer,
and a probe, a ROLL of the cycle or a SOFT-RESTART's response given up so is noted for its owner: a probe timeout, a
timeout of the ROLL, and the restart's taking effect (assumption 8). Rests on the model's choices in assumptions 8,
10. -/
def Obligations.FullQueueShedsTheLessUrgent : Prop :=
  (∀ (d : Side) (i : Fin 4) (b : Body),
    capacity (.line d) = 8 ∧ capacity (.site d) = 8 ∧ capacity (.access i) = 4 ∧
    level (.line d) b = (match b with
      | .epoch _ => 1
      | .probe _ => 2
      | .reply _ _ _ => 2
      | .roll _ => 3
      | .config _ => 4
      | _ => 5) ∧
    level (.site d) b = (match b with
      | .response _ => 1
      | _ => 2) ∧
    level (.access i) b = (match b with
      | .epoch _ => 1
      | _ => 2)) ∧
  ∀ (p : Port) (q : QFrame) (v : Live),
    (∀ w : Live, (v.port p).link = true → (v.port p).queue.length < capacity p →
      w = v.mapPort p (fun x => { x with queue := x.queue ++ [q] }) →
      ((v.port p).sending.isSome = true → hand p q v = w) ∧
      ((v.port p).sending = none → hand p q v = grant p w) ∧
      ((v.port p).sending = none → (v.port p).queue = [] →
        ((hand p q v).port p).sending = some (.own (complete v.now q)) ∧ ((hand p q v).port p).queue = [] ∧
        ((hand p q v).port p).insertDrops = (v.port p).insertDrops)) ∧
    (∀ w : Live, w = v.mapPort p (fun x => { x with insertDrops := min 65535 (x.insertDrops + 1) }) →
      (v.port p).link = false ∨
        (v.port p).link = true ∧ capacity p ≤ (v.port p).queue.length ∧
          ((∃ i, p = .access i) ∨ ∀ x ∈ (v.port p).queue, level p x.frame.body ≤ level p q.frame.body) →
      ((hand p q v).port p).queue = (v.port p).queue ∧
      ((hand p q v).port p).insertDrops = min 65535 ((v.port p).insertDrops + 1) ∧
      (∀ seq rev, q.note = .roll seq rev → hand p q v = { w with losses := v.losses ++ [.roll seq rev] }) ∧
      (q.note = .restart → hand p q v = { w with restartDue := true }) ∧
      ((∀ seq rev, q.note ≠ .roll seq rev) → q.note ≠ .restart → hand p q v = w)) ∧
    (∀ old a b, (v.port p).link = true → capacity p ≤ (v.port p).queue.length → (∀ i, p ≠ .access i) →
      (v.port p).sending.isSome = true → (v.port p).queue = a ++ old :: b →
      (∀ x ∈ (v.port p).queue, level p x.frame.body ≤ level p old.frame.body) →
      (∀ x ∈ b, level p x.frame.body < level p old.frame.body) →
      level p q.frame.body < level p old.frame.body →
      ((hand p q v).port p).queue = a ++ b ++ [q] ∧
      ((hand p q v).port p).insertDrops = min 65535 ((v.port p).insertDrops + 1)) ∧
    (∀ (old : QFrame) (a b : List QFrame) (y z : Live), (v.port p).link = true →
      capacity p ≤ (v.port p).queue.length → (∀ i, p ≠ .access i) → (v.port p).queue = a ++ old :: b →
      (∀ x ∈ (v.port p).queue, level p x.frame.body ≤ level p old.frame.body) →
      (∀ x ∈ b, level p x.frame.body < level p old.frame.body) →
      level p q.frame.body < level p old.frame.body →
      y = v.mapPort p (fun x => { x with
        queue := a ++ b ++ [q], insertDrops := min 65535 (x.insertDrops + 1) }) →
      (∀ d, old.note = .probe → p = .line d → z = { y with losses := v.losses ++ [.probe d] }) →
      (∀ seq rev, old.note = .roll seq rev → z = { y with losses := v.losses ++ [.roll seq rev] }) →
      (old.note = .restart → z = { y with restartDue := true }) →
      (old.note = .probe ∧ (∀ d, p ≠ .line d) ∨
        old.note ≠ .probe ∧ (∀ seq rev, old.note ≠ .roll seq rev) ∧ old.note ≠ .restart → z = y) →
      ((v.port p).sending = none → hand p q v = grant p z) ∧ ((v.port p).sending.isSome = true → hand p q v = z))

/-- LINK_DOWN (R81, R99, R101, R124, R191): the frame being sent is lost, the queue and the through buffer toward the
port are emptied, each frame counted; a line port's link-lost flag is set, its span is DOWN with nothing learned, and
its ring candidate, unless DISABLED, is UNAVAILABLE where the span had been UP. Each ROLL lost with the queue is noted
for its owner, and the lost response of a SOFT-RESTART, waiting or in transmission (assumption 9), lets the restart
take effect; the span is DOWN before a lost ROLL acts as a timeout (assumption 66). A link that is down already stays
so. Rests on the model's choices in assumptions 1, 8, 9, 41, 66. -/
def Obligations.LinkDownEmptiesThePort : Prop :=
  ∀ (n : Nat) (p : Port) (s : State) (v : Live), v = s.live.elapse n →
    ((v.port p).link = false → exec (.linkDown n p) s = .next (s.settled v)) ∧
    ((v.port p).link = true → ∀ (w z : Live) (rolls : List Loss) (due : Bool),
      w = v.mapPort p (fun x => { x with
        link := false, arriving := none, sending := none, queue := [], through := []
        throughDrops := min 65535 (x.throughDrops + x.through.length)
        insertDrops := min 65535 (x.insertDrops + x.queue.length)
        linkLost := match p with
          | .line _ => true
          | _ => x.linkLost }) →
      rolls = (v.port p).queue.filterMap (fun q => match q.note with
        | .roll seq rev => some (.roll seq rev)
        | _ => none) →
      (due = true ↔ v.restartDue = true ∨ (∃ q ∈ (v.port p).queue, q.note = .restart) ∨
        ∃ q, (v.port p).sending = some (.own q) ∧ q.note = .restart) →
      z = { w with losses := v.losses ++ rolls, restartDue := due } →
      (∀ d, p = .line d → exec (.linkDown n p) s = .next (s.settled (enterDown s.tables d z))) ∧
      ((∀ d, p ≠ .line d) → exec (.linkDown n p) s = .next (s.settled z))) ∧
    ((v.port p).link = true → ∃ t : State, exec (.linkDown n p) s = .next t ∧ t.tables = s.tables ∧ t.locks = s.locks ∧ t.store = s.store ∧
      (t.live.port p).link = false ∧ (t.live.port p).sending = none ∧ (t.live.port p).queue = [] ∧
      (t.live.port p).through = [] ∧
      (t.live.port p).throughDrops = min 65535 ((v.port p).throughDrops + (v.port p).through.length) ∧
      min 65535 ((v.port p).insertDrops + (v.port p).queue.length) ≤ (t.live.port p).insertDrops ∧
      (∀ d, p = .line d → (t.live.port p).linkLost = true ∧ (t.live.span d).state = .down ∧
        ((v.span d).state ≠ .down → (t.live.span d).learned = none ∧ (t.live.span d).df = none ∧
          (t.live.span d).outstanding = none ∧ (t.live.span d).accepted = 0) ∧
        ((v.span d).state = .up → (v.cands.get d.cand).state ≠ .disabled →
          (t.live.cands.get d.cand).state = .unavailable)) ∧
      t.live.ts.value = v.ts.value ∧ t.live.mgmt = v.mgmt)

/-- LINK_UP and TRANSMISSION_END (R80, R81, R87, R91, R95, R111, R124, R128, R162, R191): an idle transmitter whose
link is up takes the oldest frame of the most urgent level, completed at this instant, and a through frame only where
no own frame waits; the frame that ended its transmission is gone: an access EPOCH is counted as sent, and a
SOFT-RESTART response lets the restart take effect. At its transmit instant a probe becomes the outstanding one with
t1, in the place of one still in its reply wait (assumption 48), unless its span is DOWN (assumption 11), and a ROLL
of the cycle starts the roll timer and, as the first one sent, the cycle time. Completed, an originated or access
EPOCH bears the time value of this instant without picoseconds; a forwarded one bears its correction with d_f and the
residence added, held at the ends of its range; a reply bears t3, t2 plus the interval from the receive instant,
without picoseconds (assumption 12); any other frame is as it was. At the end of a SOFT-RESTART response the grant
comes before the restart (assumption 58). Rests on the model's choices in assumptions 1, 10, 11, 12, 48, 58. -/
def Obligations.IdleTransmitterTakesTheMostUrgent : Prop :=
  (∀ (q : QFrame) (now : Stamp),
    (∀ b, q.note = .origEpoch → q.frame.body = .epoch b → complete now q =
      { q with frame := { q.frame with body := .epoch { b with time := ⟨now.time.sec, now.time.ns⟩ } } }) ∧
    (∀ b x rx, q.note = .fwdEpoch x rx → q.frame.body = .epoch b → complete now q =
      { q with frame := { q.frame with body := .epoch { b with
          corr := max (-9223372036854775808) (min 9223372036854775807 (b.corr + x + interval rx now)) } } }) ∧
    (∀ seq t2 t3 rx, q.note = .reply rx → q.frame.body = .reply seq t2 t3 → ∃ y : NsTime,
      complete now q = { q with frame := { q.frame with body := .reply seq t2 y } } ∧
      y.sec < 1099511627776 ∧ y.ns < 1000000000 ∧
      ((y.toPs : Nat) : Int) = (t2.toPs + interval rx now) % (wrapPs : Nat) / 1000 * 1000) ∧
    (q.note = .plain ∨ q.note = .probe ∨ q.note = .restart ∨ (∃ x y, q.note = .roll x y) → complete now q = q)) ∧
  ∀ (n : Nat) (p : Port) (s : State) (v : Live), v = s.live.elapse n →
    (exec (.linkUp n p) s = .next (s.settled (grant p (v.mapPort p (fun x => { x with link := true }))))) ∧
    (∀ q, (v.port p).sending = some (.own q) →
      exec (.transmissionEnd n p) s =
        .next (s.settled (grant p ((ownSent p q v).mapPort p (fun x => { x with sending := none }))))) ∧
    (∀ f, (v.port p).sending = some (.through f) →
      exec (.transmissionEnd n p) s =
        .next (s.settled (grant p (v.mapPort p (fun x => { x with sending := none }))))) ∧
    (∀ a q b, (v.port p).link = true → (v.port p).sending = none → (v.port p).queue = a ++ q :: b →
      (∀ x ∈ a, level p q.frame.body < level p x.frame.body) →
      (∀ x ∈ b, level p q.frame.body ≤ level p x.frame.body) →
      grant p v = onTransmit p (complete v.now q)
        (v.mapPort p (fun x => { x with queue := a ++ b, sending := some (.own (complete v.now q)) })) ∧
      ((grant p v).port p).sending = some (.own (complete v.now q)) ∧ ((grant p v).port p).queue = a ++ b ∧
      ((grant p v).port p).through = (v.port p).through) ∧
    (∀ f r, (v.port p).link = true → (v.port p).sending = none → (v.port p).queue = [] →
      (v.port p).through = f :: r →
      ((grant p v).port p).sending = some (.through f) ∧ ((grant p v).port p).through = r) ∧
    (∀ q, q.note = .restart → ownSent p q v = { v with restartDue := true }) ∧
    (∀ q, q.note ≠ .restart →
      (∀ i b, p = .access i → q.frame.body = .epoch b →
        ownSent p q v = v.mapAccess i (fun x => { x with sent := min 65535 (x.sent + 1) })) ∧
      ((∀ i, p ≠ .access i) ∨ (∀ b, q.frame.body ≠ .epoch b) → ownSent p q v = v)) ∧
    (∀ q d seq, q.note = .probe → p = .line d → q.frame.body = .probe seq →
      ((v.span d).state = .down → onTransmit p q v = v) ∧
      ((v.span d).state ≠ .down → onTransmit p q v = v.mapSpan d (fun x => { x with
        outstanding := some { seq := seq, t1 := v.now, since := v.osc } }))) ∧
    (∀ q seq rev, q.note = .roll seq rev →
      (∀ c, v.roll.cycle = some c → c.seq = seq → c.rev = rev → onTransmit p q v = { v with roll := { v.roll with
        cycle := some { c with sentAt := some v.now, firstSent := some (c.firstSent.getD v.now) } } }) ∧
      ((∀ c, v.roll.cycle = some c → ¬ (c.seq = seq ∧ c.rev = rev)) → onTransmit p q v = v)) ∧
    (∀ q, q.note ≠ .probe → (∀ seq rev, q.note ≠ .roll seq rev) → onTransmit p q v = v)

/-- PROBE_INTERVAL (R95, R96, R99) at the end of an interval: the FCS count is 0; a probe of the last interval that
still waits is withdrawn, with an insert drop and a probe timeout, which at a run of 3 takes the span DOWN; with the
link down nothing more happens; with the link up a DOWN span enters PROBING, and the next SPAN-PROBE is handed to the
port, with target 255 and the probe sequence, this node's id as sender and the looped flag clear (assumption 65), the
direction of its port (assumption 7), and an open origin id and hop count (assumption 6). REPLY_WAIT_TIMEOUT (R96,
R99): after 1,250,000 oscillator periods the outstanding probe is none and a timeout is counted; below a run of 3 the
span keeps its state; at a run of 3 it is DOWN, with nothing learned and no d_f, counted as down, and its ring
candidate loses its input where it was UP (R40). A withdrawn probe leaves an earlier one in its reply wait (assumption
68). Rests on the model's choices in assumptions 1, 3, 6, 7, 35, 65, 68. -/
def Obligations.ProbeClockAndReplyWait : Prop :=
  ∀ (n : Nat) (d : Side) (s : State) (v : Live), v = s.live.elapse n →
    (∀ k : Nat, (v.span d).nextProbe = some k → k ≤ v.osc →
      exec (.probeInterval n d) s = .next (s.settled (beginInterval s.tables d
        (v.mapSpan d (fun x => { x with nextProbe := some (k + 125000000) }))))) ∧
    (∀ (k : Nat) (w : Live), (v.span d).nextProbe = some k → k ≤ v.osc →
      (v.port (.line d)).queue.any isProbeFrame = false →
      w = v.mapSpan d (fun x => { x with nextProbe := some (k + 125000000), fcsCount := 0 }) →
      ((v.port (.line d)).link = false → exec (.probeInterval n d) s = .next (s.settled w)) ∧
      ((v.port (.line d)).link = true → (v.span d).state ≠ .down →
        exec (.probeInterval n d) s = .next (s.settled
          (hand (.line d) (probeFrame s.tables d ((v.span d).probeSeq + 1) w)
            (w.mapSpan d (fun x => { x with probeSeq := (v.span d).probeSeq + 1 }))))) ∧
      (∀ x, x = refreshAlarms s.tables (w.mapSpan d (fun y => { y with state := .probing })) →
        (v.port (.line d)).link = true → (v.span d).state = .down →
        exec (.probeInterval n d) s = .next (s.settled
          (hand (.line d) (probeFrame s.tables d ((v.span d).probeSeq + 1) x)
            (x.mapSpan d (fun y => { y with probeSeq := (v.span d).probeSeq + 1 }))))) ∧
      (∃ t : State, exec (.probeInterval n d) s = .next t ∧ t.tables = s.tables ∧
        (t.live.span d).nextProbe = some (k + 125000000) ∧
        (t.live.span d).probeSeq =
          (if (v.port (.line d)).link then (v.span d).probeSeq + 1 else (v.span d).probeSeq))) ∧
    (∀ (k : Nat) (w u y : Live), (v.span d).nextProbe = some k → k ≤ v.osc →
      (v.port (.line d)).queue.any isProbeFrame = true →
      w = (v.mapSpan d (fun x => { x with
          nextProbe := some (k + 125000000), fcsCount := 0, timeoutRun := min 3 (x.timeoutRun + 1)
          timeouts := min 65535 (x.timeouts + 1) })).mapPort (.line d) (fun x => { x with
        queue := x.queue.filter (fun q => !isProbeFrame q), insertDrops := min 65535 (x.insertDrops + 1) }) →
      u = w.mapSpan d (fun x => { x with
        state := .down, outstanding := none, learned := none, df := none, accepted := 0, timeoutRun := 0
        mismatch := false, downs := min 65535 (x.downs + 1) }) →
      ((v.span d).timeoutRun < 2 ∨ (v.span d).state = .down → y = w) →
      (2 ≤ (v.span d).timeoutRun → (v.span d).state = .probing → y = refreshAlarms s.tables u) →
      (2 ≤ (v.span d).timeoutRun → (v.span d).state = .up → y = refreshAlarms s.tables (loseInput d.cand u)) →
      ((v.port (.line d)).link = false → exec (.probeInterval n d) s = .next (s.settled y)) ∧
      ((v.port (.line d)).link = true → (y.span d).state ≠ .down →
        exec (.probeInterval n d) s = .next (s.settled
          (hand (.line d) (probeFrame s.tables d ((v.span d).probeSeq + 1) y)
            (y.mapSpan d (fun x => { x with probeSeq := (v.span d).probeSeq + 1 }))))) ∧
      (∀ z, z = refreshAlarms s.tables (y.mapSpan d (fun x => { x with state := .probing })) →
        (v.port (.line d)).link = true → (y.span d).state = .down →
        exec (.probeInterval n d) s = .next (s.settled
          (hand (.line d) (probeFrame s.tables d ((v.span d).probeSeq + 1) z)
            (z.mapSpan d (fun x => { x with probeSeq := (v.span d).probeSeq + 1 })))))) ∧
    (∀ (seq : Seq16) (w : Live), ∃ x : Header, x.ring = s.tables.node.ringId ∧ x.rev = d.outRev ∧ x.looped = false ∧
      x.sender = s.tables.node.id ∧ x.target = 255 ∧ x.seq = seq ∧
      probeFrame s.tables d seq w = mkFrame s.tables x (.probe seq) .probe) ∧
    (∀ o : Outstanding, (v.span d).outstanding = some o → 1250000 ≤ v.osc - o.since →
      ((v.span d).timeoutRun < 2 →
        exec (.replyWaitTimeout n d) s = .next (s.settled (v.mapSpan d (fun x => { x with
          outstanding := none, timeoutRun := x.timeoutRun + 1, timeouts := min 65535 (x.timeouts + 1) })))) ∧
      (2 ≤ (v.span d).timeoutRun →
        exec (.replyWaitTimeout n d) s = .next (s.settled (enterDown s.tables d (v.mapSpan d (fun x => { x with
          outstanding := none, timeoutRun := 3, timeouts := min 65535 (x.timeouts + 1) })))) ∧
        ∃ t : State, exec (.replyWaitTimeout n d) s = .next t ∧ t.tables = s.tables ∧
          (t.live.span d).state = .down ∧ (t.live.span d).outstanding = none)) ∧
    (∀ x u : Live, u = x.mapSpan d (fun y => { y with
        state := .down, outstanding := none, learned := none, df := none, accepted := 0, timeoutRun := 0
        mismatch := false, downs := min 65535 (y.downs + 1) }) →
      ((x.span d).state = .down → enterDown s.tables d x = x) ∧
      ((x.span d).state = .probing → enterDown s.tables d x = refreshAlarms s.tables u) ∧
      ((x.span d).state = .up → enterDown s.tables d x = refreshAlarms s.tables (loseInput d.cand u)))

/-- SPAN_PROBE_ARRIVAL and ACCESS_SPAN_PROBE (R97, R161, R91, R192): a probe on a line port is answered in every span
state, and one on an access port in DELIVER and DEGRADED, by a SPAN-REPLY with its probe sequence, this node as
sender, and t2 the time value of the receive instant, completed with t3 at the transmit instant; in OFF and SQUELCHED
the probe is counted as unanswered. On a line port the reply's header bears the probe sequence and target 255; on an
access port it bears the probe's ring id, header sequence and sender. The looped flag is clear (assumption 65), and
the other header fields are free values (assumption 6). Rests on the model's choices in assumptions 1, 5, 6, 12, 37,
39, 65. -/
def Obligations.ProbesAreAnswered : Prop :=
  ∀ (n : Nat) (rx : Stamp) (f : RawFrame) (h : Header) (seq : Seq16) (s : State),
    (∀ (d : Side) (v : Live), v = s.arrived n (.line d) →
      claimedAs s (.line d) rx f { hdr := h, body := .probe seq } = true →
      ∃ r : Header, r.ring = s.tables.node.ringId ∧ r.sender = s.tables.node.id ∧ r.looped = false ∧ r.seq = seq ∧
        r.target = 255 ∧
        exec (.spanProbeArrival n d .ends f) s = .next (s.settled (hand (.line d)
          (mkFrame s.tables r (.reply seq (toNs rx.time) (toNs rx.time)) (.reply rx)) v))) ∧
    (∀ (i : Fin 4) (v : Live), v = s.arrived n (.access i) →
      claimedAs s (.access i) rx f { hdr := h, body := .probe seq } = true →
      ((v.access.get i).state = .deliver ∨ (v.access.get i).state = .degraded →
        ∃ r : Header, r.ring = h.ring ∧ r.seq = h.seq ∧ r.sender = s.tables.node.id ∧ r.target = h.sender ∧
          r.looped = false ∧
          exec (.accessSpanProbe n i .ends f) s = .next (s.settled ((hand (.access i)
            (mkFrame s.tables r (.reply seq (toNs rx.time) (toNs rx.time)) (.reply rx)) v).mapAccess i
              (fun a => { a with replies := min 65535 (a.replies + 1) })))) ∧
      ((v.access.get i).state = .off ∨ (v.access.get i).state = .squelched →
        exec (.accessSpanProbe n i .ends f) s = .next (s.settled (v.mapAccess i
          (fun a => { a with unanswered := min 65535 (a.unanswered + 1) })))))

/-- SPAN_REPLY_ARRIVAL (R96, R98, R99, R100): an unmatched reply is counted and changes nothing else. Every matched
one ends the wait and sets the timeout run to 0, and its sender is the learned neighbour, an id of 255 too (assumption
25); a change of neighbour makes d_f invalid and the count 0 and takes an UP span to PROBING. The neighbour check
comes next: a failing one takes an UP span to PROBING, and a passing one takes a PROBING span with four accepted
samples to UP; a span that leaves UP costs its ring candidate its input. Then the round trip, the local interval less
the remote one, is rejected and counted outside 0 to 2 ms, and otherwise is the last sample, moves the filtered delay
by an eighth, is counted, and may bring the span UP. Each change of a condition is handed on. Rests on the model's
choices in assumptions 1, 5, 25, 39. -/
def Obligations.MatchedReplyMovesTheDelay : Prop :=
  (∀ (n : Nat) (d : Side) (rx : Stamp) (f : RawFrame) (h : Header) (seq : Seq16) (t2 t3 : NsTime) (s : State)
      (v : Live), v = s.arrived n (.line d) → claimedAs s (.line d) rx f { hdr := h, body := .reply seq t2 t3 } = true →
    ((∀ o, (v.span d).outstanding = some o → o.seq ≠ seq) →
      exec (.spanReplyArrival n d .ends f) s = .next (s.settled (v.mapSpan d
        (fun x => { x with unmatched := min 65535 (x.unmatched + 1) })))) ∧
    (∀ (o : Outstanding) (rt : Int), (v.span d).outstanding = some o → o.seq = seq →
      rt = interval o.t1 rx - wrapDiff t3.toPs t2.toPs →
      (∀ (x y z : Span) (u : Live), x = v.span d →
        y = { x with outstanding := none, timeoutRun := 0, learned := some h.sender } →
        z = { y with df := none, accepted := 0 } →
        (x.learned = none ∨ x.learned = some h.sender → u = v.mapSpan d (fun _ => y)) →
        (x.learned ≠ none → x.learned ≠ some h.sender → x.state ≠ .up → u = v.mapSpan d (fun _ => z)) →
        (x.learned ≠ none → x.learned ≠ some h.sender → x.state = .up →
          u = loseInput d.cand (v.mapSpan d (fun _ => { z with state := .probing }))) →
        exec (.spanReplyArrival n d .ends f) s =
          .next (s.settled (spanSample s.tables d rt (neighbourCheck s.tables d u)))) ∧
      (∀ dd : Int, (v.span d).learned = some h.sender →
        neighbourFails (s.tables.port.line.get d) (v.span d) = false →
        dd = max 0 (Int.tdiv rt 2 + (s.tables.port.line.get d).asym) →
        ∃ t : State, exec (.spanReplyArrival n d .ends f) s = .next t ∧ t.tables = s.tables ∧ t.locks = s.locks ∧
          t.live.ts.value = v.ts.value ∧
          (v.losses = [] → (∀ q ∈ (v.port (.line d)).queue, q.note ≠ .probe) →
            (t.live.span d).outstanding = none ∧ (t.live.span d).timeoutRun = 0) ∧
          (rt < 0 ∨ 2000000000 < rt →
            (t.live.span d).rejected = min 65535 ((v.span d).rejected + 1) ∧
            (t.live.span d).last = (v.span d).last) ∧
          (0 ≤ rt → rt ≤ 2000000000 →
            (t.live.span d).last = some (rt, dd) ∧ (t.live.span d).rejected = (v.span d).rejected ∧
            ((t.live.span d).state ≠ .down →
              ((v.port (.line d)).queue.any isProbeFrame = false → (t.live.span d).outstanding = none) ∧
              (t.live.span d).df = some (match (v.span d).df with
                | none => dd
                | some x => x + Int.tdiv (dd - x) 8)))))) ∧
  (∀ (t : Tables) (d : Side) (v : Live) (x : Span) (c : LineCfg), x = v.span d → c = t.port.line.get d →
    (neighbourFails c x = true ↔ c.freeze = true ∧ ∃ a b, c.neighbour = some a ∧ x.learned = some b ∧ a ≠ b) ∧
    (neighbourFails c x = true → x.state = .up → neighbourCheck t d v = refreshAlarms t
      (loseInput d.cand (v.mapSpan d (fun _ => { x with mismatch := true, state := .probing })))) ∧
    (neighbourFails c x = true → x.state ≠ .up →
      neighbourCheck t d v = refreshAlarms t (v.mapSpan d (fun _ => { x with mismatch := true }))) ∧
    (neighbourFails c x = false → neighbourCheck t d v = refreshAlarms t (v.mapSpan d (fun _ => { x with
      mismatch := false, state := if x.state = .probing ∧ 4 ≤ x.accepted then .up else x.state }))) ∧
    (∀ (rt dd : Int) (y : Span), dd = max 0 (Int.tdiv rt 2 + c.asym) →
      y = { x with
        df := some (match x.df with
          | none => dd
          | some f => f + Int.tdiv (dd - f) 8)
        accepted := min 65535 (x.accepted + 1), last := some (rt, dd) } →
      (rt < 0 ∨ 2000000000 < rt →
        spanSample t d rt v = v.mapSpan d (fun _ => { x with rejected := min 65535 (x.rejected + 1) })) ∧
      (0 ≤ rt → rt ≤ 2000000000 → spanSample t d rt v = refreshAlarms t (v.mapSpan d (fun _ => { y with
        state := if x.state = .probing ∧ 4 ≤ y.accepted ∧ neighbourFails c x = false then .up else x.state })))))

/-- THROUGH_FRAME_ARRIVAL and FRAME_RECEIVE_DISCARD (R80 to R86, R192). The first byte of a frame gives it the
timestamp of that instant as receive instant; an end without a first byte, or with the link down, brings nothing, and
the row that names an arrival does not matter. A checked frame of another type or ring joins the through buffer toward
the other port of its pair, or is dropped and counted where it does not fit or that link is down. A frame that fails a
check of R82, in its order, is discarded, and counted on LE and LW. One of this ring is counted as malformed where it
does not parse, and as misdirected where its kind has no owner at its port. An access port takes only a SPAN-PROBE.
During LOADING frames of the vendor type are discarded uncounted and others pass; the part as it stands at the end of
a frame decides (assumption 57). Rests on the model's choices in assumptions 1, 5, 39, 41, 42, 57. -/
def Obligations.FramesPassOrAreDiscarded : Prop :=
  ∀ (n : Nat) (via : Via) (p : Port) (rx : Stamp) (f : RawFrame) (s : State) (v : Live), v = s.arrived n p →
    (∀ (c : Instr) (a : Arrival) (g : RawFrame), arrivalOf c = some (n, p, a, g) →
      exec c s = exec (.frameReceiveDiscard n p a g) s) ∧
    ((s.live.port p).link = true →
      exec (.frameReceiveDiscard n p .begins f) s = .next
        { s with
          live := (s.live.elapse n).mapPort p (fun x => { x with arriving := some (s.live.elapse n).now }) }) ∧
    ((s.live.port p).link = false ∨ (s.live.port p).arriving = none →
      exec (.frameReceiveDiscard n p .ends f) s = .next (s.elapse n)) ∧
    (s.receiving p rx = true →
      (∀ q : Port, p = via.port → throughTo p = some q → 64 ≤ frameLength f → frameLength f ≤ 9600 → f.fcsOk = true →
        s.live.part = .running ∧
            (f.ftype ≠ s.tables.node.ftype ∨ field 2 1 f.payload ≠ s.tables.node.ringId) ∨
          s.live.part = .loading ∧ f.ftype ≠ 0x88B5#16 ∧
            (s.live.nodeKept = true → f.ftype ≠ s.tables.node.ftype) →
        ((v.port q).link = true → throughUsed (v.port q) + frameLength f ≤ 16384 →
          exec (.throughFrameArrival n via .ends f) s = .next (s.settled (grant q
            (v.mapPort q (fun x => { x with through := x.through ++ [f] }))))) ∧
        ((v.port q).link = false ∨ 16384 < throughUsed (v.port q) + frameLength f →
          exec (.throughFrameArrival n via .ends f) s = .next (s.settled
            (v.mapPort q (fun x => { x with throughDrops := min 65535 (x.throughDrops + 1) }))))) ∧
      (∀ d, p = .line d →
        (9600 < frameLength f → exec (.frameReceiveDiscard n p .ends f) s = .next (s.settled
          (v.mapPort p (fun x => { x with overrun := min 65535 (x.overrun + 1) })))) ∧
        (frameLength f < 64 → exec (.frameReceiveDiscard n p .ends f) s = .next (s.settled
          (v.mapPort p (fun x => { x with short := min 65535 (x.short + 1) })))) ∧
        (64 ≤ frameLength f → frameLength f ≤ 9600 → f.fcsOk = false →
          exec (.frameReceiveDiscard n p .ends f) s = .next (s.settled (fcsCheck s.tables d
            ((v.mapPort p (fun x => { x with fcs := min 65535 (x.fcs + 1) })).mapSpan d
              (fun x => { x with fcsCount := min 65535 (x.fcsCount + 1) })))))) ∧
      ((∀ d, p ≠ .line d) → 9600 < frameLength f ∨ frameLength f < 64 ∨ f.fcsOk = false →
        exec (.frameReceiveDiscard n p .ends f) s = .next (s.settled v)) ∧
      (64 ≤ frameLength f → frameLength f ≤ 9600 → f.fcsOk = true → s.live.part = .running →
        (∀ i, p = .access i → f.ftype ≠ s.tables.node.ftype ∨ parseFrame f.payload = none ∨
            (∃ g, parseFrame f.payload = some g ∧ g.body.kind ≠ 2) →
          exec (.frameReceiveDiscard n p .ends f) s = .next (s.settled v)) ∧
        ((∀ i, p ≠ .access i) → f.ftype = s.tables.node.ftype → field 2 1 f.payload = s.tables.node.ringId →
          (parseFrame f.payload = none → exec (.frameReceiveDiscard n p .ends f) s = .next (s.settled
            (v.mapPort p (fun x => { x with malformed := min 65535 (x.malformed + 1) })))) ∧
          (∀ g, parseFrame f.payload = some g →
            (∃ d, p = .line d) ∧ g.body.kind = 8 ∨ (∃ d, p = .site d) ∧ g.body.kind ≠ 6 →
            exec (.frameReceiveDiscard n p .ends f) s = .next (s.settled
              (v.mapPort p (fun x => { x with misdirected := min 65535 (x.misdirected + 1) })))))) ∧
      (64 ≤ frameLength f → frameLength f ≤ 9600 → f.fcsOk = true → s.live.part = .loading →
        f.ftype = 0x88B5#16 ∨ s.live.nodeKept = true ∧ f.ftype = s.tables.node.ftype →
        exec (.frameReceiveDiscard n p .ends f) s = .next (s.settled v)))

/-! ## Time transport -/

/-- EPOCH_ARRIVAL (R107): the four checks in their order, each with its counter. Rests on the model's choices in
assumptions 1, 39. -/
def Obligations.EpochChecksInOrder : Prop :=
  ∀ (n : Nat) (d : Side) (rx : Stamp) (f : RawFrame) (h : Header) (b : EpochBody) (s : State) (v : Live),
    v = s.arrived n (.line d) → claimedAs s (.line d) rx f { hdr := h, body := .epoch b } = true →
    ((v.span d).state ≠ .up → exec (.epochArrival n d .ends f) s = .next (s.settled
      { v with epoch := { v.epoch with notUp := v.epoch.notUp.set d (min 65535 (v.epoch.notUp.get d + 1)) } })) ∧
    ((v.span d).state = .up → h.rev ≠ d.inRev → exec (.epochArrival n d .ends f) s = .next (s.settled
      { v with epoch := { v.epoch with
          wrongDir := v.epoch.wrongDir.set d (min 65535 (v.epoch.wrongDir.get d + 1)) } })) ∧
    ((v.span d).state = .up → h.rev = d.inRev → h.origin = s.tables.node.id →
      exec (.epochArrival n d .ends f) s = .next (s.settled
        { v with epoch := { v.epoch with ownOrigin := min 65535 (v.epoch.ownOrigin + 1) } })) ∧
    ((v.span d).state = .up → h.rev = d.inRev → h.origin ≠ s.tables.node.id → h.hops = 31 →
      exec (.epochArrival n d .ends f) s = .next (s.settled
        { v with epoch := { v.epoch with hopLimit := min 65535 (v.epoch.hopLimit + 1) } }))

/-- EPOCH_ARRIVAL (R44, R108, R109, R110): an EPOCH that passes the checks is forwarded out of the opposite line port
with the hop count one greater and this node as sender, or dropped and counted at a DOWN span; where its origin is the
primary or the standby, the watches of a standby take it, the candidate of its port hears it with θ the receive time
less origin time, correction and d_f, and a sample it forms is handed to the servo where, the selection evaluated
first, that candidate is selected. A DISABLED candidate hears nothing. That the watches take the EPOCH before it is
forwarded, and that it is forwarded before it is heard, is the model's choice (assumption 20). Rests on the model's
choices in assumptions 1, 5, 13, 20, 39, 56. -/
def Obligations.EpochIsForwardedAndHeard : Prop :=
  ∀ (n : Nat) (d : Side) (rx : Stamp) (f : RawFrame) (h : Header) (b : EpochBody) (s : State) (v u w : Live)
      (x theta : Int) (q : QFrame),
    v = s.arrived n (.line d) → claimedAs s (.line d) rx f { hdr := h, body := .epoch b } = true →
    (v.span d).state = .up → (v.span d).df = some x → h.rev = d.inRev → h.origin ≠ s.tables.node.id → h.hops ≠ 31 →
    theta = Int.tdiv (wrapDiff rx.time.toPs (b.time.toPs + b.corr + x)) 1000 →
    q = mkFrame s.tables { h with sender := s.tables.node.id, hops := h.hops + 1 } (.epoch b) (.fwdEpoch x rx) →
    u = (if namesOrigin s.tables.ring h.origin = true then watchPrimary s.tables h b v
      else { v with epoch := { v.epoch with unknownOrigin := min 65535 (v.epoch.unknownOrigin + 1) } }) →
    w = (if (v.span d.other).state = .down
      then { u with epoch := { u.epoch with fwdDrops := min 65535 (v.epoch.fwdDrops + 1) } }
      else hand (.line d.other) q u) →
    (namesOrigin s.tables.ring h.origin = false ∨ (v.cands.get d.cand).state = .disabled →
      exec (.epochArrival n d .ends f) s = .next (s.settled w)) ∧
    (∀ (formed : Bool) (y z : Live), namesOrigin s.tables.ring h.origin = true →
      (v.cands.get d.cand).state ≠ .disabled → hearEpoch s.tables d.cand h b theta w = (formed, y) →
      z = settleSelection s.tables 4 y →
      (formed = false → exec (.epochArrival n d .ends f) s = .next (s.settled y)) ∧
      (formed = true → z.selection ≠ some d.cand → exec (.epochArrival n d .ends f) s = .next (s.settled z)) ∧
      (formed = true → z.selection = some d.cand →
        exec (.epochArrival n d .ends f) s = .next (s.settled (servoSample s.tables theta z))))

/-- TAKEOVER_TIME_REACHED (R104, R115, R122): a standby origin that is not active, LOCKED to REF, whose takeover timer
has reached the takeover time, becomes active: the watch stops, the revert watch does not run, the takeover is
counted, and a roll cycle begins. The same takeover is made within whatever command brings the last of these
conditions about, a REFP pulse, an EPOCH or a write, since `takeoverCheck` is part of what follows every event
(`RollClockAndTimeoutDriveTheCycle`); where one of them fails it changes nothing. REVERT_WATCH_GAP_EXPIRY and
REVERT_HOLD_OFF_REACHED (R116, R117): after 3 epoch intervals without a qualifying EPOCH the revert watch stops; an
active standby whose watch reaches the hold-off from its start ceases to be active, which is counted, and its takeover
watch starts at 0. An EPOCH of the primary (R114, R116) restarts the takeover timer at 0 at a standby that is not
active, unless its class is Q4; at an active one, where its class is no worse than the own class, it starts the revert
watch or refreshes its last-qualifying instant; no other EPOCH acts on the watches. A node that becomes a head starts
its roll clock and its first cycle, the head items of the ring map afresh and the ring status UNKNOWN (assumption 46);
one that ceases to be a head stops its clock and cycle, its head items absent, and its status is UNKNOWN where it
hears no head (R122, R129, R136, R138). Rests on the model's choices in assumptions 1, 3, 16, 46. -/
def Obligations.StandbyTakesOverAndReverts : Prop :=
  (∀ (n : Nat) (s : State) (v : Live), v = s.live.elapse n → originRole s.tables = .standby →
    (∀ tm : Timer, s.live.part = .running → v.epoch.active = false → v.epoch.takeover = some tm →
      (s.tables.ring.takeover : Int) * 1000000000000 ≤ tm.base + interval tm.since v.now →
      v.servo.state = .locked → v.selection = some .ref →
      ∃ t : State, exec (.takeoverTimeReached n) s = .next t ∧ t.tables = s.tables ∧ t.locks = s.locks ∧
        t.live.epoch.active = true ∧ t.live.epoch.takeover = none ∧ t.live.epoch.revert = none ∧
        t.live.epoch.takeovers = min 65535 (v.epoch.takeovers + 1) ∧ t.live.roll.seq = v.roll.seq + 1 ∧
        t.live.ts.value = v.ts.value) ∧
    (∀ r : RevertWatch, v.epoch.revert = some r →
      (3 * (1000000000 / s.tables.ring.rate : Nat) * 1000 ≤ interval r.gapSince v.now →
        exec (.revertWatchGapExpiry n) s =
          .next (s.settled { v with epoch := { v.epoch with revert := none } })) ∧
      (v.epoch.active = true → (s.tables.ring.revert : Int) * 1000000000000 ≤ interval r.start v.now →
        exec (.revertHoldOffReached n) s = .next (s.settled (ceaseHead { v with epoch := { v.epoch with
          active := false, revert := none, takeover := some { since := v.now, base := 0 }
          reverts := min 65535 (v.epoch.reverts + 1) } }))))) ∧
  (∀ (t : Tables) (h : Header) (b : EpochBody) (v : Live),
    (originRole t ≠ .standby ∨ h.origin ≠ t.ring.primary → watchPrimary t h b v = v) ∧
    (originRole t = .standby → h.origin = t.ring.primary → v.epoch.active = false →
      (b.cls ≠ .q4 → watchPrimary t h b v =
        { v with epoch := { v.epoch with takeover := some { since := v.now, base := 0 } } }) ∧
      (b.cls = .q4 → watchPrimary t h b v = v)) ∧
    (originRole t = .standby → h.origin = t.ring.primary → v.epoch.active = true →
      (v.ownClass.num < b.cls.num → watchPrimary t h b v = v) ∧
      (b.cls.num ≤ v.ownClass.num →
        (v.epoch.revert = none → watchPrimary t h b v =
          { v with epoch := { v.epoch with
              revert := some { start := v.now, lastQual := v.now, gapSince := v.now } } }) ∧
        (∀ r, v.epoch.revert = some r → watchPrimary t h b v =
          { v with epoch := { v.epoch with
              revert := some { start := r.start, lastQual := v.now, gapSince := v.now } } })))) ∧
  (∀ (t : Tables) (v : Live) (cleared : List MapEntry),
    cleared = v.roll.map.map (fun e => { e with
      miss := 0, mergeRev := none, mergeGen := none, config := none, marker := false }) →
    becomeActive t v = becomeHead t { v with epoch := { v.epoch with
      active := true, takeover := none, revert := none } } ∧
    becomeHead t v = rollTick t { v with roll := { v.roll with
      map := cleared, clock := some v.osc, cycle := none, status := .unknown } } ∧
    ceaseHead v = { v with roll := { v.roll with
      map := cleared, clock := none, cycle := none, fwd := none, rev := none
      status := if v.epoch.active = false ∧ v.roll.heads = [] then .unknown else v.roll.status } } ∧
    (∀ tm : Timer, originRole t = .standby → v.epoch.active = false → v.epoch.takeover = some tm →
      (t.ring.takeover : Int) * 1000000000000 ≤ tm.base + interval tm.since v.now → v.part = .running →
      v.servo.state = .locked → v.selection = some .ref →
      takeoverCheck t v = becomeActive t { v with epoch := { v.epoch with
        takeovers := min 65535 (v.epoch.takeovers + 1) } }) ∧
    (originRole t ≠ .standby ∨ v.epoch.active = true ∨ v.epoch.takeover = none ∨
        (∃ tm, v.epoch.takeover = some tm ∧
          tm.base + interval tm.since v.now < (t.ring.takeover : Int) * 1000000000000) ∨
        v.part = .loading ∨ v.servo.state ≠ .locked ∨ v.selection ≠ some .ref → takeoverCheck t v = v))

/-! ## The roll and the ring map -/

/-- ROLL_CLOCK_TICK and ROLL_TIMEOUT (R122, R123, R124, R126): a tick starts the clock's count again; with a cycle in
progress it begins nothing; with none, the next cycle takes the timeout and the member list in force, and its forward
ROLL is sent, or, at a DOWN span on LE, its reverse ROLL with this node as the forward loop point; with both spans
DOWN the cycle ends at once, both outcomes LOOPED at this node. When the roll timer of the forward ROLL runs out it is
counted, and the reverse ROLL is sent under the same sequence, or, with LW DOWN, the cycle ends with the reverse
outcome LOOPED at this node; when that of the reverse ROLL runs out, the cycle ends. What follows every event: the
selection is evaluated and the own class derived until neither changes, a takeover that has become due is made, and
the conditions reach their points (R42, R77, R115, R166); then up to 16 frames lost unsent are worked off in their
order, each with what follows from it in turn: a ROLL of the cycle acts as a timeout, and a probe removed from its
queue is a probe timeout (R95, R124; assumption 8). That what follows the event comes before the losses is assumption
66, that a lost ROLL other than the outstanding one of the cycle in progress changes nothing assumption 70, that a
lost probe leaves an earlier one in its reply wait assumption 68, and that a condition reaches its point with its last
value assumption 71. Rests on the model's choices in assumptions 1, 3, 8, 35, 43, 66, 68, 70, 71. -/
def Obligations.RollClockAndTimeoutDriveTheCycle : Prop :=
  (∀ (n : Nat) (s : State) (v : Live) (fresh : Cycle), v = s.live.elapse n →
    fresh = { seq := v.roll.seq + 1, timeout := s.tables.ring.timeout, members := s.tables.ring.members, rev := false,
              sentAt := none, firstSent := none, fwd := none, seen := [] } →
    (∀ k : Nat, v.roll.clock = some k → 125000 * s.tables.ring.interval ≤ v.osc - k →
      (v.roll.cycle ≠ none →
        exec (.rollClockTick n) s = .next (s.settled { v with roll := { v.roll with clock := some v.osc } })) ∧
      (v.roll.cycle = none → (v.span .east).state ≠ .down →
        exec (.rollClockTick n) s = .next (s.settled (sendRoll s.tables false fresh.seq
          { v with roll := { v.roll with clock := some v.osc, seq := fresh.seq, cycle := some fresh } }))) ∧
      (v.roll.cycle = none → (v.span .east).state = .down → (v.span .west).state ≠ .down →
        exec (.rollClockTick n) s = .next (s.settled (sendRoll s.tables true fresh.seq
          { v with roll := { v.roll with
              clock := some v.osc, seq := fresh.seq
              cycle := some { fresh with
                rev := true, fwd := some { outcome := .looped, loopId := some s.tables.node.id } } } }))) ∧
      (∀ o : RollResult, o = { outcome := .looped, loopId := some s.tables.node.id } →
        v.roll.cycle = none → (∀ d, (v.span d).state = .down) →
        exec (.rollClockTick n) s = .next (s.settled (endCycle s.tables
          { fresh with rev := true, fwd := some o } o (some o)
          { v with roll := { v.roll with clock := some v.osc, seq := fresh.seq, cycle := some fresh } })))) ∧
    (∀ (c : Cycle) (a : Stamp), v.roll.cycle = some c → c.sentAt = some a →
      (c.timeout : Int) * 100000000 ≤ interval a v.now →
      (c.fwd = none → (v.span .west).state ≠ .down →
        exec (.rollTimeout n) s = .next (s.settled (sendRoll s.tables true c.seq
          { v with roll := { v.roll with
              rollTimeouts := min 65535 (v.roll.rollTimeouts + 1)
              cycle := some { c with
                rev := true, sentAt := none, fwd := some { outcome := .timedOut, loopId := none } } } }))) ∧
      (∀ o : RollResult, o = { outcome := .timedOut, loopId := none } →
        c.fwd = none → (v.span .west).state = .down →
        exec (.rollTimeout n) s = .next (s.settled (endCycle s.tables
          { c with rev := true, sentAt := none, fwd := some o } o
          (some { outcome := .looped, loopId := some s.tables.node.id })
          { v with roll := { v.roll with rollTimeouts := min 65535 (v.roll.rollTimeouts + 1) } }))) ∧
      (∀ f, c.fwd = some f →
        exec (.rollTimeout n) s = .next (s.settled (endCycle s.tables c f (some { outcome := .timedOut, loopId := none })
          { v with roll := { v.roll with rollTimeouts := min 65535 (v.roll.rollTimeouts + 1) } }))))) ∧
  (∀ (t : Tables) (v w : Live) (fresh : Cycle) (o : RollResult), o = { outcome := .looped, loopId := some t.node.id } →
    fresh = { seq := v.roll.seq + 1, timeout := t.ring.timeout, members := t.ring.members, rev := false,
              sentAt := none, firstSent := none, fwd := none, seen := [] } →
    w = { v with roll := { v.roll with clock := some v.osc, seq := fresh.seq, cycle := some fresh } } →
    (v.roll.cycle ≠ none → rollTick t v = { v with roll := { v.roll with clock := some v.osc } }) ∧
    (v.roll.cycle = none →
      ((v.span .east).state ≠ .down → rollTick t v = sendRoll t false fresh.seq w) ∧
      ((v.span .east).state = .down → (v.span .west).state ≠ .down → rollTick t v = sendRoll t true fresh.seq
        { w with roll := { w.roll with cycle := some { fresh with rev := true, fwd := some o } } }) ∧
      ((∀ d, (v.span d).state = .down) →
        rollTick t v = endCycle t { fresh with rev := true, fwd := some o } o (some o) w))) ∧
  (∀ (t : Tables) (d : Side) (seq : Seq16) (rev : Bool) (v w u : Live),
    (∀ c, v.roll.cycle = some c → c.seq = seq → c.rev = rev → takeLoss t (.roll seq rev) v =
      rollOutcome t { outcome := .timedOut, loopId := none }
        { v with roll := { v.roll with rollTimeouts := min 65535 (v.roll.rollTimeouts + 1) } }) ∧
    ((∀ c, v.roll.cycle = some c → ¬ (c.seq = seq ∧ c.rev = rev)) → takeLoss t (.roll seq rev) v = v) ∧
    (w = v.mapSpan d (fun x => { x with
        timeoutRun := min 3 (x.timeoutRun + 1), timeouts := min 65535 (x.timeouts + 1) }) →
      ((v.span d).timeoutRun < 2 ∨ (v.span d).state = .down → takeLoss t (.probe d) v = w) ∧
      (2 ≤ (v.span d).timeoutRun → (v.span d).state ≠ .down → takeLoss t (.probe d) v = enterDown t d w)) ∧
    settle t v = refreshAlarms t (takeoverCheck t (settleSelection t 4 v)) ∧
    finish t v = workLosses t 16 (settle t v) ∧ workLosses t 0 v = v ∧
    (∀ k : Nat, (v.losses = [] → workLosses t (k + 1) v = v) ∧
      ∀ l ls, v.losses = l :: ls →
        workLosses t (k + 1) v = workLosses t k (settle t (takeLoss t l { v with losses := ls }))) ∧
    (u = settle t v →
      (u.losses = [] → finish t v = u) ∧
      (∀ l, u.losses = [l] → ∀ y, y = settle t (takeLoss t l { u with losses := [] }) → y.losses = [] →
        finish t v = y)))

/-- R123, R124, R126, R132, R144, R166: the ROLL a head forms bears its id, its rank and its ring status, clear of the
looped flag; a silent, mismatch or pending bit is set exactly where the ring map entry says so; its own slot is filled
afresh, and every other slot is the last contents of its entry with the carried flag set, or empty. A ROLL of the
cycle is formed once the conditions changed so far have reached their points, on the ring map as it then stands; the
head's own entry takes its slot and is PRESENT, and the frame is handed to LE, or to LW for the reverse ROLL. That the
ROLL is formed before the entry is written is the model's choice (assumption 50). -/
def Obligations.FormedRollCarriesTheView : Prop :=
  (∀ (t : Tables) (rev : Bool) (seq : Seq16) (v u : Live) (own : Slot), u = refreshAlarms t v →
    own = { fillSeq := seq, servo := u.servo.state, cls := u.ownClass, summary := summaryCode u.alarms.summary,
            gen := t.ring.gen, stale := false, mismatch := decide (u.roll.rejectedGen = some t.ring.gen),
            duplicate := u.roll.duplicate.isSome, carried := false, serial := t.node.serial } →
    sendRoll t rev seq v = hand (.line (if rev then .west else .east)) (rollFrame t rev seq u)
      { u with roll := { u.roll with
          map := modifyAt t.node.id (fun e => { e with presence := .present, slot := some own }) u.roll.map } }) ∧
  ∀ (t : Tables) (rev : Bool) (seq : Seq16) (v : Live), ∃ b : RollBody,
    (rollFrame t rev seq v).frame =
      { hdr := { ring := t.node.ringId, rev := rev, looped := false, origin := t.node.id, sender := t.node.id,
                 target := 255, hops := 0, seq := seq }
        body := .roll b } ∧
    b.rank = (if originRole t = .standby then 1 else 0) ∧ b.seq = seq ∧ b.status = v.roll.status ∧
    b.loopId = none ∧ b.headGen = t.ring.gen ∧ b.slots.length = 32 ∧
    (∀ i, i < 32 →
      (inSet b.silent i = true ↔ ∃ e, v.roll.map[i]? = some e ∧ e.presence = .silent) ∧
      (inSet b.mismatch i = true ↔ ∃ e, v.roll.map[i]? = some e ∧ e.config = some .mismatch) ∧
      (inSet b.pending i = true ↔ ∃ e, v.roll.map[i]? = some e ∧ e.config = some .pending) ∧
      (i = t.node.id → b.slots[i]? = some (some
        { fillSeq := seq, servo := v.servo.state, cls := v.ownClass, summary := summaryCode v.alarms.summary,
          gen := t.ring.gen, stale := false, mismatch := decide (v.roll.rejectedGen = some t.ring.gen),
          duplicate := v.roll.duplicate.isSome, carried := false, serial := t.node.serial })) ∧
      (i ≠ t.node.id → ∀ e, v.roll.map[i]? = some e →
        b.slots[i]? = some (e.slot.map (fun x => { x with carried := true }))))

/-- R126, R127, R128, R137, R144: the end of a cycle first judges every entry other than the head's own that is
configured or PRESENT: a returned slot sets the miss count to 0 and a SILENT entry to PRESENT; otherwise the count
grows to at most 3, where a configured entry becomes SILENT and another becomes UNKNOWN without contents. It then
derives the ring status from the outcomes as the table gives it, keeps both outcomes, counts a change to a status
other than FORWARD, and sets the cycle time in whole microseconds, with the minimum and the maximum; and then the
config state of every configured node but this one, UNSEEN, MISMATCH, IN-SYNC or PENDING, the first that fits. The
CONFIG work that follows changes none of these. That silent detection judges configured by the member list the cycle
took when it began, and not by the list in force at its end, is the model's choice (assumption 15). -/
def Obligations.CycleEndDerivesTheStatus : Prop :=
  ∀ (t : Tables) (c : Cycle) (f : RollResult) (r : Option RollResult) (v w : Live) (micros : Nat),
    w = endCycle t c f r v →
    micros = (match c.firstSent with
      | some a => (interval a v.now).toNat / 1000000
      | none => 0) →
    w.roll.cycle = none ∧ w.roll.fwd = some f ∧ w.roll.rev = r ∧ w.roll.cycleTime = some micros ∧
    w.roll.cycleMin = some (min micros (v.roll.cycleMin.getD micros)) ∧
    w.roll.cycleMax = some (max micros (v.roll.cycleMax.getD micros)) ∧
    (f.outcome = .returned → w.roll.status = .forward) ∧
    (∀ x, r = some x → f.outcome ≠ .returned → x.outcome = .returned → w.roll.status = .reverse) ∧
    (∀ x, r = some x → f.outcome = .looped → x.outcome = .looped → w.roll.status = .loopbackBoth) ∧
    (∀ x, r = some x → f.outcome = .looped → x.outcome = .timedOut → w.roll.status = .loopbackFwd) ∧
    (∀ x, r = some x → f.outcome = .timedOut → x.outcome = .looped → w.roll.status = .loopbackRev) ∧
    (∀ x, r = some x → f.outcome = .timedOut → x.outcome = .timedOut → w.roll.status = .isolated) ∧
    w.roll.loopSwitches = (if w.roll.status ≠ v.roll.status ∧ w.roll.status ≠ .forward
      then min 65535 (v.roll.loopSwitches + 1) else v.roll.loopSwitches) ∧
    ∀ (i : Nat) (e : MapEntry), v.roll.map[i]? = some e → ∃ x : MapEntry, w.roll.map[i]? = some x ∧
      x.mergeRev = e.mergeRev ∧ x.mergeGen = e.mergeGen ∧
      (i = t.node.id ∨ i ∉ c.members ∧ e.presence ≠ .present →
        x.presence = e.presence ∧ x.slot = e.slot ∧ x.miss = e.miss) ∧
      (i ≠ t.node.id → i ∈ c.members ∨ e.presence = .present →
        (i ∈ c.seen → x.miss = 0 ∧ x.slot = e.slot ∧
          x.presence = (if e.presence = .silent then .present else e.presence)) ∧
        (i ∉ c.seen → e.miss < 2 → x.miss = e.miss + 1 ∧ x.slot = e.slot ∧ x.presence = e.presence) ∧
        (i ∉ c.seen → 2 ≤ e.miss → i ∈ c.members → x.miss = 3 ∧ x.slot = e.slot ∧ x.presence = .silent) ∧
        (i ∉ c.seen → 2 ≤ e.miss → i ∉ c.members → x.miss = 0 ∧ x.slot = none ∧ x.presence = .unknown)) ∧
      (i ∉ t.ring.members ∨ i = t.node.id → x.config = none) ∧
      (i ∈ t.ring.members → i ≠ t.node.id →
        (x.slot = none ∨ x.presence = .silent → x.config = some .unseen) ∧
        (∀ y, x.slot = some y → x.presence ≠ .silent →
          (y.mismatch = true → x.mergeGen = some t.ring.gen → x.config = some .mismatch) ∧
          (y.mismatch = false ∨ x.mergeGen ≠ some t.ring.gen →
            x.config = some (if y.gen = t.ring.gen then .inSync else .pending))))

/-- ROLL_ARRIVAL (R125, R126, R130, R136): the checks in their order, each with its counter; a ROLL of this node's id
is late at a head with no cycle, with a cycle of another sequence, or where its port and looped flag do not fit the
outstanding ROLL; one that fits is a return: the slots that bear the cycle's sequence with the carried flag clear are
merged, an entry that held none becoming PRESENT, and the outcome, with the loop point of a looped one, goes on to the
reverse ROLL or ends the cycle. A ROLL of the cycle counts as the outstanding one from its forming on (assumption 51).
A ROLL of another head that passes is heard, filled and sent on. Where a return ends the cycle, the conditions are
handed over after both (assumption 71). Rests on the model's choices in assumptions 1, 39, 51, 71. -/
def Obligations.RollChecksInOrder : Prop :=
  (∀ (n : Nat) (d : Side) (rx : Stamp) (f : RawFrame) (h : Header) (b : RollBody) (s : State) (v : Live),
    v = s.arrived n (.line d) → claimedAs s (.line d) rx f { hdr := h, body := .roll b } = true →
    (namesOrigin s.tables.ring h.origin = false → exec (.rollArrival n d .ends f) s = .next (s.settled
      { v with roll := { v.roll with unknownHead := min 65535 (v.roll.unknownHead + 1) } })) ∧
    (namesOrigin s.tables.ring h.origin = true →
      (h.rev ≠ d.inRev → exec (.rollArrival n d .ends f) s = .next (s.settled
        { v with roll := { v.roll with
            wrongDir := v.roll.wrongDir.set d (min 65535 (v.roll.wrongDir.get d + 1)) } })) ∧
      (h.rev = d.inRev → h.origin = s.tables.node.id → v.epoch.active = false →
        exec (.rollArrival n d .ends f) s = .next (s.settled
          { v with roll := { v.roll with ownHead := min 65535 (v.roll.ownHead + 1) } })) ∧
      (h.rev = d.inRev → h.origin = s.tables.node.id → v.epoch.active = true →
        (v.roll.cycle = none ∨ ∃ c, v.roll.cycle = some c ∧
          (b.seq ≠ c.seq ∨ h.looped = decide (d = .west ↔ c.rev = false))) →
        exec (.rollArrival n d .ends f) s = .next (s.settled
          { v with roll := { v.roll with lateRolls := min 65535 (v.roll.lateRolls + 1) } })) ∧
      (∀ c, h.rev = d.inRev → h.origin = s.tables.node.id → v.epoch.active = true → v.roll.cycle = some c →
        b.seq = c.seq → h.looped = decide (d = .east ↔ c.rev = false) →
        ∃ (m : List MapEntry) (ids : List Nat),
          (∀ (i : Nat) (e : MapEntry), v.roll.map[i]? = some e →
            (∀ x, b.slots[i]? = some (some x) → x.fillSeq = c.seq → x.carried = false → i ∈ ids ∧
              m[i]? = some { e with
                presence := if e.slot = none then .present else e.presence
                slot := some x, mergeRev := some c.rev, mergeGen := some b.headGen }) ∧
            ((∀ x, b.slots[i]? = some (some x) → ¬ (x.fillSeq = c.seq ∧ x.carried = false)) →
              i ∉ ids ∧ m[i]? = some e)) ∧
          exec (.rollArrival n d .ends f) s = .next (s.settled (rollOutcome s.tables
            { outcome := if h.looped then .looped else .returned, loopId := if h.looped then b.loopId else none }
            { v with roll := { v.roll with map := m, cycle := some { c with seen := c.seen ++ ids } } }))) ∧
      (h.rev = d.inRev → h.origin ≠ s.tables.node.id → h.hops = 31 →
        exec (.rollArrival n d .ends f) s = .next (s.settled
          { v with roll := { v.roll with hopLimit := min 65535 (v.roll.hopLimit + 1) } })) ∧
      (h.rev = d.inRev → h.origin ≠ s.tables.node.id → h.hops ≠ 31 →
        exec (.rollArrival n d .ends f) s = .next (s.settled (rollPasses s.tables d h b v))))) ∧
  (∀ (t : Tables) (o : RollResult) (c : Cycle) (v : Live), v.roll.cycle = some c →
    (∀ x, c.fwd = some x → rollOutcome t o v = endCycle t c x (some o) v) ∧
    (c.fwd = none → o.outcome = .returned → rollOutcome t o v = endCycle t c o none v) ∧
    (c.fwd = none → o.outcome ≠ .returned → (v.span .west).state ≠ .down → rollOutcome t o v = sendRoll t true c.seq
      { v with roll := { v.roll with cycle := some { c with rev := true, sentAt := none, fwd := some o } } }) ∧
    (c.fwd = none → o.outcome ≠ .returned → (v.span .west).state = .down → rollOutcome t o v =
      endCycle t { c with rev := true, sentAt := none, fwd := some o } o
        (some { outcome := .looped, loopId := some t.node.id }) v))

/-- R131, R132, R133, R134, R138, R148, R166: a ROLL that passes is heard: its head's entry is refreshed in its place
or joins the end of the list. The preferred head is the listed one of lowest rank and then lowest id. The node fills
its own slot and leaves the others; a slot that bears this ROLL's sequence, its carried flag clear, and another serial
sets the duplicate flag. A member whose preferred head sent it copies the view: the ring status, the three sets and
the head generation; every filled slot, its own included, enters its entry, an empty one leaves its entry's contents,
and presence follows the silent set and then the contents; a rejected generation the head has left ends. The ROLL goes
on with the hop count one greater, or, at a DOWN span, back out of its arrival port, looped, its direction flipped; a
second break, or an arrival port whose link is down, drops it. The slot is filled once the duplicate flag has reached
the alarm unit. A ROLL sent on keeps the target id and the header sequence it arrived with (assumption 74). That a
head's map stands where it fills the slot of another head's ROLL, and that a ROLL sent on takes this node's Ethernet
fields afresh, and the place of a head's entry in its list, are the model's choices (assumptions 14, 13, 63). Rests on
the model's choices in assumptions 13, 14, 63, 74. -/
def Obligations.MemberCopiesTheView : Prop :=
  (∀ (t : Tables) (d : Side) (h : Header) (b : RollBody) (v w y z : Live), w = rollPasses t d h b v →
    z = hearHead h.origin b.rank v →
    (∀ x, b.slots[t.node.id]? = some (some x) → x.fillSeq = b.seq → x.carried = false → x.serial ≠ t.node.serial →
      y = refreshAlarms t { z with roll := { z.roll with duplicate := some v.now } }) →
    ((∀ x, b.slots[t.node.id]? = some (some x) →
        ¬ (x.fillSeq = b.seq ∧ x.carried = false ∧ x.serial ≠ t.node.serial)) → y = z) →
    ∃ (g : RollBody) (u : Live), w = sendRollOn t d h g u ∧ u.spans = v.spans ∧ u.io = y.io ∧ u.alarms = y.alarms ∧
      { b with slots := [] } = { g with slots := [] } ∧ g.slots.length = b.slots.length ∧
      (∀ i, i ≠ t.node.id → g.slots[i]? = b.slots[i]?) ∧
      (t.node.id < b.slots.length → g.slots[t.node.id]? = some (some
        { fillSeq := b.seq, servo := v.servo.state, cls := v.ownClass, summary := summaryCode y.alarms.summary,
          gen := t.ring.gen, stale := decide (t.ring.gen ≠ b.headGen),
          mismatch := decide (v.roll.rejectedGen = some b.headGen), duplicate := w.roll.duplicate.isSome,
          carried := false, serial := t.node.serial })) ∧
      (∀ x, b.slots[t.node.id]? = some (some x) → x.fillSeq = b.seq → x.carried = false → x.serial ≠ t.node.serial →
        w.roll.duplicate = some v.now) ∧
      ((∀ x, b.slots[t.node.id]? = some (some x) →
          ¬ (x.fillSeq = b.seq ∧ x.carried = false ∧ x.serial ≠ t.node.serial)) →
        w.roll.duplicate = v.roll.duplicate) ∧
      { id := h.origin, rank := b.rank, heardAt := v.now } ∈ w.roll.heads ∧
      (v.epoch.active = false → preferredHead (hearHead h.origin b.rank v) = some h.origin →
        w.roll.status = b.status ∧
        w.roll.view = some { seq := b.seq, headGen := b.headGen, silent := b.silent, mismatch := b.mismatch,
                             pending := b.pending } ∧
        w.roll.rejectedGen = (if v.roll.rejectedGen = some b.headGen then v.roll.rejectedGen else none) ∧
        (∀ (i : Nat) (e : MapEntry), v.roll.map[i]? = some e →
          (∀ x, g.slots[i]? = some (some x) →
            w.roll.map[i]? = some { e with
              slot := some x, presence := if inSet b.silent i then .silent else .present }) ∧
          (g.slots[i]? = some none →
            w.roll.map[i]? = some { e with
              presence := if inSet b.silent i then .silent else if e.slot.isSome then .present else .unknown }))) ∧
      (v.epoch.active = true ∨ preferredHead (hearHead h.origin b.rank v) ≠ some h.origin →
        w.roll.status = v.roll.status ∧ w.roll.view = v.roll.view ∧ w.roll.map = v.roll.map ∧
        w.roll.rejectedGen = v.roll.rejectedGen)) ∧
  (∀ (t : Tables) (d : Side) (h : Header) (g : RollBody) (v : Live),
    ((v.span d.other).state ≠ .down → sendRollOn t d h g v = hand (.line d.other)
      (mkFrame t { h with sender := t.node.id, hops := h.hops + 1 } (.roll g) .plain) v) ∧
    ((v.span d.other).state = .down → h.looped = false → (v.port (.line d)).link = true →
      sendRollOn t d h g v = hand (.line d)
        (mkFrame t { h with sender := t.node.id, looped := true, rev := !h.rev, hops := 0 }
          (.roll { g with loopId := some t.node.id }) .plain) v) ∧
    ((v.span d.other).state = .down → h.looped = true ∨ (v.port (.line d)).link = false →
      sendRollOn t d h g v = { v with roll := { v.roll with loopDrops := min 65535 (v.roll.loopDrops + 1) } })) ∧
  (∀ v : Live, (preferredHead v = none ↔ v.roll.heads = []) ∧
    ∀ id, preferredHead v = some id → ∃ x ∈ v.roll.heads, x.id = id ∧
      ∀ y ∈ v.roll.heads, x.rank < y.rank ∨ x.rank = y.rank ∧ x.id ≤ y.id) ∧
  (∀ (id rank : Nat) (v : Live) (a z : List HeadHeard) (o e : HeadHeard),
    e = { id := id, rank := rank, heardAt := v.now } →
    (v.roll.heads = a ++ o :: z → o.id = id → (∀ y ∈ a ++ z, y.id ≠ id) →
      hearHead id rank v = { v with roll := { v.roll with heads := a ++ e :: z } }) ∧
    ((∀ y ∈ v.roll.heads, y.id ≠ id) →
      hearHead id rank v = { v with roll := { v.roll with heads := v.roll.heads ++ [e] } }))

/-- HEAD_ENTRY_EXPIRY (R131, R138): a head's entry goes when 3 roll intervals have passed since its last ROLL; the last
one to go at a member takes the ring status to UNKNOWN. DUPLICATE_FLAG_EXPIRY (R132): the flag clears after 3 roll
intervals without a detection. Rests on the model's choices in assumptions 1, 3. -/
def Obligations.HeadAndDuplicateExpire : Prop :=
  ∀ (n : Nat) (s : State) (v : Live), v = s.live.elapse n →
    (∀ o : HeadHeard, o ∈ v.roll.heads →
      3 * (s.tables.ring.interval : Int) * 1000000000 ≤ interval o.heardAt v.now →
      (∃ t : State, exec (.headEntryExpiry n o.id) s = .next t ∧ t.tables = s.tables ∧ t.locks = s.locks ∧
        o ∉ t.live.roll.heads ∧ (∀ p ∈ v.roll.heads, p.id ≠ o.id → p ∈ t.live.roll.heads) ∧
        t.live.ts.value = v.ts.value) ∧
      (v.roll.heads = [o] → v.epoch.active = false →
        exec (.headEntryExpiry n o.id) s =
          .next (s.settled { v with roll := { v.roll with heads := [], status := .unknown } }))) ∧
    (∀ a : Stamp, v.roll.duplicate = some a → 3 * (s.tables.ring.interval : Int) * 1000000000 ≤ interval a v.now →
      exec (.duplicateFlagExpiry n) s = .next (s.settled { v with roll := { v.roll with duplicate := none } }))

/-- CONFIG_ARRIVAL (R146, R147, R148): a CONFIG that fails a check is discarded; one for another node goes on, or is
dropped at a DOWN span; one for this node is discarded under the PRIMARY role, deferred during a commit, discarded at
generation 0, refused where a member check or the lock of RING fails, its generation then rejected, and adopted
otherwise: the RING table is then the offered one, and no generation is rejected. R143, R145: a head of generation 0,
one that hears a head of lower rank, and one with both spans DOWN send no CONFIG; another sends one to each of at most
four PENDING nodes in ring order from the position after the last node served, those of clear marker first, then those
marked, each by the nearer side under FORWARD, by the side of its merge otherwise, and by the other side at a DOWN
span; the nearer side is LE up to half the member count ahead. The member checks: the id is a member, a PRIMARY is the
primary, a STANDBY the standby, a MEMBER neither. R144: the config states are derived row by row, and the CONFIG
marker is cleared on entry to PENDING and for every PENDING entry at a change of generation. A CONFIG's looped flag is
clear (assumption 65). That the ring order and the side are those of the member list in force when the scan is made,
at the end of a cycle too, is the model's choice (assumption 72). Rests on the model's choices in assumptions 1, 13,
39, 65, 72. -/
def Obligations.ConfigIsJudged : Prop :=
  (∀ (n : Nat) (d : Side) (rx : Stamp) (f : RawFrame) (h : Header) (b : ConfigBody) (s : State) (v : Live),
    v = s.arrived n (.line d) → claimedAs s (.line d) rx f { hdr := h, body := .config b } = true →
    (namesOrigin s.tables.ring h.origin = false ∨ h.rev ≠ d.inRev ∨ h.origin = s.tables.node.id ∨ h.hops = 31 →
      exec (.configArrival n d .ends f) s = .next (s.settled
        { v with roll := { v.roll with configDiscards := min 65535 (v.roll.configDiscards + 1) } })) ∧
    (namesOrigin s.tables.ring h.origin = true → h.rev = d.inRev → h.origin ≠ s.tables.node.id → h.hops ≠ 31 →
      (h.target ≠ s.tables.node.id → (v.span d.other).state = .down →
        exec (.configArrival n d .ends f) s = .next (s.settled
          { v with roll := { v.roll with configDrops := min 65535 (v.roll.configDrops + 1) } })) ∧
      (h.target ≠ s.tables.node.id → (v.span d.other).state ≠ .down →
        exec (.configArrival n d .ends f) s = .next (s.settled (hand (.line d.other)
          (mkFrame s.tables { h with sender := s.tables.node.id, hops := h.hops + 1 } (.config b) .plain) v))) ∧
      (h.target = s.tables.node.id →
        (s.tables.node.role = .primary →
          exec (.configArrival n d .ends f) s = .next (s.settled
            { v with roll := { v.roll with configDiscards := min 65535 (v.roll.configDiscards + 1) } })) ∧
        (s.tables.node.role ≠ .primary → s.store.commit ≠ none →
          exec (.configArrival n d .ends f) s = .next (s.settled
            { v with roll := { v.roll with configDeferred := min 65535 (v.roll.configDeferred + 1) } })) ∧
        (s.tables.node.role ≠ .primary → s.store.commit = none → b.ring.gen = 0 →
          exec (.configArrival n d .ends f) s = .next (s.settled
            { v with roll := { v.roll with configDiscards := min 65535 (v.roll.configDiscards + 1) } })) ∧
        (s.tables.node.role ≠ .primary → s.store.commit = none → b.ring.gen ≠ 0 →
          memberChecks s.tables.node b.ring = false ∨ s.locks.ring ≠ .opened →
          exec (.configArrival n d .ends f) s = .next (s.settled
            { v with roll := { v.roll with
                rejectedGen := some b.ring.gen, configRefused := min 65535 (v.roll.configRefused + 1) } })) ∧
        (s.tables.node.role ≠ .primary → s.store.commit = none → b.ring.gen ≠ 0 →
          memberChecks s.tables.node b.ring = true → s.locks.ring = .opened →
          ∃ t : State, exec (.configArrival n d .ends f) s = .next t ∧ t.pending = s.pending ∧
            t.tables = { s.tables with ring := b.ring } ∧ t.locks = s.locks ∧ t.store = s.store ∧
            t.live.roll.rejectedGen = none ∧ t.live.ts.value = v.ts.value ∧ t.live.ts.steps = v.ts.steps)))) ∧
  (∀ (t : Tables) (v : Live) (tgt : Nat) (e : MapEntry) (d : Side), v.roll.map[tgt]? = some e →
    d = (match v.roll.status, e.mergeRev with
      | .forward, _ => nearSide t.ring.members t.node.id tgt
      | _, some rev => if rev then .west else .east
      | _, none => nearSide t.ring.members t.node.id tgt) →
    ((v.span d).state = .down → (v.span d.other).state = .down → sendConfig t tgt v = none) ∧
    (∀ x, x = (if (v.span d).state = .down then d.other else d) → (v.span x).state ≠ .down →
      sendConfig t tgt v = some (hand (.line x)
        (mkFrame t
          { ring := t.node.ringId, rev := decide (x = .west), looped := false, origin := t.node.id,
            sender := t.node.id, target := tgt, hops := 0, seq := v.roll.configSeq + 1 }
          (.config { target := tgt, ring := t.ring }) .plain)
        { v with roll := { v.roll with
            configSeq := v.roll.configSeq + 1, lastServed := some tgt
            configSent := min 65535 (v.roll.configSent + 1)
            map := v.roll.map.set tgt { e with marker := true } } }))) ∧
  (∀ (t : Tables) (v : Live) (order first again : List Nat) (served : Nat),
    served = v.roll.lastServed.getD t.node.id →
    (served ∉ t.ring.members → order = t.ring.members) →
    (∀ a b, t.ring.members = a ++ served :: b → served ∉ a → order = b ++ a ++ [served]) →
    (∀ i, i ∈ first ↔ i ∈ order ∧ ∃ e, v.roll.map[i]? = some e ∧ e.config = some .pending ∧ e.marker = false) →
    (∀ i, i ∈ again ↔ i ∈ order ∧ ∃ e, v.roll.map[i]? = some e ∧ e.config = some .pending ∧ e.marker = true) →
    first.Sublist order → again.Sublist order → order.Nodup →
    (t.ring.gen = 0 ∨ (∃ x ∈ v.roll.heads, x.rank < (if originRole t = .standby then 1 else 0)) ∨
        (∀ d, (v.span d).state = .down) → configScan t v = v) ∧
    (t.ring.gen ≠ 0 → (∀ x ∈ v.roll.heads, (if originRole t = .standby then 1 else 0) ≤ x.rank) →
      (∃ d, (v.span d).state ≠ .down) →
      configScan t v = ((first ++ again).take 4).foldl (fun u i => (sendConfig t i u).getD u) v)) ∧
  (∀ (l : List Nat) (self tgt a b : Nat),
    (self ∉ l → nearSide l self tgt = .east) ∧
    (l.Nodup → l[a]? = some self → l[b]? = some tgt →
      nearSide l self tgt = if 2 * ((b + l.length - a) % l.length) ≤ l.length then .east else .west)) ∧
  (∀ (x : NodeTable) (r : RingTable), memberChecks x r = true ↔ x.id ∈ r.members ∧
    (x.role = .primary → x.id = r.primary) ∧ (x.role = .standby → r.standby = some x.id) ∧
    (x.role = .member → x.id ≠ r.primary ∧ r.standby ≠ some x.id)) ∧
  (∀ (t : Tables) (changed : Bool) (v w : Live), w = deriveConfig t changed v →
    w = { v with roll := { v.roll with map := w.roll.map } } ∧ w.roll.map.length = v.roll.map.length ∧
    ∀ (i : Nat) (e : MapEntry), v.roll.map[i]? = some e →
      (i ∉ t.ring.members ∨ i = t.node.id → w.roll.map[i]? = some { e with config := none }) ∧
      (i ∈ t.ring.members → i ≠ t.node.id → ∃ st : ConfigState,
        w.roll.map[i]? = some { e with
          config := some st
          marker := if st = .pending ∧ (changed = true ∨ e.config ≠ some .pending) then false else e.marker } ∧
        (e.slot = none ∨ e.presence = .silent → st = .unseen) ∧
        (∀ y, e.slot = some y → e.presence ≠ .silent →
          st = if y.mismatch = true ∧ e.mergeGen = some t.ring.gen then .mismatch
            else if y.gen = t.ring.gen then .inSync else .pending)))

/-! ## Site delivery and alarms -/

/-- RESTORE_TIME_REACHED (R154): a restore timer at the restore time takes its port to DELIVER and stops. SOAK_END
(R168, R169, R170, R171, R174): a point whose soak has run its length enters RAISED with its kind's severity held and
its raise count one greater up to 255, or CLEAR with none held; a record of the event joins the history, the oldest of
64 leaving, and the summary is the highest severity held by a raised point. R166, R168: in RUNNING every point holds
the condition its owner holds, once what follows has followed; the conditions are handed over point by point, in the
order of the point indices, which R166 leaves open (assumption 20). One that becomes true takes CLEAR to RAISING, its
soak at 0, and CLEARING back to RAISED; one that becomes false takes RAISED to CLEARING and RAISING back to CLEAR; a
soak of length 0 ends at once, with its event; one that does not change changes nothing. R165, R166: the 21 points
have their kinds and instances, each kind its record of ALARM-PROFILE, and each point's condition is as the table
gives it: the loss of an enabled candidate, HOLDOVER, HOLD-DEGRADED, FREERUN, a span DOWN, a failing neighbour check,
a ring status other than FORWARD, a configured entry SILENT, a ground of R148, the zone COLD or HOT, a sensor FAULT,
PHASE-UNSTABLE, an access port SQUELCHED, STORE-FAULT. Rests on the model's choices in assumptions 1, 3, 20. -/
def Obligations.RestoreAndSoakEnd : Prop :=
  (∀ (n : Nat) (s : State) (v : Live), v = s.live.elapse n →
    (∀ (i : Fin 4) (tm : Timer), (v.access.get i).timer = some tm →
      ((s.tables.port.access.get i).restore : Int) * 1000000000000 ≤ tm.base + interval tm.since v.now →
      exec (.restoreTimeReached n i) s = .next (s.settled
        (v.mapAccess i (fun a => { a with state := .deliver, timer := none })))) ∧
    (∀ (i k : Nat) (p : Point) (old : List AlarmRecord), v.alarms.points[i]? = some p → p.soak = some k →
      old = (if v.alarms.history.length < 64 then v.alarms.history else v.alarms.history.drop 1) →
      (p.state = .raising → 12500000 * (pointCfg s.tables i).raiseSoak ≤ v.osc - k →
        ∃ w : Live, exec (.soakEnd n i) s = .next (s.settled w) ∧
          w.alarms.points[i]? = some { p with
            state := .raised, soak := none, severity := some (pointCfg s.tables i).severity
            raises := min 255 (p.raises + 1) } ∧
          w.alarms.history = old ++ [{ kind := (pointKind i).1, inst := (pointKind i).2, cleared := false,
                                       severity := (pointCfg s.tables i).severity, time := v.ts.value.sec }] ∧
          w.alarms.summary = severitySummary w.alarms.points ∧ w.ts = v.ts ∧ w.servo = v.servo ∧
          ((pointCfg s.tables i).report = false → w.io = v.io)) ∧
      (∀ sev, p.state = .clearing → p.severity = some sev →
        12500000 * (pointCfg s.tables i).clearSoak ≤ v.osc - k →
        ∃ w : Live, exec (.soakEnd n i) s = .next (s.settled w) ∧
          w.alarms.points[i]? = some { p with state := .clear, soak := none, severity := none } ∧
          w.alarms.history = old ++ [{ kind := (pointKind i).1, inst := (pointKind i).2, cleared := true,
                                       severity := sev, time := v.ts.value.sec }] ∧
          w.alarms.summary = severitySummary w.alarms.points ∧ w.ts = v.ts ∧ w.servo = v.servo ∧
          ((pointCfg s.tables i).report = false → w.io = v.io)))) ∧
  (∀ (t : Tables) (v : Live) (lost : Cand → Prop),
    (∀ c, lost c ↔ (t.cand.get c).enabled = true ∧ (c = .ref → t.node.refFitted = true) ∧
      (v.cands.get c).state ≠ .available ∧ (v.cands.get c).state ≠ .selected) →
    (conditions t v).length = 21 ∧
    (List.range 21).map pointKind =
      [(0, 0), (1, 0), (2, 0), (3, 0), (4, 0), (5, 0), (6, 0), (6, 1), (7, 0), (7, 1), (8, 0), (9, 0), (10, 0), (11, 0),
       (12, 0), (13, 0), (14, 0), (14, 1), (14, 2), (14, 3), (15, 0)] ∧
    (∀ i a, t.alarm[(pointKind i).1]? = some a → pointCfg t i = a) ∧
    ∀ (i : Nat) (b : Bool), (conditions t v)[i]? = some b → (b = true ↔ match i with
      | 0 => lost .ref
      | 1 => lost .fwd
      | 2 => lost .rev
      | 3 => v.servo.state = .holdover
      | 4 => v.servo.state = .holdover ∧ (v.ownClass = .q3 ∨ v.ownClass = .q4)
      | 5 => v.servo.state = .freerun
      | 6 => (v.span .east).state = .down
      | 7 => (v.span .west).state = .down
      | 8 => (v.span .east).mismatch = true
      | 9 => (v.span .west).mismatch = true
      | 10 => v.roll.status ≠ .forward
      | 11 => ∃ j ∈ t.ring.members, ∃ e, v.roll.map[j]? = some e ∧ e.presence = .silent
      | 12 => (v.epoch.active = true ∧ ∃ e ∈ v.roll.map, e.config = some .mismatch) ∨ v.roll.rejectedGen ≠ none ∨
          v.roll.duplicate ≠ none
      | 13 => v.thermal.zone = some .cold ∨ v.thermal.zone = some .hot
      | 14 => v.thermal.sensor = .fault
      | 15 => v.servo.phaseUnstable = true
      | 16 => v.access.a0.state = .squelched
      | 17 => v.access.a1.state = .squelched
      | 18 => v.access.a2.state = .squelched
      | 19 => v.access.a3.state = .squelched
      | _ => v.storeFault = true)) ∧
  (∀ (t : Tables) (v w : Live) (i : Nat) (b : Bool) (p : Point), w = finish t v → w.part = .running →
    w.alarms.points[i]? = some p → (conditions t w)[i]? = some b → p.cond = b) ∧
  (∀ (t : Tables) (v : Live), (v.part = .loading → refreshAlarms t v = v) ∧
    (v.part = .running → refreshAlarms t v =
      (List.range 21).foldl (fun u i => handCondition t i ((conditions t v).getD i false) u) v)) ∧
  (∀ (t : Tables) (i : Nat) (b : Bool) (v w : Live) (p : Point), w = handCondition t i b v →
    v.alarms.points[i]? = some p →
    (∀ j, j ≠ i → w.alarms.points[j]? = v.alarms.points[j]?) ∧
    (p.cond = b → w = v) ∧
    (p.cond ≠ b →
      (b = true → p.state = .clear → 1 ≤ (pointCfg t i).raiseSoak →
        w.alarms.points[i]? = some { p with cond := true, state := .raising, soak := some v.osc } ∧
        w.alarms.history = v.alarms.history ∧ w.io = v.io) ∧
      (b = true → p.state = .clear → (pointCfg t i).raiseSoak = 0 →
        w.alarms.points[i]? = some { p with
          cond := true, state := .raised, soak := none, severity := some (pointCfg t i).severity
          raises := min 255 (p.raises + 1) } ∧
        (∃ old r, w.alarms.history = old ++ [r] ∧ r.kind = (pointKind i).1 ∧ r.inst = (pointKind i).2 ∧
          r.cleared = false ∧ r.severity = (pointCfg t i).severity ∧ r.time = v.ts.value.sec)) ∧
      (b = true → p.state = .clearing →
        w.alarms.points[i]? = some { p with cond := true, state := .raised, soak := none } ∧
        w.alarms.history = v.alarms.history ∧ w.io = v.io) ∧
      (b = false → p.state = .raising →
        w.alarms.points[i]? = some { p with cond := false, state := .clear, soak := none } ∧
        w.alarms.history = v.alarms.history ∧ w.io = v.io) ∧
      (b = false → p.state = .raised → 1 ≤ (pointCfg t i).clearSoak →
        w.alarms.points[i]? = some { p with cond := false, state := .clearing, soak := some v.osc } ∧
        w.alarms.history = v.alarms.history ∧ w.io = v.io) ∧
      (∀ sev, b = false → p.state = .raised → p.severity = some sev → (pointCfg t i).clearSoak = 0 →
        w.alarms.points[i]? = some { p with cond := false, state := .clear, soak := none, severity := none } ∧
        (∃ old r, w.alarms.history = old ++ [r] ∧ r.kind = (pointKind i).1 ∧ r.inst = (pointKind i).2 ∧
          r.cleared = true ∧ r.severity = sev ∧ r.time = v.ts.value.sec))))

/-! ## Management -/

/-- RELAY_TIMEOUT and MGMT_RESPONSE_ARRIVAL (R186, R187): a relay timer that reaches the relay timeout forms a TIMEOUT
for the entry's site port under the next MGMT sequence, its relay fields naming the node id in force as requester
(assumption 54), its origin and sender id this node's and its hop count 0 (assumption 65), and frees the entry; a
response taken here goes out of the entry's site port and frees the entry where handle, relay sequence and tag match,
and is counted as late otherwise; one for another node goes on or is dropped; one that fails checks 1 to 3 is counted
as discarded. A response passed on to a site port keeps the header fields that R187 does not name (assumption 74).
Rests on the model's choices in assumptions 1, 3, 6, 13, 39, 54, 65, 74. -/
def Obligations.RelaysEndOnce : Prop :=
  ∀ (n : Nat) (s : State) (v : Live), v = s.live.elapse n →
    (∀ (k : Nat) (r : RelaySlot) (e : RelayEntry), v.mgmt.relays[k]? = some r → r.entry = some e →
      125000 * s.tables.node.relayTimeout ≤ v.osc - e.since →
      ∃ x : Header, x.origin = s.tables.node.id ∧ x.sender = s.tables.node.id ∧ x.hops = 0 ∧ x.seq = v.mgmt.seq + 1 ∧
        exec (.relayTimeout n k) s = .next (s.settled (hand (.site e.port)
          (mkFrame s.tables x (.response
            { tag := e.tag
              relay := some { handle := k, rseq := r.rseq, requester := s.tables.node.id, port := e.port }
              status := .timeout, count := 0, entries := [] }) .plain)
          { v with mgmt := { v.mgmt with
              seq := v.mgmt.seq + 1, relays := modifyAt k (fun r => { r with entry := none }) v.mgmt.relays } }))) ∧
    (∀ (d : Side) (rx : Stamp) (f : RawFrame) (h : Header) (b : RespBody) (w : Live), w = s.arrived n (.line d) →
      claimedAs s (.line d) rx f { hdr := h, body := .response b } = true →
      (h.rev ≠ d.inRev ∨ h.origin = s.tables.node.id ∨ 31 ≤ h.hops →
        exec (.mgmtResponseArrival n d .ends f) s = .next (s.settled
          { w with mgmt := { w.mgmt with discards := min 65535 (w.mgmt.discards + 1) } })) ∧
      (h.rev = d.inRev → h.origin ≠ s.tables.node.id → h.hops < 31 →
        (h.target ≠ s.tables.node.id → (w.span d.other).state = .down →
          exec (.mgmtResponseArrival n d .ends f) s = .next (s.settled
            { w with mgmt := { w.mgmt with drops := min 65535 (w.mgmt.drops + 1) } })) ∧
        (h.target ≠ s.tables.node.id → (w.span d.other).state ≠ .down →
          exec (.mgmtResponseArrival n d .ends f) s = .next (s.settled (hand (.line d.other)
            (mkFrame s.tables { h with sender := s.tables.node.id, hops := h.hops + 1 } (.response b) .plain) w))) ∧
        (h.target = s.tables.node.id →
          (∀ (g : RelayFields) (r : RelaySlot) (e : RelayEntry), b.relay = some g →
            w.mgmt.relays[g.handle]? = some r → r.entry = some e → r.rseq = g.rseq → e.tag = b.tag →
            exec (.mgmtResponseArrival n d .ends f) s = .next (s.settled (hand (.site e.port)
              (mkFrame s.tables { h with sender := s.tables.node.id } (.response b) .plain)
              { w with mgmt := { w.mgmt with
                  relays := modifyAt g.handle (fun r => { r with entry := none }) w.mgmt.relays } }))) ∧
          ((∀ (g : RelayFields) (r : RelaySlot) (e : RelayEntry), b.relay = some g →
              w.mgmt.relays[g.handle]? = some r → r.entry = some e → ¬ (r.rseq = g.rseq ∧ e.tag = b.tag)) →
            exec (.mgmtResponseArrival n d .ends f) s = .next (s.settled
              { w with mgmt := { w.mgmt with late := min 65535 (w.mgmt.late + 1) } })))))

/-- MGMT_REQUEST_ARRIVAL (R180, R181, R185, R186): a request claimed at a site port for this node or for 255, or at a
line port for this node past the ring checks, is the READ, WRITE or command that its operation names; an operation or
command code of no such name is BAD-REQUEST by step 1, though no frame brings one, since R193 finds it malformed
(assumption 24); a WRITE to no writable table is BAD-TABLE. One from a site port for another member takes the lowest
free handle, its relay sequence one greater, and goes out of the nearer side, or of the other where the nearer span is
DOWN, with its relay fields written; for a node off the member list it is answered BAD-REQUEST, with both spans DOWN
UNREACHABLE, and with all handles in use BUSY. One on the ring for another node goes on or is dropped; one that fails
the ring checks is counted as discarded. Model's choices: that an arrival acts as the READ, WRITE or command row
(assumption 40), the fresh Ethernet fields of a forwarded request (13), the relay fields a site request's answer
repeats (22), the header of an answer formed here for a site port (6, 65), and assumptions 1, 5, 24, 39. Rests on the
model's choices in assumptions 1, 5, 6, 13, 22, 24, 39, 40, 65. -/
def Obligations.RequestsAreServedOrRelayed : Prop :=
  ∀ (n : Nat) (rx : Stamp) (f : RawFrame) (h : Header) (b : ReqBody) (s : State),
    (∀ (via : Via) (env : ReqEnv) (w : WriteArgs) (r c : State),
      claimedAs s via.port rx f { hdr := h, body := .request b } = true →
      env = { via := via, tag := b.tag, relay := b.relay } →
      w = { first := b.first, count := b.count, entries := b.entries } →
      r = s.taken via.port → c = (r.elapse n).counted →
      (∃ d, via = .site d) ∧ (h.target = s.tables.node.id ∨ h.target = 255) ∨
        (∃ d, via = .line d ∧ h.rev = d.inRev ∧ h.origin ≠ s.tables.node.id ∧ h.hops < 31 ∧ b.relay ≠ none ∧
          h.target ≠ 255 ∧ h.target = s.tables.node.id) →
      (b.op = 1 → exec (.mgmtRequestArrival n via .ends f) s = exec (.read n env b.code b.first b.count) r) ∧
      (b.op = 2 →
        (∀ m, tableOfId b.code = some m →
          exec (.mgmtRequestArrival n via .ends f) s = exec (writeCommand m n env w) r) ∧
        (tableOfId b.code = none → 1 ≤ w.count → w.entries.length = w.count → isRun w.first w.entries = true →
          exec (.mgmtRequestArrival n via .ends f) s = .next (c.answer env .badTable [] .plain)) ∧
        (tableOfId b.code = none → w.count = 0 ∨ w.entries.length ≠ w.count ∨ isRun w.first w.entries = false →
          exec (.mgmtRequestArrival n via .ends f) s = .next (c.answer env .badRequest [] .plain))) ∧
      (b.op = 3 →
        (b.code = 1 → exec (.mgmtRequestArrival n via .ends f) s = exec (.clearCounters n env) r) ∧
        (b.code = 2 → exec (.mgmtRequestArrival n via .ends f) s = exec (.clearHistory n env) r) ∧
        (b.code = 3 → exec (.mgmtRequestArrival n via .ends f) s = exec (.softRestart n env) r) ∧
        (b.code = 4 → exec (.mgmtRequestArrival n via .ends f) s = exec (.reloadProfile n env) r) ∧
        (b.code = 5 → exec (.mgmtRequestArrival n via .ends f) s = exec (.commitProfile n env) r) ∧
        (b.code = 6 → exec (.mgmtRequestArrival n via .ends f) s = exec (.lockTable n env b.first b.entries) r) ∧
        (b.code = 7 → exec (.mgmtRequestArrival n via .ends f) s = exec (.unlockTable n env b.first) r) ∧
        (b.code = 8 → exec (.mgmtRequestArrival n via .ends f) s = exec (.select n env b.first) r) ∧
        (b.code = 9 → exec (.mgmtRequestArrival n via .ends f) s = exec (.clearSelect n env) r)) ∧
      (b.op = 1 ∨ b.op = 2 ∨ b.op = 3 ∧ 1 ≤ b.code ∧ b.code ≤ 9)) ∧
    (∀ (env : ReqEnv) (r : State), (b.op = 0 ∨ 3 < b.op) ∨ b.op = 3 ∧ (b.code = 0 ∨ 9 < b.code) →
      performRequest env b r = { status := .badRequest, entries := [], state := r }) ∧
    (∀ (d : Side) (env : ReqEnv) (v : Live), v = s.arrived n (.site d) →
      claimedAs s (.site d) rx f { hdr := h, body := .request b } = true →
      env = { via := .site d, tag := b.tag, relay := b.relay } →
      h.target ≠ s.tables.node.id → h.target ≠ 255 →
      (∀ (e near : Side) (k : Nat) (r : RelaySlot), h.target ∈ s.tables.ring.members →
        near = nearSide s.tables.ring.members s.tables.node.id h.target →
        e = near ∨ e = near.other ∧ (v.span near).state = .down → (v.span e).state ≠ .down →
        v.mgmt.relays[k]? = some r → r.entry = none →
        (∀ j, j < k → ∃ q, v.mgmt.relays[j]? = some q ∧ q.entry ≠ none) →
        exec (.mgmtRequestArrival n (.site d) .ends f) s = .next (s.settled (hand (.line e)
          (mkFrame s.tables
            { ring := s.tables.node.ringId, rev := e.outRev, looped := false, origin := s.tables.node.id,
              sender := s.tables.node.id, target := h.target, hops := 0, seq := v.mgmt.seq + 1 }
            (.request { b with
              relay := some { handle := k, rseq := r.rseq + 1, requester := s.tables.node.id, port := d } }) .plain)
          { v with mgmt := { v.mgmt with
              seq := v.mgmt.seq + 1, relayed := min 65535 (v.mgmt.relayed + 1)
              relays := modifyAt k (fun _ =>
                { rseq := r.rseq + 1
                  entry := some { port := d, tag := b.tag, target := h.target, since := v.osc } }) v.mgmt.relays } }))) ∧
      (h.target ∉ s.tables.ring.members → exec (.mgmtRequestArrival n (.site d) .ends f) s =
        .next (s.settled (respond s.tables env .badRequest [] .plain v))) ∧
      (h.target ∈ s.tables.ring.members → (∀ e, (v.span e).state = .down) →
        exec (.mgmtRequestArrival n (.site d) .ends f) s =
          .next (s.settled (respond s.tables env .unreachable [] .plain v))) ∧
      (h.target ∈ s.tables.ring.members → (∃ e, (v.span e).state ≠ .down) → (∀ r ∈ v.mgmt.relays, r.entry ≠ none) →
        exec (.mgmtRequestArrival n (.site d) .ends f) s =
          .next (s.settled (respond s.tables env .busy [] .plain v)))) ∧
    (∀ (d : Side) (v : Live), v = s.arrived n (.line d) →
      claimedAs s (.line d) rx f { hdr := h, body := .request b } = true →
      (h.rev = d.inRev → h.origin ≠ s.tables.node.id → h.hops < 31 → b.relay ≠ none → h.target ≠ 255 →
        h.target ≠ s.tables.node.id →
        ((v.span d.other).state = .down → exec (.mgmtRequestArrival n (.line d) .ends f) s = .next (s.settled
          { v with mgmt := { v.mgmt with drops := min 65535 (v.mgmt.drops + 1) } })) ∧
        ((v.span d.other).state ≠ .down → exec (.mgmtRequestArrival n (.line d) .ends f) s = .next (s.settled
          (hand (.line d.other)
            (mkFrame s.tables { h with sender := s.tables.node.id, hops := h.hops + 1 } (.request b) .plain) v)))) ∧
      (h.rev ≠ d.inRev ∨ h.origin = s.tables.node.id ∨ 31 ≤ h.hops ∨ b.relay = none ∨ h.target = 255 →
        ∃ t : State, exec (.mgmtRequestArrival n (.line d) .ends f) s = .next t ∧ t.tables = s.tables ∧
          t.locks = s.locks ∧
          t.live = { v with mgmt := { v.mgmt with discards := min 65535 (v.mgmt.discards + 1) } }))

/-- READ (R181, R182): the items of the table from the first index on as they stand, as many as were asked for, cut at
the table's end and to what a frame of 1,500 bytes carries; steps 1 to 3 of the checks refuse it by their statuses; a
READ changes nothing but the count of requests and what its answer brings. R178: the tables are those of ids 1 to 8
and 16 to 25, each with as many indices as R178 gives it, and each entry or record holds the items its chapter
reports, in the encodings of section 12.2; where that section leaves a byte open the model's choices stand: which
fields a record has (26), two-valued items and the link state (27), enumerations (28), items of several possible forms
(29), and assumptions 47, 49, 59, 73 (the reverse outcome of a cycle that sent no reverse ROLL is absent). R180, R185,
R186, R191: a request's answer is formed once what it brought has followed, under the next MGMT sequence, with its
tag, its relay fields, the status, the entries and their count. One from a site port is answered out of that port (an
open direction and target: assumption 6; this node's id as origin and sender and hop count 0: 65; relay fields
repeated: 22). One from the ring is answered to the requester of its relay fields by the nearer side, or by the
arrival port where the requester is off the member list, or by the other side where that span is DOWN (assumption 23);
with both spans DOWN the answer is dropped and counted, and a SOFT-RESTART then takes effect. Rests on the model's
choices in assumptions 1, 6, 13, 21, 22, 23, 26, 27, 28, 29, 40, 47, 49, 59, 63, 65, 73. -/
def Obligations.ReadServesTheTable : Prop :=
  (∀ (env : ReqEnv) (st : Status) (es : List Entry) (note : Note) (c : State),
    c.answer env st es note =
      { c with live := finish c.tables (respond c.tables env st es note (finish c.tables c.live)) }) ∧
  (∀ (t : Tables) (env : ReqEnv) (st : Status) (es : List Entry) (note : Note) (v : Live) (b : RespBody),
    b = { tag := env.tag, relay := env.relay, status := st, count := es.length, entries := es } →
    (∀ d, env.via = .site d → ∃ x : Header, x.ring = t.node.ringId ∧ x.origin = t.node.id ∧ x.sender = t.node.id ∧
      x.looped = false ∧ x.hops = 0 ∧ x.seq = v.mgmt.seq + 1 ∧
      respond t env st es note v = hand (.site d) (mkFrame t x (.response b) note)
        { v with mgmt := { v.mgmt with seq := v.mgmt.seq + 1 } }) ∧
    (∀ (d e : Side) (r : RelayFields), env.via = .line d → env.relay = some r →
      e = (if r.requester ∈ t.ring.members then nearSide t.ring.members t.node.id r.requester else d) →
      (∀ g, g = e ∨ g = e.other ∧ (v.span e).state = .down → (v.span g).state ≠ .down →
        respond t env st es note v = hand (.line g)
          (mkFrame t
            { ring := t.node.ringId, rev := g.outRev, looped := false, origin := t.node.id, sender := t.node.id,
              target := r.requester, hops := 0, seq := v.mgmt.seq + 1 } (.response b) note)
          { v with mgmt := { v.mgmt with seq := v.mgmt.seq + 1 } }) ∧
      (∀ w : Live, (∀ g, (v.span g).state = .down) →
        w = { v with mgmt := { v.mgmt with drops := min 65535 (v.mgmt.drops + 1) } } →
        (note ≠ .restart → respond t env st es note v = w) ∧
        (note = .restart → respond t env st es note v = { w with restartDue := true })))) ∧
  (∀ (n : Nat) (env : ReqEnv) (table first count : Nat) (s c : State), c = (s.elapse n).counted →
    heardRequest env s = true →
    (count = 0 → exec (.read n env table first count) s = .next (c.answer env .badRequest [] .plain)) ∧
    (1 ≤ count → tableEntries c table = none →
      exec (.read n env table first count) s = .next (c.answer env .badTable [] .plain)) ∧
    (∀ l, 1 ≤ count → tableEntries c table = some l → l.length ≤ first →
      exec (.read n env table first count) s = .next (c.answer env .badIndex [] .plain)) ∧
    (∀ l x, 1 ≤ count → tableEntries c table = some l → l[first]? = some x →
      12 + (if env.relay.isSome then 10 else 6) + (4 + x.length) ≤ 1500 →
      ∃ es : List Entry, exec (.read n env table first count) s = .next (c.answer env .done es .plain) ∧
        1 ≤ es.length ∧ es.length ≤ count ∧ first + es.length ≤ l.length ∧
        12 + (if env.relay.isSome then 10 else 6) + (encodeEntries es).length ≤ 1500 ∧
        (∀ i, i < es.length → ∃ y, l[first + i]? = some y ∧ es[i]? = some { index := first + i, value := y }) ∧
        (∀ y, es.length < count → l[first + es.length]? = some y →
          1500 < 12 + (if env.relay.isSome then 10 else 6) + (encodeEntries es).length + (4 + y.length)))) ∧
  ((∀ x : Int, num x = beBytesInt 8 x ∧ (-(2 ^ 63) ≤ x → x < 2 ^ 63 → (num x).length = 8 ∧ beInt (num x) = x)) ∧
    (∀ k : Nat, nat k = num k ∧ byte k = [BitVec.ofNat 8 k] ∧ (∀ l, items l = byte l.length ++ l.flatten)) ∧
    (∀ b : Bool, flag b = [if b then 1 else 0]) ∧ (∀ c : QClass, cls c = byte c.num) ∧
    (∀ x : NsTime, encodeTime x = beBytes 6 x.sec ++ beBytes 4 x.ns) ∧ record [] = [] ∧
    (∀ fs, record (none :: fs) = 0 :: record fs) ∧ (∀ x fs, record (some x :: fs) = 1 :: (x ++ record fs)) ∧
    ([.q0, .q1, .q2, .q3, .q4] : List QClass).map QClass.num = [0, 1, 2, 3, 4] ∧
    ([.primary, .standby, .member] : List NodeRole).map roleCode = [0, 1, 2] ∧
    ([.se, .sw, .both, .none] : List NoticePorts).map noticeCode = [0, 1, 2, 3] ∧
    ([.off, .frames, .pulse, .both] : List AccessMode).map modeCode = [0, 1, 2, 3] ∧
    ([.continue, .mark, .squelch] : List LossBehaviour).map lossCode = [0, 1, 2] ∧
    ([.critical, .major, .minor, .warning] : List Severity).map severityCode = [0, 1, 2, 3] ∧
    ([.disabled, .unavailable, .qualifying, .available, .selected] : List CandState).map candStateCode =
      [0, 1, 2, 3, 4] ∧
    ([.freerun, .acquire, .locked, .holdover] : List ServoState).map ServoState.code = [0, 1, 2, 3] ∧
    ([.primary, .standby, .none] : List OriginRole).map originRoleCode = [0, 1, 2] ∧
    ([.down, .probing, .up] : List SpanState).map spanStateCode = [0, 1, 2] ∧
    ([.present, .silent, .unknown] : List Presence).map presenceCode = [0, 1, 2] ∧
    ([.unseen, .mismatch, .inSync, .pending] : List ConfigState).map configStateCode = [0, 1, 2, 3] ∧
    ([.forward, .reverse, .loopbackBoth, .loopbackFwd, .loopbackRev, .isolated, .unknown] : List RingStatus).map
      RingStatus.code = [0, 1, 2, 3, 4, 5, 6] ∧
    ([.returned, .looped, .timedOut] : List RollOutcome).map outcomeCode = [0, 1, 2] ∧
    ([.clear, .raising, .raised, .clearing] : List PointState).map pointStateCode = [0, 1, 2, 3] ∧
    ([.starting, .good, .fault] : List SensorState).map sensorCode = [0, 1, 2] ∧
    ([some .cold, some .normal, some .warm, some .hot, none] : List (Option Zone)).map zoneCode = [0, 1, 2, 3, 4] ∧
    ([.off, .deliver, .degraded, .squelched] : List AccessState).map accessStateCode = [0, 1, 2, 3] ∧
    ([.opened, .locked, .lockedDown] : List Lock).map lockCode = [0, 1, 2] ∧
    ([.verified, .mismatch, .interrupted] : List CommitResult).map commitResultCode = [0, 1, 2]) ∧
  (∀ (s : State) (t : Tables) (v : Live), t = s.tables → v = s.live →
    tableEntries s 1 = some [nat t.node.id, nat t.node.ringId, byte (roleCode t.node.role), flag t.node.refFitted,
      nat t.node.ftype.toNat, beBytes 6 t.node.group.toNat, byte (noticeCode t.node.notice), flag t.node.ringGuard,
      nat t.node.relayTimeout, beBytes 6 t.node.serial.toNat] ∧
    tableEntries s 2 = some [nat t.ring.gen, nat t.ring.rate, nat t.ring.interval, nat t.ring.timeout,
      nat t.ring.primary, nat (t.ring.standby.getD 255), nat t.ring.takeover, nat t.ring.revert,
      items (t.ring.members.map byte)] ∧
    (∃ (line : Side → List Byte) (access : Fin 4 → List Byte),
      tableEntries s 3 = some [line .east, line .west, access 0, access 1, access 2, access 3] ∧
      (∀ d c, c = t.port.line.get d → line d =
        record [some (nat (c.neighbour.getD 255)), some (flag c.freeze), some (num c.asym),
          some (nat c.errThreshold)]) ∧
      (∀ i c, c = t.port.access.get i → access i =
        record [some (byte (modeCode c.mode)), some (nat c.rate), some (nat c.advance), some (cls c.floor),
          some (byte (lossCode c.loss)), some (nat c.restore)])) ∧
    (∃ ring : CandCfg → List Byte,
      (∀ c, ring c = record [some (flag c.enabled), some (nat c.priority), some (nat c.qualify)]) ∧
      tableEntries s 4 = some [ring t.cand.ref ++ record [some (nat t.cand.ref.cable)], ring t.cand.fwd,
        ring t.cand.rev]) ∧
    tableEntries s 5 = some ([t.servo.n, t.servo.gate, t.servo.stepThr, t.servo.lockThr, t.servo.unlockThr, t.servo.kp,
      t.servo.ki, t.servo.limit].map nat) ∧
    tableEntries s 6 = some ((t.thermal.grads ++ [t.thermal.ta, t.thermal.tb, t.thermal.tc, t.thermal.th]).map num ++
      [t.thermal.dCold, t.thermal.dNormal, t.thermal.dWarm, t.thermal.dHot, t.thermal.aging].map nat) ∧
    tableEntries s 7 = some ([t.quality.limit1, t.quality.limit2, t.quality.base].map nat) ∧
    tableEntries s 8 = some (t.alarm.map (fun c => record [some (byte (severityCode c.severity)), some (flag c.report),
      some (nat c.raiseSoak), some (nat c.clearSoak)])) ∧
    tableEntries s 16 = some [record [some (encodeTime ⟨v.ts.value.sec, v.ts.value.ns⟩), some (num v.servo.fServo),
      some (num v.thermal.fTemp), some (num v.ts.fTotal), some (num v.servo.integ), some (byte v.servo.state.code),
      some (num v.servo.lastTheta), some (nat v.servo.queue.length), some (nat v.servo.lockRun),
      some (nat v.servo.unlockRun), some (nat v.servo.skipRun), some (flag v.servo.ungated)]] ∧
    (∃ (ring : Side → List Byte) (ref org : List Byte) (secs : Cand → Nat) (last : Cand → Option (List Byte)),
      tableEntries s 17 = some [ref, ring .west, ring .east, org] ∧
      (∀ c, secs c = (match (v.cands.get c).qual with
        | some tm => (tm.base + interval tm.since v.now).toNat / 1000000000000
        | none => 0)) ∧
      (∀ c, last c = (v.cands.get c).last.map (fun x => num x.1 ++ nat x.2)) ∧
      ref = record [some (byte (candStateCode v.cands.ref.state)), some (cls v.cands.ref.offered), last .ref,
        some (nat (secs .ref)), some (nat v.refIn.unusable), v.refIn.expected.map nat] ∧
      (∀ d r, r = v.cands.get d.cand → ring d =
        record [some (byte (candStateCode r.state)), some (cls r.offered), r.hops.map nat, r.preferred.map nat,
          some (items (r.origins.map (fun o =>
            nat o.id ++ nat o.rank ++ cls o.cls ++ nat o.hops ++ encodeTime (toNs o.heardAt.time)))),
          last d.cand, some (nat (secs d.cand))]) ∧
      (∀ watch hunt : Option (List Byte),
        (originRole t ≠ .standby → watch = none ∧ hunt = none) →
        (originRole t = .standby → v.epoch.active = true → watch = none ∧ hunt = some (match v.epoch.revert with
          | none => [0, 0]
          | some x => [1, 1] ++ nat (min 65535 ((interval x.start v.now).toNat / 1000000000)))) →
        (originRole t = .standby → v.epoch.active = false → hunt = none ∧ watch = v.epoch.takeover.map (fun tm =>
          nat (min 65535 ((tm.base + interval tm.since v.now).toNat / 1000000000)))) →
        org = record [some (byte (originRoleCode (originRole t))), some (flag v.epoch.active),
          (match originRole t with
            | .primary => some (nat 0)
            | .standby => some (nat 1)
            | .none => none),
          some (nat t.ring.rate), some (nat v.epoch.origSeq.toNat), watch, hunt,
          v.manual.map (fun c => byte (match c with
            | .ref => 0
            | .fwd => 1
            | .rev => 2))])) ∧
    (∃ span : Side → List Byte, tableEntries s 18 = some [span .east, span .west] ∧ ∀ d x, x = v.span d → span d =
      record [some (byte (spanStateCode x.state)), x.learned.map nat, x.df.map num,
        x.last.map (fun y => num y.1 ++ num y.2), some (nat x.accepted), some (nat x.timeoutRun),
        some (nat x.fcsCount), some (nat x.probeSeq.toNat),
        x.outstanding.map (fun o => nat o.seq.toNat ++ encodeTime (toNs o.t1.time)), some (flag x.mismatch),
        some (byte (if (v.port (.line d)).link then 0 else 1)), some (flag (v.port (.line d)).linkLost)]) ∧
    (∃ (l : List (List Byte)) (sum : List Byte), tableEntries s 19 = some (l ++ [sum]) ∧
      l.length = v.roll.map.length ∧
      (∀ (i : Nat) (e : MapEntry) (head : Option (List Byte) → Option (List Byte)), v.roll.map[i]? = some e →
        (∀ x, head x = if v.epoch.active then x else none) →
        ∃ pos : Option Nat, (pos = none ↔ i ∉ t.ring.members) ∧
          (∀ k, pos = some k → t.ring.members[k]? = some i ∧ ∀ j, j < k → t.ring.members[j]? ≠ some i) ∧
          l[i]? = some (record [some (flag (decide (i ∈ t.ring.members))), pos.map nat,
            some (byte (presenceCode e.presence)), e.slot.map (fun x => encodeSlot (some x)), head (some (nat e.miss)),
            head (e.mergeRev.map flag), head (e.mergeGen.map nat),
            head (e.config.map (fun c => byte (configStateCode c)))])) ∧
      (∀ (head : Option (List Byte) → Option (List Byte)) (set : BitVec 32 → List Byte)
          (own : List Byte → (View → List Byte) → Option (List Byte)),
        (∀ x, head x = if v.epoch.active then x else none) → (∀ x, set x = beBytes 4 x.toNat) →
        (∀ x f, own x f = if v.epoch.active then some x else v.roll.view.map f) →
        sum = record [some (flag v.epoch.active), some (byte v.roll.status.code),
          head (v.roll.fwd.map (fun x => byte (outcomeCode x.outcome))),
          head (v.roll.rev.map (fun x => byte (outcomeCode x.outcome))),
          head ((v.roll.fwd.bind (fun x => x.loopId)).map nat), head ((v.roll.rev.bind (fun x => x.loopId)).map nat),
          own (nat v.roll.seq.toNat) (fun x => nat x.seq.toNat),
          some (items (v.roll.heads.map (fun x =>
            nat x.id ++ nat x.rank ++ nat ((interval x.heardAt v.now).toNat / 1000000000)))),
          (preferredHead v).map nat, head (v.roll.cycleTime.map nat), head (v.roll.cycleMin.map nat),
          head (v.roll.cycleMax.map nat), some (flag v.roll.duplicate.isSome),
          own (nat t.ring.gen) (fun x => nat x.headGen), own (set (silentSet v)) (fun x => set x.silent),
          own (set (mismatchSet v)) (fun x => set x.mismatch), own (set (pendingSet v)) (fun x => set x.pending)])) ∧
    (∃ (l : List (List Byte)) (raised : Severity → Nat), tableEntries s 20 = some (l ++
        [record [some (byte (summaryCode v.alarms.summary)),
          some (([.warning, .minor, .major, .critical] : List Severity).flatMap (fun x => nat (raised x)))]]) ∧
      l.length = v.alarms.points.length ∧
      (∀ x, raised x = (v.alarms.points.filter (fun p =>
        decide ((p.state = .raised ∨ p.state = .clearing) ∧ p.severity = some x))).length) ∧
      ∀ (i : Nat) (p : Point), v.alarms.points[i]? = some p → l[i]? = some
        (record [some (byte (pointKind i).1), some (nat (pointKind i).2), some (byte (pointStateCode p.state)),
          some (flag p.cond), some (nat (match p.soak with
            | some k => (v.osc - k) / 12500000
            | none => 0)), p.severity.map (fun x => byte (severityCode x)), some (nat p.raises)])) ∧
    tableEntries s 21 = some (record [some (nat v.alarms.history.length), some (nat v.alarms.overwrites)] ::
      v.alarms.history.map (fun r => record [some (byte r.kind), some (nat r.inst), some (flag r.cleared),
        some (byte (severityCode r.severity)), some (nat r.time)])) ∧
    (∃ (all : List Nat → List Byte) (two : (Side → Nat) → List Nat) (four : (Fin 4 → Nat) → List Nat)
        (le se : Side → PortIO) (lock : TableName → Option (List Byte)),
      (∀ l, all l = record (l.map (fun k => some (nat k)))) ∧ (∀ f, two f = [f .east, f .west]) ∧
      (∀ f, four f = [f 0, f 1, f 2, f 3]) ∧ (∀ d, le d = v.port (.line d)) ∧ (∀ d, se d = v.port (.site d)) ∧
      (∀ m, lock m = some (byte (lockCode (s.locks.get m)))) ∧
      tableEntries s 22 = some
        [all [v.servo.phaseSteps, v.servo.gated, v.servo.skipped, v.refIn.jumps],
         all (two (fun d => (le d).fcs) ++ two (fun d => (le d).short) ++ two (fun d => (le d).overrun) ++
            two (fun d => (le d).malformed) ++ two (fun d => (se d).malformed) ++ two (fun d => (le d).misdirected) ++
            two (fun d => (se d).misdirected) ++ two (fun d => (le d).insertDrops) ++
            two (fun d => (se d).insertDrops) ++
            four (fun i => (v.port (.access i)).insertDrops) ++
            [(se .east).throughDrops, (le .east).throughDrops, (se .west).throughDrops, (le .west).throughDrops]) ++
          record [some (flag (le .east).linkLost), some (flag (le .west).linkLost)],
         all (two (fun d => (v.span d).timeouts) ++ two (fun d => (v.span d).unmatched) ++
            two (fun d => (v.span d).rejected) ++ two (fun d => (v.span d).downs)),
         all (two v.epoch.notUp.get ++ two v.epoch.wrongDir.get ++ [v.epoch.ownOrigin, v.epoch.hopLimit,
            v.epoch.unknownOrigin, v.epoch.fwdDrops, v.epoch.takeovers, v.epoch.reverts]),
         all ([v.roll.rollTimeouts, v.roll.lateRolls, v.roll.loopSwitches, v.roll.unknownHead] ++
            two v.roll.wrongDir.get ++ [v.roll.ownHead, v.roll.hopLimit, v.roll.loopDrops, v.roll.configSent,
              v.roll.configDiscards, v.roll.configDrops, v.roll.configDeferred, v.roll.configRefused]),
         all (four (fun i => (v.access.get i).sent) ++ four (fun i => (v.access.get i).replies) ++
            four (fun i => (v.access.get i).unanswered)),
         all (two v.alarms.notices.get),
         record [lock .node, lock .ring, lock .port, lock .cand, lock .servo, lock .thermal, lock .quality, lock .alarm,
            some (flag v.guard), some (flag s.store.commit.isSome), some (flag s.store.validAtLoad),
            s.store.lastCommit.map (fun x => byte (commitResultCode x)),
            some (nat (v.mgmt.relays.filter (fun x => x.entry.isSome)).length)] ++
          all [v.mgmt.executed, v.mgmt.relayed, v.mgmt.discards, v.mgmt.drops, v.mgmt.late]]) ∧
    tableEntries s 23 = some [record [some (byte (sensorCode v.thermal.sensor)), v.thermal.lastRaw.map num,
      v.thermal.lastTemp.map num, v.thermal.sinceGood.map nat, some (byte (zoneCode v.thermal.zone)),
      some (num v.thermal.fTemp), some (nat (driftAllowance t v))]] ∧
    (∃ access : Fin 4 → List Byte, tableEntries s 24 = some [access 0, access 1, access 2, access 3] ∧
      ∀ i c a, c = t.port.access.get i → a = v.access.get i → access i =
        record [some (byte (modeCode c.mode)), some (cls c.floor), some (byte (lossCode c.loss)),
          some (byte (accessStateCode a.state)), some (nat (match a.timer with
            | some tm => min 600 ((tm.base + interval tm.since v.now).toNat / 1000000000000)
            | none => 0)), some (flag a.timer.isSome), some (byte (if (v.port (.access i)).link then 0 else 1)),
          some (nat a.epochSeq.toNat), a.lastClass.map cls, a.lastPulse.map nat,
          some (flag (decide (a.state = .squelched)))]) ∧
    (∀ k, k = v.servo.history.length → tableEntries s 25 = some
      (record [some (byte v.servo.state.code), some (nat k),
        (if 16 ≤ k then some (num (max (-(t.servo.limit : Int)) (min t.servo.limit (Int.tdiv v.servo.history.sum k))))
          else none), v.hold.fHold.map num, some (nat v.hold.t), some (nat v.hold.e0), some (nat v.hold.d),
        some (nat v.hold.e), some (nat (v.hold.e / 1000)), some (nat v.hold.aging), some (nat (driftAllowance t v)),
        some (cls v.ownClass)] :: v.servo.history.map (fun x => record [some (num x)]))) ∧
    (∀ id, id = 0 ∨ 9 ≤ id ∧ id ≤ 15 ∨ 26 ≤ id → tableEntries s id = none) ∧
    (t.thermal.grads.length = 16 → t.alarm.length = 16 → v.roll.map.length = 32 → v.alarms.points.length = 21 →
      ∀ id k, (id, k) ∈ [(1, 10), (2, 9), (3, 6), (4, 3), (5, 8), (6, 25), (7, 3), (8, 16), (16, 1), (17, 4), (18, 2),
          (19, 33), (20, 22), (21, 1 + v.alarms.history.length), (22, 8), (23, 1), (24, 4),
          (25, 1 + v.servo.history.length)] →
        ∃ l, tableEntries s id = some l ∧ l.length = k))

/-- The eight WRITE commands (R60, R181, R182): a write that passes the checks and whose values are taken replaces its
table, as a whole, and no other table, no lock and nothing of the store; a THERMAL write that names a gradient empties
the holdover history. The blocks take the new tables in the order of their ids (assumption 34): a changed node id
clears the duplicate flag and a relay timer at its timeout ends its entry (R132, R187); ids that RING no longer names
leave the origin and head lists; a head that has completed a cycle since the last reset derives its config states
afresh where the generation or the member list has changed (R142, R144, R151; assumption 53); a changed origin role
makes the node active, starts its takeover watch or ends both (R104, R114; assumption 17 for a standby that becomes
primary while active); a new rate sets J again and restarts the gaps, a new revert hold-off acts at once, and a new
roll interval that its clock has passed ticks (R142), in that order (assumption 52); the PORT records act one after
the other, LE, LW, A0 to A3 (assumption 64): a changed asymmetry moves d_f, an FCS count at the threshold takes the
span DOWN, and the neighbour check is made afresh (R93, R100); K stands where its crossing point lies ahead and is set
again otherwise (R7); a candidate follows its enable, REF losing its pending announcement, expected seconds and
unusable run where it ceases and starting its missing-second watch where it begins (R31, R33), and a qualify timer at
its time makes it AVAILABLE (R31); N and L act on the servo (R13; assumption 38); a soak at its new length ends
(R167), several of them in the order of their points (assumption 64). The conditions changed so far reach their points
before the next block acts (R166). Rests on the model's choices in assumptions 1, 17, 21, 34, 38, 40, 52, 53, 64. -/
def Obligations.TakenWriteReplacesTheTable : Prop :=
  (∀ (m : TableName) (n : Nat) (env : ReqEnv) (w : WriteArgs) (s : State) (new : Tables) (u : Live),
    heardRequest env s = true → writeAllowed m env w s = true → writeTable m s.tables w.entries = some new →
    u = (if m = .thermal ∧ ∃ e ∈ w.entries, e.index < 16
      then { (s.elapse n).counted.live with servo := { s.live.servo with history := [] } }
      else (s.elapse n).counted.live) →
    exec (writeCommand m n env w) s = .next (State.answer env .done [] .plain
      { (s.elapse n).counted with tables := new, live := finish new (takeTables s.tables new u) }) ∧
    ∃ t : State, exec (writeCommand m n env w) s = .next t ∧ t.pending = s.pending ∧ t.tables = new ∧
      (∀ o, o ≠ m → Tables.agreeOn o t.tables s.tables = true) ∧ t.locks = s.locks ∧ t.store = s.store ∧
      t.live.ts.value = (s.live.elapse n).ts.value ∧ t.live.ts.steps = s.live.ts.steps ∧
      t.live.mgmt.executed = min 65535 (s.live.mgmt.executed + 1) ∧
      (m = .ring → t.tables.ring.gen = if s.tables.ring.gen < 65535 then s.tables.ring.gen + 1 else 1) ∧
      (m = .thermal → (∃ e ∈ w.entries, e.index < 16) → t.live.servo.history = [])) ∧
  (∀ (old new : Tables) (v : Live),
    takeTables old new v = alarmEffects old new (thermalEffects old.thermal new.thermal
      (servoEffects old.servo new.servo (refreshAlarms new (candEffects new (portEffects old new
        (refreshAlarms new (ringEffects new old.ring (originRole old)
          (nodeEffects old new (refreshAlarms new v))))))))) ∧
    (∀ (line : Side → Live → Live) (access : Fin 4 → Live → Live),
      (∀ d, line d = lineEffects new (old.port.line.get d) (new.port.line.get d) d) →
      (∀ i, access i = accessEffects new (old.port.access.get i) (new.port.access.get i) i) →
      portEffects old new v = access 3 (access 2 (access 1 (access 0 (line .west (line .east v)))))) ∧
    (nodeEffects old new v).roll.duplicate = (if old.node.id = new.node.id then v.roll.duplicate else none) ∧
    (∀ (k : Nat) (r : RelaySlot) (e : RelayEntry), k < 8 → v.mgmt.relays[k]? = some r → r.entry = some e →
      (nodeEffects old new v).mgmt.relays[k]? =
        some (if 125000 * new.node.relayTimeout ≤ v.osc - e.since then { r with entry := none } else r)) ∧
    (v.part = .running → originRole old ≠ originRole new →
      (ringEffects new old.ring (originRole old) v).epoch.active = decide (originRole new = .primary) ∧
      (ringEffects new old.ring (originRole old) v).epoch.revert = none ∧
      (ringEffects new old.ring (originRole old) v).epoch.takeover =
        (if originRole new = .standby then some { since := v.now, base := 0 } else none))) ∧
  (∀ (t : Tables) (old : RingTable) (role : OriginRole) (v a b c d : Live),
    a = refreshAlarms t (ringConfigs t old (dropUnnamed t v)) → b = roleEffects role (originRole t) t a →
    c = (if old.rate = t.ring.rate then b else rateEffects t b) → d = revertCheck t c →
    (∀ k, old.interval ≠ t.ring.interval → d.roll.clock = some k → 125000 * t.ring.interval ≤ d.osc - k →
      ringEffects t old role v = rollTick t d) ∧
    (old.interval = t.ring.interval ∨ d.roll.clock = none ∨
        (∃ k, d.roll.clock = some k ∧ d.osc - k < 125000 * t.ring.interval) → ringEffects t old role v = d)) ∧
  (∀ (t : Tables) (old : RingTable) (v : Live),
    (v.epoch.active = true → v.roll.cycleTime ≠ none → old.gen ≠ t.ring.gen ∨ old.members ≠ t.ring.members →
      ringConfigs t old v = deriveConfig t (decide (old.gen ≠ t.ring.gen)) v) ∧
    (v.epoch.active = false ∨ v.roll.cycleTime = none ∨ old.gen = t.ring.gen ∧ old.members = t.ring.members →
      ringConfigs t old v = v) ∧
    rateEffects t v = { v with
      cands := { v.cands with
        fwd := { v.cands.fwd with origins := v.cands.fwd.origins.map (fun o => { o with gapSince := v.now }) }
        rev := { v.cands.rev with origins := v.cands.rev.origins.map (fun o => { o with gapSince := v.now }) } }
      epoch := { v.epoch with
        revert := v.epoch.revert.map (fun x => { x with gapSince := v.now })
        j := epochAbove t.ring.rate v.ts.value.toPs } } ∧
    (∀ r, originRole t = .standby → v.epoch.active = true → v.epoch.revert = some r →
      (t.ring.revert : Int) * 1000000000000 ≤ interval r.start v.now →
      revertCheck t v = ceaseHead { v with epoch := { v.epoch with
        active := false, revert := none, takeover := some { since := v.now, base := 0 }
        reverts := min 65535 (v.epoch.reverts + 1) } }) ∧
    (originRole t ≠ .standby ∨ v.epoch.active = false ∨ v.epoch.revert = none ∨ (∃ r, v.epoch.revert = some r ∧
        interval r.start v.now < (t.ring.revert : Int) * 1000000000000) → revertCheck t v = v)) ∧
  (∀ (t : Tables) (v w : Live) (named : Nat → Bool), w = dropUnnamed t v →
    (∀ i, named i = true ↔ i = t.ring.primary ∨ t.ring.standby = some i) →
    w.roll.heads = v.roll.heads.filter (fun x => named x.id) ∧
    w.roll.status = (if v.epoch.active = false ∧ w.roll.heads = [] then .unknown else v.roll.status) ∧
    w.cands.ref = v.cands.ref ∧
    ∀ (d : Side) (r x : CandRec), r = v.cands.get d.cand → x = w.cands.get d.cand →
      x.origins = r.origins.filter (fun o => named o.id) ∧ x.last = r.last ∧
      (x.origins = r.origins → x = r) ∧
      (x.origins ≠ r.origins → x.origins = [] → r.state ≠ .disabled → r.state ≠ .unavailable →
        x = { r with
          state := .unavailable, offered := .q4, hops := none, preferred := none, origins := [], qual := none }) ∧
      (x.origins ≠ r.origins → x.origins ≠ [] → ∃ p ∈ x.origins,
        (∀ y ∈ x.origins, p.cls.num < y.cls.num ∨
          p.cls.num = y.cls.num ∧ (p.rank < y.rank ∨ p.rank = y.rank ∧ p.id ≤ y.id)) ∧
        x.preferred = some p.id ∧ x.hops = some p.hops ∧ x.offered = (if p.cls = .q0 then .q1 else p.cls) ∧
        (r.state = .available ∨ r.state = .selected →
          (x.offered = .q4 → x.state = .qualifying ∧
            x.qual = some { since := v.now, base := (t.cand.get d.cand).qualify * 1000000000000 }) ∧
          (x.offered ≠ .q4 → x.state = r.state ∧ x.qual = r.qual)))) ∧
  (∀ (t : Tables) (old new : LineCfg) (d : Side) (v w : Live) (x : Span), w = lineEffects t old new d v →
    x = { v.span d with df := (v.span d).df.map (fun f => max 0 (f + (new.asym - old.asym))) } →
    (∀ u y : Live, u = v.mapSpan d (fun _ => x) →
      y = (if (t.port.line.get d).errThreshold ≤ x.fcsCount then enterDown t d u else u) →
      w = neighbourCheck t d y) ∧
    (x.fcsCount < (t.port.line.get d).errThreshold → (w.span d).df = x.df ∧ (w.span d).learned = x.learned) ∧
    ((t.port.line.get d).errThreshold ≤ x.fcsCount → (w.span d).state = .down)) ∧
  (∀ (new : AccessCfg) (i : Fin 4) (v : Live) (k' : Nat),
    k' = (if wrapDiff v.ts.value.toPs ((v.ts.k.get i : Int) * 1000000000000 - new.advance * 1000) < 0 then v.ts.k.get i
      else ((v.ts.value.toPs + new.advance * 1000) / 1000000000000 + 1) % 1099511627776) →
    applyAdvance new i v = { v with ts := { v.ts with k := v.ts.k.set i k' } }) ∧
  (∀ (t : Tables) (c : Cand) (v : Live) (r x : CandRec), r = v.cands.get c → x = (candEffects t v).cands.get c →
    (candEnabled t c = false → r.state = .disabled → x = r) ∧
    (candEnabled t c = false → r.state ≠ .disabled → x = { r with
      state := .disabled, offered := .q4, hops := none, preferred := none, origins := [], last := none, qual := none }) ∧
    (candEnabled t c = true → r.state = .disabled → x = { r with state := .unavailable }) ∧
    (candEnabled t c = true → r.state ≠ .disabled →
      (∀ tm, r.state = .qualifying → r.offered ≠ .q4 → r.qual = some tm →
        ((t.cand.get c).qualify : Int) * 1000000000000 ≤ tm.base + interval tm.since v.now →
        x = { r with state := .available, qual := none }) ∧
      (r.state ≠ .qualifying ∨ r.offered = .q4 ∨ (∀ tm, r.qual = some tm →
          tm.base + interval tm.since v.now < ((t.cand.get c).qualify : Int) * 1000000000000) → x = r))) ∧
  (∀ (t : Tables) (v w : Live), w = candEffects t v →
    (candEnabled t .ref = false → v.cands.ref.state ≠ .disabled →
      w.refIn = { v.refIn with pending := none, expected := none, unusable := 0 }) ∧
    (candEnabled t .ref = true → v.cands.ref.state = .disabled → w.refIn = { v.refIn with watch := v.now }) ∧
    (candEnabled t .ref = false ∧ v.cands.ref.state = .disabled ∨
        candEnabled t .ref = true ∧ v.cands.ref.state ≠ .disabled → w.refIn = v.refIn)) ∧
  (∀ (old new : ServoTable) (v w : Live) (f : Int), w = servoEffects old new v →
    f = (if v.servo.state = .holdover then v.servo.fServo
      else max (-(new.limit : Int)) (min new.limit v.servo.fServo)) →
    w.servo = { v.servo with
      queue := if old.n = new.n then v.servo.queue else []
      integ := if new.limit < old.limit then max (-(new.limit : Int)) (min new.limit v.servo.integ) else v.servo.integ
      fServo := if new.limit < old.limit then f else v.servo.fServo } ∧
    w.ts = (if new.limit < old.limit
      then { v.ts with fTotal := max (-100000000) (min 100000000 (f + v.thermal.fTemp)) } else v.ts)) ∧
  (∀ (old new : Tables) (i k : Nat) (v w : Live) (p : Point), w = alarmEffects old new v → old.alarm ≠ new.alarm →
    i < 21 → v.alarms.points[i]? = some p →
    (p.state = .raising → p.soak = some k → 12500000 * (pointCfg new i).raiseSoak ≤ v.osc - k →
      w.alarms.points[i]? = some { p with
        state := .raised, soak := none, severity := some (pointCfg new i).severity
        raises := min 255 (p.raises + 1) }) ∧
    (p.state = .clearing → p.soak = some k → 12500000 * (pointCfg new i).clearSoak ≤ v.osc - k →
      w.alarms.points[i]? = some { p with state := .clear, soak := none, severity := none }) ∧
    (p.soak = none ∨ p.soak = some k ∧
        (p.state = .raising → v.osc - k < 12500000 * (pointCfg new i).raiseSoak) ∧
        (p.state = .clearing → v.osc - k < 12500000 * (pointCfg new i).clearSoak) →
      w.alarms.points[i]? = some p))

/-- The eight WRITE commands (R181): the first check that fails gives the status, in the order of the steps, and the
write then changes no table, no lock and no block, but for the count of requests and what its answer brings. R178,
R182: each entry is the field, and each record of PORT, CANDIDATE and ALARM-PROFILE the fields, read from its bytes,
an absent field keeping its running value; that a record has no presence byte for a field of other records is
assumption 26, the codes of two-valued fields assumption 27, and those of a severity assumption 28; a value of the
wrong length, or of no code its field names, is refused. R12, R51, R73, R141, R152, R167, R179: a number outside its
range is clamped to it, an EPOCH rate then rounded down to a power of two, and a floor of Q4 is Q3, while a floor byte
above 4 is refused (assumption 60); ids, the ring id, the frame type and gradients are refused outside theirs. R57,
R74, R141, R142: as it would stand, THERMAL needs TA below TB below TC and TH below both gaps; QUALITY limit 1 below
limit 2; RING 1 to 32 distinct ids from 0 to 31, the primary first, and it takes the roll timeout up to 5 roll
intervals and the next generation. Rests on the model's choices in assumptions 1, 21, 26, 27, 28, 40, 60. -/
def Obligations.RefusedWriteChangesNothing : Prop :=
  (∀ (m : TableName) (n : Nat) (env : ReqEnv) (w : WriteArgs) (s c : State), c = (s.elapse n).counted →
    heardRequest env s = true →
    (w.count = 0 ∨ w.entries.length ≠ w.count ∨ isRun w.first w.entries = false →
      exec (writeCommand m n env w) s = .next (c.answer env .badRequest [] .plain)) ∧
    (1 ≤ w.count → w.entries.length = w.count → isRun w.first w.entries = true →
      ((∃ e ∈ w.entries, lastIndex m < e.index) →
        exec (writeCommand m n env w) s = .next (c.answer env .badIndex [] .plain)) ∧
      ((∀ e ∈ w.entries, e.index ≤ lastIndex m) →
        (s.tables.node.ringGuard = true → (∃ d, env.via = .line d) →
          exec (writeCommand m n env w) s = .next (c.answer env .guarded [] .plain)) ∧
        (s.tables.node.ringGuard = false ∨ (∃ d, env.via = .site d) →
          (s.locks.get m ≠ .opened →
            exec (writeCommand m n env w) s = .next (c.answer env .locked [] .plain)) ∧
          (s.locks.get m = .opened → s.store.commit ≠ none →
            exec (writeCommand m n env w) s = .next (c.answer env .busy [] .plain)) ∧
          (s.locks.get m = .opened → s.store.commit = none → m = .ring → s.tables.node.role ≠ .primary →
            exec (writeCommand m n env w) s = .next (c.answer env .notHead [] .plain)) ∧
          (s.locks.get m = .opened → s.store.commit = none → m ≠ .ring ∨ s.tables.node.role = .primary →
            writeTable m s.tables w.entries = none →
            exec (writeCommand m n env w) s = .next (c.answer env .badValue [] .plain)))))) ∧
  (∀ (m : TableName) (t : Tables) (e : Entry) (es : List Entry),
    (setEntries m [] t = some t) ∧
    (setEntry m t e = none → setEntries m (e :: es) t = none) ∧
    (∀ u, setEntry m t e = some u → setEntries m (e :: es) t = setEntries m es u) ∧
    (setEntries m es t = none → writeTable m t es = none) ∧
    (∀ u, setEntries m es t = some u →
      (m ≠ .ring → m ≠ .thermal → m ≠ .quality → writeTable m t es = some u) ∧
      (m = .thermal → writeTable m t es =
        if u.thermal.ta < u.thermal.tb ∧ u.thermal.tb < u.thermal.tc ∧
          u.thermal.th < u.thermal.tb - u.thermal.ta ∧ u.thermal.th < u.thermal.tc - u.thermal.tb
        then some u else none) ∧
      (m = .quality → writeTable m t es = if u.quality.limit1 < u.quality.limit2 then some u else none) ∧
      (m = .ring → writeTable m t es =
        if 1 ≤ u.ring.members.length ∧ u.ring.members.length ≤ 32 ∧ (∀ i ∈ u.ring.members, i ≤ 31) ∧
          u.ring.members.Nodup ∧ u.ring.members.head? = some u.ring.primary
        then some { u with ring := { u.ring with
          timeout := min u.ring.timeout (5 * u.ring.interval)
          gen := if u.ring.gen < 65535 then u.ring.gen + 1 else 1 } }
        else none))) ∧
  (∀ (t : Tables) (l : List Byte) (x : Int) (clamp : Nat → Nat → Nat) (within : Int → Int → Int),
    l.length = 8 → beInt l = x → (∀ lo hi, clamp lo hi = (max (lo : Int) (min hi x)).toNat) →
    (∀ lo hi, within lo hi = max lo (min hi x)) →
    setServo t.servo 0 l = some { t.servo with n := clamp 4 16 } ∧
    setServo t.servo 1 l = some { t.servo with gate := clamp 50 100000 } ∧
    setServo t.servo 2 l = some { t.servo with stepThr := clamp 100 1000000 } ∧
    setServo t.servo 3 l = some { t.servo with lockThr := clamp 10 10000 } ∧
    setServo t.servo 4 l = some { t.servo with unlockThr := clamp 100 100000 } ∧
    setServo t.servo 5 l = some { t.servo with kp := clamp 0 15 } ∧
    setServo t.servo 6 l = some { t.servo with ki := clamp 0 15 } ∧
    setServo t.servo 7 l = some { t.servo with limit := clamp 1000000 100000000 } ∧
    (∀ i, i < 16 → setThermal t.thermal i l =
      if -32768 ≤ x ∧ x ≤ 32767 then some { t.thermal with grads := t.thermal.grads.set i x } else none) ∧
    setThermal t.thermal 16 l = some { t.thermal with ta := within (-40) 105 } ∧
    setThermal t.thermal 17 l = some { t.thermal with tb := within (-40) 105 } ∧
    setThermal t.thermal 18 l = some { t.thermal with tc := within (-40) 105 } ∧
    setThermal t.thermal 19 l = some { t.thermal with th := within 1 16 } ∧
    setThermal t.thermal 20 l = some { t.thermal with dCold := clamp 0 10000 } ∧
    setThermal t.thermal 21 l = some { t.thermal with dNormal := clamp 0 10000 } ∧
    setThermal t.thermal 22 l = some { t.thermal with dWarm := clamp 0 10000 } ∧
    setThermal t.thermal 23 l = some { t.thermal with dHot := clamp 0 10000 } ∧
    setThermal t.thermal 24 l = some { t.thermal with aging := clamp 0 10000 } ∧
    setQuality t.quality 0 l = some { t.quality with limit1 := clamp 10 100000 } ∧
    setQuality t.quality 1 l = some { t.quality with limit2 := clamp 10 100000 } ∧
    setQuality t.quality 2 l = some { t.quality with base := clamp 0 10000 } ∧
    setRing t.ring 1 l = some { t.ring with rate :=
      if x < 2 then 1 else if x < 4 then 2 else if x < 8 then 4 else if x < 16 then 8 else 16 } ∧
    setRing t.ring 2 l = some { t.ring with interval := clamp 10 1000 } ∧
    setRing t.ring 3 l = some { t.ring with timeout := clamp 1 5000 } ∧
    setRing t.ring 4 l = (if 0 ≤ x ∧ x ≤ 31 then some { t.ring with primary := x.toNat } else none) ∧
    setRing t.ring 5 l = (if 0 ≤ x ∧ x ≤ 31 then some { t.ring with standby := some x.toNat }
      else if x = 255 then some { t.ring with standby := none } else none) ∧
    setRing t.ring 6 l = some { t.ring with takeover := clamp 1 60 } ∧
    setRing t.ring 7 l = some { t.ring with revert := clamp 1 300 } ∧
    setNode t.node 0 l = (if 0 ≤ x ∧ x ≤ 31 then some { t.node with id := x.toNat } else none) ∧
    setNode t.node 1 l = (if 0 ≤ x ∧ x ≤ 255 then some { t.node with ringId := x.toNat } else none) ∧
    setNode t.node 4 l = (if 0 ≤ x ∧ x ≤ 65535 then some { t.node with ftype := BitVec.ofNat 16 x.toNat } else none) ∧
    setNode t.node 8 l = some { t.node with relayTimeout := clamp 20 2000 } ∧
    (∀ i, 9 ≤ i → setNode t.node i l = none) ∧
    setRing t.ring 0 l = some t.ring ∧
    readRate l = some (if x < 2 then 1 else if x < 4 then 2 else if x < 8 then 4 else if x < 16 then 8 else 16) ∧
    readIdOrAbsent l = (if 0 ≤ x ∧ x ≤ 31 then some (some x.toNat) else if x = 255 then some none else none) ∧
    (∀ lo hi, lo ≤ hi → readClamped lo hi l = some (clamp lo hi)) ∧
    readClampedInt (-1000000) 1000000 l = some (within (-1000000) 1000000)) ∧
  (∀ (t : Tables) (i : Nat) (l : List Byte), l.length ≠ 8 →
    setServo t.servo i l = none ∧ setThermal t.thermal i l = none ∧ setQuality t.quality i l = none ∧
    (i ≠ 8 → setRing t.ring i l = none) ∧ (i ∈ [0, 1, 4, 8] → setNode t.node i l = none)) ∧
  (∀ (b : Byte) (l : List Byte),
    readMode [b] = ([.off, .frames, .pulse, .both] : List AccessMode)[b.toNat]? ∧
    readLoss [b] = ([.continue, .mark, .squelch] : List LossBehaviour)[b.toNat]? ∧
    readSeverity [b] = ([.critical, .major, .minor, .warning] : List Severity)[b.toNat]? ∧
    readRole [b] = ([.primary, .standby, .member] : List NodeRole)[b.toNat]? ∧
    readNotice [b] = ([.se, .sw, .both, .none] : List NoticePorts)[b.toNat]? ∧
    readFlag [b] = ([false, true] : List Bool)[b.toNat]? ∧
    readFloor [b] = ([.q0, .q1, .q2, .q3, .q3] : List QClass)[b.toNat]? ∧
    (l.length ≠ 1 → readMode l = none ∧ readLoss l = none ∧ readSeverity l = none ∧ readRole l = none ∧
      readNotice l = none ∧ readFlag l = none ∧ readFloor l = none) ∧
    (l.length = b.toNat → readIds (b :: l) = some (l.map (fun x => x.toNat))) ∧
    (l.length ≠ b.toNat → readIds (b :: l) = none) ∧ readIds [] = none ∧
    (l.length ≠ 8 → ∀ lo hi lo' hi', readClamped lo hi l = none ∧ readClampedInt lo' hi' l = none ∧
      readRate l = none ∧ readBelow hi l = none ∧ readGradient l = none ∧ readIdOrAbsent l = none) ∧
    (∀ c, l.length = 6 → l[0]? = some c → c.toNat % 2 = 1 → readGroup l = some (BitVec.ofNat 48 (beNat l))) ∧
    (readGroup l ≠ none → l.length = 6 ∧ ∃ c, l[0]? = some c ∧ c.toNat % 2 = 1)) ∧
  (∀ (b : Byte) (k : Nat) (ks : List Nat) (l : List Byte),
    (readFields [] l = if l = [] then some [] else none) ∧ readFields (k :: ks) [] = none ∧
    readFields (k :: ks) (b :: l) = (if b = 0 then (readFields ks l).map (fun fs => none :: fs)
      else if b = 1 ∧ k ≤ l.length then (readFields ks (l.drop k)).map (fun fs => some (l.take k) :: fs) else none)) ∧
  (∀ (α : Type) (read : List Byte → Option α) (old : α) (l : List Byte),
    readOr read old none = some old ∧ readOr read old (some l) = read l) ∧
  (∀ (l : List Byte) (c x : LineCfg), setLine c l = some x ↔ ∃ f0 f1 f2 f3,
    readFields [8, 1, 8, 8] l = some [f0, f1, f2, f3] ∧ readOr readIdOrAbsent c.neighbour f0 = some x.neighbour ∧
    readOr readFlag c.freeze f1 = some x.freeze ∧
    readOr (readClampedInt (-1000000) 1000000) c.asym f2 = some x.asym ∧
    readOr (readClamped 1 1000) c.errThreshold f3 = some x.errThreshold) ∧
  (∀ (l : List Byte) (c x : AccessCfg), setAccess c l = some x ↔ ∃ f0 f1 f2 f3 f4 f5,
    readFields [1, 8, 8, 1, 1, 8] l = some [f0, f1, f2, f3, f4, f5] ∧ readOr readMode c.mode f0 = some x.mode ∧
    readOr readRate c.rate f1 = some x.rate ∧ readOr (readClamped 0 100000) c.advance f2 = some x.advance ∧
    readOr readFloor c.floor f3 = some x.floor ∧ readOr readLoss c.loss f4 = some x.loss ∧
    readOr (readClamped 1 600) c.restore f5 = some x.restore) ∧
  (∀ (l : List Byte) (c x : CandCfg),
    (setRefCand c l = some x ↔ ∃ f0 f1 f2 f3, readFields [1, 8, 8, 8] l = some [f0, f1, f2, f3] ∧
      readOr readFlag c.enabled f0 = some x.enabled ∧ readOr (readClamped 1 7) c.priority f1 = some x.priority ∧
      readOr (readClamped 1 600) c.qualify f2 = some x.qualify ∧
      readOr (readClamped 0 100000) c.cable f3 = some x.cable) ∧
    (setRingCand c l = some x ↔ ∃ f0 f1 f2, readFields [1, 8, 8] l = some [f0, f1, f2] ∧
      readOr readFlag c.enabled f0 = some x.enabled ∧ readOr (readClamped 1 7) c.priority f1 = some x.priority ∧
      readOr (readClamped 1 600) c.qualify f2 = some x.qualify ∧ x.cable = c.cable)) ∧
  (∀ (l : List Byte) (c x : AlarmCfg), setAlarmRecord c l = some x ↔ ∃ f0 f1 f2 f3,
    readFields [1, 1, 8, 8] l = some [f0, f1, f2, f3] ∧ readOr readSeverity c.severity f0 = some x.severity ∧
    readOr readFlag c.report f1 = some x.report ∧ readOr (readClamped 0 600) c.raiseSoak f2 = some x.raiseSoak ∧
    readOr (readClamped 0 600) c.clearSoak f3 = some x.clearSoak) ∧
  (∀ (t : Tables) (i : Nat) (l : List Byte),
    setPort t.port 0 l = (setLine t.port.line.east l).map (fun x =>
      { t.port with line := { t.port.line with east := x } }) ∧
    setPort t.port 1 l = (setLine t.port.line.west l).map (fun x =>
      { t.port with line := { t.port.line with west := x } }) ∧
    (∀ k : Fin 4, setPort t.port (2 + k.val) l = (setAccess (t.port.access.get k) l).map (fun x =>
      { t.port with access := t.port.access.set k x })) ∧
    setCand t.cand 0 l = (setRefCand t.cand.ref l).map (fun x => { t.cand with ref := x }) ∧
    setCand t.cand 1 l = (setRingCand t.cand.fwd l).map (fun x => { t.cand with fwd := x }) ∧
    setCand t.cand 2 l = (setRingCand t.cand.rev l).map (fun x => { t.cand with rev := x }) ∧
    (∀ c, t.alarm[i]? = some c → setAlarm t.alarm i l = (setAlarmRecord c l).map (fun x => t.alarm.set i x)) ∧
    (t.alarm[i]? = none → setAlarm t.alarm i l = none) ∧
    setNode t.node 2 l = (readRole l).map (fun x => { t.node with role := x }) ∧
    setNode t.node 3 l = (readFlag l).map (fun x => { t.node with refFitted := x }) ∧
    setNode t.node 5 l = (readGroup l).map (fun x => { t.node with group := x }) ∧
    setNode t.node 6 l = (readNotice l).map (fun x => { t.node with notice := x }) ∧
    setNode t.node 7 l = (readFlag l).map (fun x => { t.node with ringGuard := x }) ∧
    setRing t.ring 8 l = (readIds l).map (fun x => { t.ring with members := x }) ∧
    (∀ e : Entry, e = { index := i, value := l } →
      setEntry .node t e = (setNode t.node i l).map (fun x => { t with node := x }) ∧
      setEntry .ring t e = (setRing t.ring i l).map (fun x => { t with ring := x }) ∧
      setEntry .port t e = (setPort t.port i l).map (fun x => { t with port := x }) ∧
      setEntry .cand t e = (setCand t.cand i l).map (fun x => { t with cand := x }) ∧
      setEntry .servo t e = (setServo t.servo i l).map (fun x => { t with servo := x }) ∧
      setEntry .thermal t e = (setThermal t.thermal i l).map (fun x => { t with thermal := x }) ∧
      setEntry .quality t e = (setQuality t.quality i l).map (fun x => { t with quality := x }) ∧
      setEntry .alarm t e = (setAlarm t.alarm i l).map (fun x => { t with alarm := x })))

/-- CLEAR_HISTORY (R172): the alarm history is empty and the overwrite count 0, the answer is DONE, and no point, no
held severity, no raise count and no summary changes: nothing else does, but the count of requests and what the answer
brings. The ring write guard refuses it, GUARDED (R181). R171, R173, R174: an event joins the newest end of the
history, the oldest of 64 leaving with the overwrite count one greater; where its kind's report is on, one notice of
it goes to each site port that NODE names and is counted there; the summary is then derived: NONE with no severity
held by a raised point, and otherwise the highest held. R173 puts the notices of one event in no order: that the
notice for SE is handed over before the one for SW is the model's choice (assumption 69). Rests on the model's choices
in assumptions 1, 21, 40, 69. -/
def Obligations.ClearHistoryEmptiesTheHistory : Prop :=
  (∀ (n : Nat) (env : ReqEnv) (s c : State), c = (s.elapse n).counted → heardRequest env s = true →
    (s.tables.node.ringGuard = false ∨ (∃ d, env.via = .site d)) →
    exec (.clearHistory n env) s = .next (State.answer env .done [] .plain
      { c with live := { c.live with alarms := { c.live.alarms with history := [], overwrites := 0 } } })) ∧
  (∀ (n : Nat) (env : ReqEnv) (s c : State), c = (s.elapse n).counted → heardRequest env s = true →
    s.tables.node.ringGuard = true → (∃ d, env.via = .line d) →
    exec (.clearHistory n env) s = .next (c.answer env .guarded [] .plain)) ∧
  (∀ (t : Tables) (i : Nat) (cleared : Bool) (sev : Severity) (v w u : Live) (r : AlarmRecord)
      (notice : Side → Live → Live),
    w = alarmEvent t i cleared sev v →
    r = { kind := (pointKind i).1, inst := (pointKind i).2, cleared := cleared, severity := sev,
          time := v.ts.value.sec } →
    u = { v with alarms := { v.alarms with
      history := (if v.alarms.history.length < 64 then v.alarms.history else v.alarms.history.drop 1) ++ [r]
      overwrites := if v.alarms.history.length < 64 then v.alarms.overwrites
        else min 65535 (v.alarms.overwrites + 1) } } →
    (∀ d x, notice d x = hand (.site d)
      (mkFrame t
        { ring := t.node.ringId, rev := false, looped := false, origin := t.node.id, sender := t.node.id,
          target := 255, hops := 0, seq := 0 }
        (.notice { node := t.node.id, record := r }) .plain)
      { x with alarms := { x.alarms with
          notices := x.alarms.notices.set d (min 65535 (x.alarms.notices.get d + 1)) } }) →
    (∃ x : Live, w = { x with alarms := { x.alarms with summary := severitySummary v.alarms.points } } ∧
      ((pointCfg t i).report = false ∨ t.node.notice = .none → x = u) ∧
      ((pointCfg t i).report = true →
        (t.node.notice = .se → x = notice .east u) ∧ (t.node.notice = .sw → x = notice .west u) ∧
        (t.node.notice = .both → x = notice .west (notice .east u))))) ∧
  (∀ l : List Point,
    (severitySummary l = none → ∀ p ∈ l, p.state = .raised ∨ p.state = .clearing → p.severity = none) ∧
    (∀ sev, severitySummary l = some sev →
      (∃ p ∈ l, (p.state = .raised ∨ p.state = .clearing) ∧ p.severity = some sev) ∧
      ∀ p ∈ l, ∀ x, p.state = .raised ∨ p.state = .clearing → p.severity = some x → sevRank x ≤ sevRank sev))

/-- CLEAR_COUNTERS (R24, R92, R128, R151, R183), SOFT_RESTART (R191), SELECT and CLEAR_SELECT (R45, R46): past the
ring write guard, the counters, the link-lost flags and the raise counts are cleared; a restart is answered first and
leaves the state to its effect; SELECT sets the manual selection where its candidate is available, and is refused
NOT-NOW where it is not and BAD-VALUE for an index above 2; CLEAR-SELECT ends it. The guard refuses all four. A READ,
a WRITE or a command that comes during LOADING brings nothing but its time, and in RUNNING one from a line port
without relay fields is discarded and counted (R86, R180, R186, R190, R191; assumption 40). Rests on the model's
choices in assumptions 1, 21, 40. -/
def Obligations.CommandsActOnTheBlocks : Prop :=
  (∀ (n i k : Nat) (m : TableName) (env : ReqEnv) (w : WriteArgs) (es : List Entry) (s : State) (c : Instr),
    c ∈ [.read n env i k w.count, writeCommand m n env w, .clearCounters n env, .clearHistory n env,
      .softRestart n env, .reloadProfile n env, .commitProfile n env, .lockTable n env i es, .unlockTable n env i,
      .select n env i, .clearSelect n env] →
    (s.live.part = .loading → exec c s = .next (s.elapse n)) ∧
    (∀ (d : Side) (v : Live), s.live.part = .running → env.via = .line d → env.relay = none → v = s.live.elapse n →
      exec c s = .next { s with live := { v with mgmt := { v.mgmt with
        discards := min 65535 (v.mgmt.discards + 1) } } })) ∧
  (∀ (n i : Nat) (env : ReqEnv) (s c : State), c = (s.elapse n).counted → heardRequest env s = true →
    (s.tables.node.ringGuard = false ∨ (∃ d, env.via = .site d) →
      (∃ w : Live, exec (.clearCounters n env) s = .next (State.answer env .done [] .plain { c with live := w }) ∧
        w.servo = { c.live.servo with phaseSteps := 0, gated := 0, skipped := 0 } ∧
        w.refIn = { c.live.refIn with jumps := 0 } ∧
        (∀ p, w.port p = { c.live.port p with
          insertDrops := 0, throughDrops := 0, fcs := 0, short := 0, overrun := 0, malformed := 0, misdirected := 0,
          linkLost := false }) ∧
        (∀ d, w.span d = { c.live.span d with timeouts := 0, unmatched := 0, rejected := 0, downs := 0 }) ∧
        (∀ a, w.access.get a = { c.live.access.get a with sent := 0, replies := 0, unanswered := 0 }) ∧
        w.alarms = { c.live.alarms with
          points := c.live.alarms.points.map (fun p => { p with raises := 0 }), notices := ⟨0, 0⟩ } ∧
        w.epoch = { c.live.epoch with
          notUp := ⟨0, 0⟩, wrongDir := ⟨0, 0⟩, ownOrigin := 0, hopLimit := 0, unknownOrigin := 0, fwdDrops := 0,
          takeovers := 0, reverts := 0 } ∧
        w.roll = { c.live.roll with
          rollTimeouts := 0, lateRolls := 0, loopSwitches := 0, unknownHead := 0, wrongDir := ⟨0, 0⟩, ownHead := 0,
          hopLimit := 0, loopDrops := 0, configSent := 0, configDiscards := 0, configDrops := 0, configDeferred := 0,
          configRefused := 0, cycleMin := none, cycleMax := none } ∧
        w.mgmt = { c.live.mgmt with executed := 0, relayed := 0, discards := 0, drops := 0, late := 0 } ∧
        w.ts = c.live.ts ∧ w.cands = c.live.cands ∧ w.thermal = c.live.thermal ∧ w.hold = c.live.hold ∧
        w.selection = c.live.selection ∧ w.manual = c.live.manual ∧ w.ownClass = c.live.ownClass) ∧
      exec (.softRestart n env) s = .next (c.answer env .done [] .restart) ∧
      (∀ x, candOfIndex i = some x → (c.live.cands.get x).isAvailable = true →
        exec (.select n env i) s = .next (State.answer env .done [] .plain
          { c with live := { c.live with manual := some x } })) ∧
      (∀ x, candOfIndex i = some x → (c.live.cands.get x).isAvailable = false →
        exec (.select n env i) s = .next (c.answer env .notNow [] .plain)) ∧
      (3 ≤ i → exec (.select n env i) s = .next (c.answer env .badValue [] .plain)) ∧
      exec (.clearSelect n env) s = .next (State.answer env .done [] .plain
        { c with live := { c.live with manual := none } })) ∧
    (s.tables.node.ringGuard = true → (∃ d, env.via = .line d) →
      exec (.clearCounters n env) s = .next (c.answer env .guarded [] .plain) ∧
      exec (.softRestart n env) s = .next (c.answer env .guarded [] .plain) ∧
      exec (.select n env i) s = .next (c.answer env .guarded [] .plain) ∧
      exec (.clearSelect n env) s = .next (c.answer env .guarded [] .plain)))

/-- GUARD_CHANGE, LOCK_TABLE and UNLOCK_TABLE (R181, R184): the pin takes its level; a table of no such id is
BAD-TABLE, before the ring write guard (assumption 24); past the ring write guard, with GUARD released and no commit
in progress, LOCK-TABLE gives LOCKED or LOCKED-DOWN, by a level byte of 0 or 1 (assumption 28), and UNLOCK-TABLE gives
OPEN, and from LOCKED-DOWN only LOCKED-DOWN is granted; with GUARD asserted both are refused LOCKED, during a commit
BUSY, LOCK-TABLE with LOCKED-DOWN on a LOCKED-DOWN table included, a level of no such code BAD-VALUE, and by the ring
write guard GUARDED. Rests on the model's choices in assumptions 1, 21, 24, 28, 40. -/
def Obligations.LockStatesFollowTheTable : Prop :=
  ∀ (n table : Nat) (m : TableName) (env : ReqEnv) (es : List Entry) (l : Lock) (s c : State),
    c = (s.elapse n).counted →
    (∀ g, exec (.guardChange n g) s = .next (s.settled { s.live.elapse n with guard := g })) ∧
    (heardRequest env s = true →
      (tableOfId table = none →
        exec (.lockTable n env table es) s = .next (c.answer env .badTable [] .plain) ∧
        exec (.unlockTable n env table) s = .next (c.answer env .badTable [] .plain)) ∧
      (tableOfId table = some m → s.tables.node.ringGuard = true → (∃ d, env.via = .line d) →
        exec (.lockTable n env table es) s = .next (c.answer env .guarded [] .plain) ∧
        exec (.unlockTable n env table) s = .next (c.answer env .guarded [] .plain)) ∧
      (tableOfId table = some m → s.tables.node.ringGuard = false ∨ (∃ d, env.via = .site d) →
        (s.live.guard = true →
          exec (.lockTable n env table es) s = .next (c.answer env .locked [] .plain) ∧
          exec (.unlockTable n env table) s = .next (c.answer env .locked [] .plain)) ∧
        (s.live.guard = false → s.locks.get m = .lockedDown →
          (lockLevel es = some .locked →
            exec (.lockTable n env table es) s = .next (c.answer env .locked [] .plain)) ∧
          exec (.unlockTable n env table) s = .next (c.answer env .locked [] .plain)) ∧
        (s.live.guard = false → s.store.commit ≠ none → s.locks.get m ≠ .lockedDown →
          exec (.lockTable n env table es) s = .next (c.answer env .busy [] .plain) ∧
          exec (.unlockTable n env table) s = .next (c.answer env .busy [] .plain)) ∧
        (s.live.guard = false → s.store.commit ≠ none → s.locks.get m = .lockedDown → lockLevel es ≠ some .locked →
          exec (.lockTable n env table es) s = .next (c.answer env .busy [] .plain)) ∧
        (s.live.guard = false → s.store.commit = none → lockLevel es = none →
          exec (.lockTable n env table es) s = .next (c.answer env .badValue [] .plain)) ∧
        (lockLevel es = some l → s.live.guard = false → s.store.commit = none →
          s.locks.get m ≠ .lockedDown ∨ l = .lockedDown →
          exec (.lockTable n env table es) s =
            .next (State.answer env .done [] .plain { c with locks := s.locks.set m l })) ∧
        (s.live.guard = false → s.store.commit = none → s.locks.get m ≠ .lockedDown →
          exec (.unlockTable n env table) s =
            .next (State.answer env .done [] .plain { c with locks := s.locks.set m .opened })))) ∧
    (∀ (i : Nat) (b : Byte),
      lockLevel [{ index := i, value := [b] }] = ([.locked, .lockedDown] : List Lock)[b.toNat]?) ∧
    ((∀ e ∈ es, e.value.length ≠ 1) ∨ es.length ≠ 1 → lockLevel es = none)

/-- COMMIT_PROFILE, COMMIT_END and RELOAD_PROFILE (R151, R181, R188, R189): a commit takes the tables and the locks as
they stand and is answered DONE; verified, it leaves that image and no STORE-FAULT; mismatched, no image and
STORE-FAULT; with none in progress its end brings nothing. A reload replaces every table that is not LOCKED-DOWN by
the image's, leaves the serial and the locks, and is refused BAD-STORE without an image; both are refused BUSY during
a commit, and GUARDED by the ring write guard. The blocks take the new tables as after a WRITE, and the rejected
generation goes unless RING is LOCKED-DOWN, as at an adoption (assumption 36). That a reload replaces every table
first, and that the blocks then take the new tables once, in the order of the table ids, is the model's choice
(assumption 34). Rests on the model's choices in assumptions 1, 3, 21, 34, 36, 40. -/
def Obligations.CommitAndReloadMoveTheTables : Prop :=
  ∀ (n : Nat) (env : ReqEnv) (s c : State), c = (s.elapse n).counted →
    (∀ (ok : Bool) (i : Image), s.store.commit = some i → ∃ t : State, exec (.commitEnd n ok) s = .next t ∧
      t.tables = s.tables ∧ t.locks = s.locks ∧ t.store.commit = none ∧ t.live.storeFault = !ok ∧
      t.store.image = (if ok then some i else none) ∧
      t.store.lastCommit = some (if ok then .verified else .mismatch)) ∧
    (∀ ok : Bool, s.store.commit = none → exec (.commitEnd n ok) s = .next (s.elapse n)) ∧
    (heardRequest env s = true → (s.tables.node.ringGuard = false ∨ (∃ d, env.via = .site d)) →
      (s.store.commit ≠ none →
        exec (.commitProfile n env) s = .next (c.answer env .busy [] .plain) ∧
        exec (.reloadProfile n env) s = .next (c.answer env .busy [] .plain)) ∧
      (s.store.commit = none →
        exec (.commitProfile n env) s = .next (State.answer env .done [] .plain
          { c with store := { s.store with commit := some { tables := s.tables, locks := s.locks } } }) ∧
        (s.store.image = none → exec (.reloadProfile n env) s = .next (c.answer env .badStore [] .plain)) ∧
        (∀ i, s.store.image = some i → ∃ t : State, exec (.reloadProfile n env) s = .next t ∧
          t.locks = s.locks ∧ t.store = s.store ∧ t.live.ts.value = (s.live.elapse n).ts.value ∧
          (∀ m, s.locks.get m = .lockedDown → Tables.agreeOn m t.tables s.tables = true) ∧
          (∀ m, s.locks.get m ≠ .lockedDown → Tables.agreeOn m t.tables
            { i.tables with node := { i.tables.node with serial := s.tables.node.serial } } = true) ∧
          t.live.roll.rejectedGen = (if s.locks.ring = .lockedDown then s.live.roll.rejectedGen else none) ∧
          (∀ (u : Live) (new : Tables), t.tables = new →
            u = (if s.locks.ring = .lockedDown then c.live
              else { c.live with roll := { c.live.roll with rejectedGen := none } }) →
            t = State.answer env .done [] .plain
              { c with tables := new, live := finish new (takeTables s.tables new u) }) ∧
          (s.locks.thermal ≠ .lockedDown → s.tables.thermal.grads ≠ i.tables.thermal.grads →
            t.live.servo.history = [])))) ∧
    (heardRequest env s = true → s.tables.node.ringGuard = true → (∃ d, env.via = .line d) →
      exec (.commitProfile n env) s = .next (c.answer env .guarded [] .plain) ∧
      exec (.reloadProfile n env) s = .next (c.answer env .guarded [] .plain))

/-! ## What holds of every frame, every command and every step -/

/-- Sections 12.1 and 12.2, R192, R193: a well-formed frame, written, padded and read back, is the frame it was, in a
payload of 46 bytes or more; a frame this node forms bears the group address, its own serial with the group bit clear
as source, and its frame type. Well formed is a MGMT-REQUEST whose operation and command code section 12.2 defines
(assumption 24), and a notice of instance 0 to 3, severity WARNING to CRITICAL and seconds of six bytes (assumption
55). Rests on the model's choices in assumptions 24, 55. -/
def Obligations.FrameRoundTrip : Prop :=
  (∀ q : QFrame, q.frame.wf = true →
    parseFrame (toWire q).payload = some q.frame ∧ 46 ≤ (toWire q).payload.length ∧
    (toWire q).dst = q.eth.dst ∧ (toWire q).src = q.eth.src ∧ (toWire q).ftype = q.eth.ftype) ∧
  (∀ (t : Tables) (h : Header) (b : Body) (note : Note) (i : Nat),
    (mkFrame t h b note).eth.dst = t.node.group ∧ (mkFrame t h b note).eth.ftype = t.node.ftype ∧
    (mkFrame t h b note).eth.src.getLsbD i = (t.node.serial.getLsbD i && decide (i ≠ 40)))

/-- R192, R193: whatever payload is read as a frame of the part's protocol, the frame is well formed: a MGMT-REQUEST
has an operation and a command code that section 12.2 defines (assumption 24), and a notice an instance of 0 to 3 and
a severity of WARNING to CRITICAL (assumption 55). Rests on the model's choices in assumptions 24, 55. -/
def Obligations.ParsedFramesAreWellFormed : Prop :=
  ∀ (p : List Byte) (f : Frame), parseFrame p = some f → f.wf = true

/-- R184, R188: a LOCKED-DOWN table keeps its contents and its lock through every command but POWER_ON; while GUARD is
asserted only POWER_ON and RESETN move a lock; and while a commit is in progress only those two change a table or a
lock. -/
def Obligations.TablesStandWhileTheyMust : Prop :=
  ∀ (c : Instr) (s t : State), exec c s = .next t → (∀ n, c ≠ .powerOn n) →
    (∀ m, s.locks.get m = .lockedDown → t.locks.get m = .lockedDown ∧ Tables.agreeOn m t.tables s.tables = true) ∧
    (isHardReset c = false → s.live.guard = true → t.locks = s.locks) ∧
    (isHardReset c = false → s.store.commit ≠ none → t.tables = s.tables ∧ t.locks = s.locks)

/-- R1, R2, R29, R42, R63, R80, R88, R90, R136, R165, R171, R185: every step keeps the time value, the remainder and
F_total within their ranges, the insert queues and through buffers within their capacities, both histories within 64
entries, and the 21 points, 32 ring map entries and 8 relay handles; and it keeps at most one candidate SELECTED, the
one that the selection names. Rests on the model's choice in assumption 4. -/
def Obligations.EveryStepKeepsTheRanges : Prop :=
  (∀ s t : State, s.live.ts.sound = true → s.live.portsSound = true → s.live.historiesSound = true →
    s.live.countsSound = true → step s = .next t →
    t.live.ts.sound = true ∧ t.live.portsSound = true ∧ t.live.historiesSound = true ∧ t.live.countsSound = true) ∧
  (∀ s t : State, s.live.selectionSound = true → step s = .next t → t.live.selectionSound = true)

/-- The state right after power-on lies within the ranges of `EveryStepKeepsTheRanges`, with no candidate SELECTED.
Rests on the model's choice in assumption 2. -/
def Obligations.ResetMeetsTheRanges : Prop :=
  State.reset.live.ts.sound = true ∧ State.reset.live.portsSound = true ∧
  State.reset.live.historiesSound = true ∧ State.reset.live.countsSound = true ∧
  State.reset.live.selectionSound = true

/-- R1, R4, R5, R14, R18: only a REFP pulse or an arriving frame, which may bring the servo a sample, can step or
coarse-set the time scale; every other command, the two resets apart, moves the time value and the remainder by its own
oscillator periods and leaves the step total. Rests on the model's choice in assumption 1. -/
def Obligations.TimeMovesOnlyBySamples : Prop :=
  ∀ (c : Instr) (s t : State), exec c s = .next t → isHardReset c = false → mayBringSample c = false →
    t.live.ts.value = (s.live.elapse (periodsBefore c)).ts.value ∧
    t.live.ts.rem = (s.live.elapse (periodsBefore c)).ts.rem ∧ t.live.ts.steps = s.live.ts.steps
end

