-- ==== Sys2Proof/Laws/State.lean ====
section
/-! SUPPORT. The small lemmas of the state's containers and named updates: one per field and update, each true by
unfolding the update alone. -/

namespace Sys2Proof

/-! ## Pairs, fours and threes -/

@[simp] theorem Pair.get_set_same {α : Type} (p : Pair α) (d : Side) (x : α) : (p.set d x).get d = x := by
  cases d <;> rfl

@[simp] theorem Pair.set_get {α : Type} (p : Pair α) (d : Side) : p.set d (p.get d) = p := by cases d <;> rfl

theorem Pair.get_set_other {α : Type} (p : Pair α) {d e : Side} (h : d ≠ e) (x : α) :
    (p.set d x).get e = p.get e := by
  cases d <;> cases e <;> first | rfl | exact absurd rfl h

@[simp] theorem Quad.get_set_same {α : Type} (q : Quad α) (i : Fin 4) (x : α) : (q.set i x).get i = x := by
  revert i; intro i; fin_cases i <;> rfl

@[simp] theorem Quad.set_get {α : Type} (q : Quad α) (i : Fin 4) : q.set i (q.get i) = q := by
  fin_cases i <;> rfl

theorem Quad.get_set_other {α : Type} (q : Quad α) {i j : Fin 4} (h : i ≠ j) (x : α) :
    (q.set i x).get j = q.get j := by
  fin_cases i <;> fin_cases j <;> first | rfl | exact absurd rfl h

@[simp] theorem Trio.get_set_same {α : Type} (t : Trio α) (c : Cand) (x : α) : (t.set c x).get c = x := by
  cases c <;> rfl

theorem Trio.get_set_other {α : Type} (t : Trio α) {c e : Cand} (h : c ≠ e) (x : α) :
    (t.set c x).get e = t.get e := by
  cases c <;> cases e <;> first | rfl | exact absurd rfl h

@[simp] theorem PerTable.get_set_same {α : Type} (p : PerTable α) (n : TableName) (x : α) : (p.set n x).get n = x := by
  cases n <;> rfl

theorem PerTable.get_set_other {α : Type} (p : PerTable α) {n m : TableName} (h : n ≠ m) (x : α) :
    (p.set n x).get m = p.get m := by
  cases n <;> cases m <;> first | rfl | exact absurd rfl h

namespace Machine

@[simp] theorem Ports.get_set_same (p : Ports) (q : Port) (x : PortIO) : (p.set q x).get q = x := by
  cases q <;> simp [Ports.get, Ports.set]

theorem Ports.get_set_other (p : Ports) {q r : Port} (h : q ≠ r) (x : PortIO) : (p.set q x).get r = p.get r := by
  cases q <;> cases r <;> simp [Ports.get, Ports.set] <;>
    first
      | exact Pair.get_set_other _ (fun e => h (by rw [e])) _
      | exact Quad.get_set_other _ (fun e => h (by rw [e])) _

/-! ## Maps over the containers -/

theorem Pair.map_set {α : Type} (f : α → α) (p : Pair α) (d : Side) (x : α) :
    Pair.map f (p.set d x) = (Pair.map f p).set d (f x) := by cases d <;> rfl

theorem Pair.map_get {α : Type} (f : α → α) (p : Pair α) (d : Side) : (Pair.map f p).get d = f (p.get d) := by
  cases d <;> rfl

theorem Quad.map_set {α : Type} (f : α → α) (q : Quad α) (i : Fin 4) (x : α) :
    Quad.map f (q.set i x) = (Quad.map f q).set i (f x) := by fin_cases i <;> rfl

theorem Quad.map_get {α : Type} (f : α → α) (q : Quad α) (i : Fin 4) : (Quad.map f q).get i = f (q.get i) := by
  fin_cases i <;> rfl

theorem Ports.map_set (f : PortIO → PortIO) (p : Ports) (q : Port) (x : PortIO) :
    (p.set q x).map f = (p.map f).set q (f x) := by
  cases q <;> simp [Ports.map, Ports.set, Pair.map_set, Quad.map_set]

theorem Ports.map_get (f : PortIO → PortIO) (p : Ports) (q : Port) : (p.map f).get q = f (p.get q) := by
  cases q <;> simp [Ports.map, Ports.get, Pair.map_get, Quad.map_get]

@[simp] theorem Ports.set_get (p : Ports) (q : Port) : p.set q (p.get q) = p := by
  cases q <;> simp [Ports.get, Ports.set]

/-- A change of one port that a function does not see is not seen on the whole. -/
theorem Ports.map_set_same (f : PortIO → PortIO) (p : Ports) (q : Port) (x : PortIO) (h : f x = f (p.get q)) :
    (p.set q x).map f = p.map f := by
  rw [Ports.map_set, h, ← Ports.map_get f p q, Ports.set_get]

theorem Pair.map_set_same {α : Type} (f : α → α) (p : Pair α) (d : Side) (x : α) (h : f x = f (p.get d)) :
    Pair.map f (p.set d x) = Pair.map f p := by
  rw [Pair.map_set, h, ← Pair.map_get f p d, Pair.set_get]

theorem Quad.map_set_same {α : Type} (f : α → α) (q : Quad α) (i : Fin 4) (x : α) (h : f x = f (q.get i)) :
    Quad.map f (q.set i x) = Quad.map f q := by
  rw [Quad.map_set, h, ← Quad.map_get f q i, Quad.set_get]

/-! ## The passing of time -/

@[simp] theorem Live.elapse_osc (v : Live) (n : Nat) : (v.elapse n).osc = v.osc + n := rfl
@[simp] theorem Live.elapse_ts (v : Live) (n : Nat) : (v.elapse n).ts = v.ts.advance n := rfl
@[simp] theorem Live.elapse_part (v : Live) (n : Nat) : (v.elapse n).part = v.part := rfl
@[simp] theorem Live.elapse_nodeKept (v : Live) (n : Nat) : (v.elapse n).nodeKept = v.nodeKept := rfl
@[simp] theorem Live.elapse_servo (v : Live) (n : Nat) : (v.elapse n).servo = v.servo := rfl
@[simp] theorem Live.elapse_cands (v : Live) (n : Nat) : (v.elapse n).cands = v.cands := rfl
@[simp] theorem Live.elapse_refIn (v : Live) (n : Nat) : (v.elapse n).refIn = v.refIn := rfl
@[simp] theorem Live.elapse_manual (v : Live) (n : Nat) : (v.elapse n).manual = v.manual := rfl
@[simp] theorem Live.elapse_selection (v : Live) (n : Nat) : (v.elapse n).selection = v.selection := rfl
@[simp] theorem Live.elapse_thermal (v : Live) (n : Nat) : (v.elapse n).thermal = v.thermal := rfl
@[simp] theorem Live.elapse_hold (v : Live) (n : Nat) : (v.elapse n).hold = v.hold := rfl
@[simp] theorem Live.elapse_ownClass (v : Live) (n : Nat) : (v.elapse n).ownClass = v.ownClass := rfl
@[simp] theorem Live.elapse_io (v : Live) (n : Nat) : (v.elapse n).io = v.io := rfl
@[simp] theorem Live.elapse_spans (v : Live) (n : Nat) : (v.elapse n).spans = v.spans := rfl
@[simp] theorem Live.elapse_epoch (v : Live) (n : Nat) : (v.elapse n).epoch = v.epoch := rfl
@[simp] theorem Live.elapse_roll (v : Live) (n : Nat) : (v.elapse n).roll = v.roll := rfl
@[simp] theorem Live.elapse_access (v : Live) (n : Nat) : (v.elapse n).access = v.access := rfl
@[simp] theorem Live.elapse_alarms (v : Live) (n : Nat) : (v.elapse n).alarms = v.alarms := rfl
@[simp] theorem Live.elapse_mgmt (v : Live) (n : Nat) : (v.elapse n).mgmt = v.mgmt := rfl
@[simp] theorem Live.elapse_storeFault (v : Live) (n : Nat) : (v.elapse n).storeFault = v.storeFault := rfl
@[simp] theorem Live.elapse_guard (v : Live) (n : Nat) : (v.elapse n).guard = v.guard := rfl
@[simp] theorem Live.elapse_restartDue (v : Live) (n : Nat) : (v.elapse n).restartDue = v.restartDue := rfl
@[simp] theorem Live.elapse_losses (v : Live) (n : Nat) : (v.elapse n).losses = v.losses := rfl

@[simp] theorem State.elapse_live (s : State) (n : Nat) : (s.elapse n).live = s.live.elapse n := rfl
@[simp] theorem State.elapse_pending (s : State) (n : Nat) : (s.elapse n).pending = s.pending := rfl
@[simp] theorem State.elapse_tables (s : State) (n : Nat) : (s.elapse n).tables = s.tables := rfl
@[simp] theorem State.elapse_locks (s : State) (n : Nat) : (s.elapse n).locks = s.locks := rfl
@[simp] theorem State.elapse_store (s : State) (n : Nat) : (s.elapse n).store = s.store := rfl

@[simp] theorem TimeScale.advance_steps (x : TimeScale) (n : Nat) : (x.advance n).steps = x.steps := by
  cases x; rfl
@[simp] theorem TimeScale.advance_fTotal (x : TimeScale) (n : Nat) : (x.advance n).fTotal = x.fTotal := by
  cases x; rfl
@[simp] theorem TimeScale.advance_k (x : TimeScale) (n : Nat) : (x.advance n).k = x.k := by
  cases x; rfl

@[simp] theorem TimeScale.step_rem (x : TimeScale) (d : Int) : (x.step d).rem = x.rem := rfl
@[simp] theorem TimeScale.step_fTotal (x : TimeScale) (d : Int) : (x.step d).fTotal = x.fTotal := rfl
@[simp] theorem TimeScale.step_k (x : TimeScale) (d : Int) : (x.step d).k = x.k := rfl
@[simp] theorem TimeScale.step_steps (x : TimeScale) (d : Int) : (x.step d).steps = x.steps + d * 1000 := rfl

/-! ## Updates of the state as a whole -/

@[simp] theorem State.act_pending (f : Tables → Live → Live) (s : State) : (s.act f).pending = s.pending := rfl
@[simp] theorem State.act_tables (f : Tables → Live → Live) (s : State) : (s.act f).tables = s.tables := rfl
@[simp] theorem State.act_locks (f : Tables → Live → Live) (s : State) : (s.act f).locks = s.locks := rfl
@[simp] theorem State.act_store (f : Tables → Live → Live) (s : State) : (s.act f).store = s.store := rfl
@[simp] theorem State.act_live (f : Tables → Live → Live) (s : State) :
    (s.act f).live = finish s.tables (f s.tables s.live) := rfl

@[simp] theorem State.settled_pending (s : State) (v : Live) : (s.settled v).pending = s.pending := rfl
@[simp] theorem State.settled_tables (s : State) (v : Live) : (s.settled v).tables = s.tables := rfl
@[simp] theorem State.settled_locks (s : State) (v : Live) : (s.settled v).locks = s.locks := rfl
@[simp] theorem State.settled_store (s : State) (v : Live) : (s.settled v).store = s.store := rfl
@[simp] theorem State.settled_live (s : State) (v : Live) : (s.settled v).live = finish s.tables v := rfl

/-- A timed event acts where it is due. -/
theorem State.timed_due (due : Tables → Live → Bool) (f : Tables → Live → Live) (s : State)
    (h : due s.tables s.live = true) : s.timed due f = s.act f := if_pos h

/-- A timed event that is not due does nothing. -/
theorem State.timed_idle (due : Tables → Live → Bool) (f : Tables → Live → Live) (s : State)
    (h : due s.tables s.live = false) : s.timed due f = s := if_neg (by simp [h])

@[simp] theorem State.counted_tables (s : State) : s.counted.tables = s.tables := rfl
@[simp] theorem State.counted_locks (s : State) : s.counted.locks = s.locks := rfl
@[simp] theorem State.counted_store (s : State) : s.counted.store = s.store := rfl
@[simp] theorem State.counted_pending (s : State) : s.counted.pending = s.pending := rfl

@[simp] theorem State.answer_tables (e : ReqEnv) (st : Status) (es : List Entry) (n : Note) (s : State) :
    (s.answer e st es n).tables = s.tables := rfl
@[simp] theorem State.answer_locks (e : ReqEnv) (st : Status) (es : List Entry) (n : Note) (s : State) :
    (s.answer e st es n).locks = s.locks := rfl
@[simp] theorem State.answer_store (e : ReqEnv) (st : Status) (es : List Entry) (n : Note) (s : State) :
    (s.answer e st es n).store = s.store := rfl
@[simp] theorem State.answer_pending (e : ReqEnv) (st : Status) (es : List Entry) (n : Note) (s : State) :
    (s.answer e st es n).pending = s.pending := rfl

@[simp] theorem State.install_tables (new : Tables) (s : State) : (s.install new).tables = new := rfl
@[simp] theorem State.install_locks (new : Tables) (s : State) : (s.install new).locks = s.locks := rfl
@[simp] theorem State.install_store (new : Tables) (s : State) : (s.install new).store = s.store := rfl
@[simp] theorem State.install_pending (new : Tables) (s : State) : (s.install new).pending = s.pending := rfl

/-! ## Frames under reception -/

@[simp] theorem PortIO.received_arriving (x : PortIO) : x.received.arriving = none := rfl
@[simp] theorem PortIO.received_link (x : PortIO) : x.received.link = x.link := rfl
@[simp] theorem PortIO.received_queue (x : PortIO) : x.received.queue = x.queue := rfl
@[simp] theorem PortIO.received_sending (x : PortIO) : x.received.sending = x.sending := rfl
@[simp] theorem PortIO.received_through (x : PortIO) : x.received.through = x.through := rfl
@[simp] theorem PortIO.received_insertDrops (x : PortIO) : x.received.insertDrops = x.insertDrops := rfl
@[simp] theorem PortIO.received_throughDrops (x : PortIO) : x.received.throughDrops = x.throughDrops := rfl

@[simp] theorem State.taken_pending (p : Port) (s : State) : (s.taken p).pending = s.pending := rfl
@[simp] theorem State.taken_tables (p : Port) (s : State) : (s.taken p).tables = s.tables := rfl
@[simp] theorem State.taken_locks (p : Port) (s : State) : (s.taken p).locks = s.locks := rfl
@[simp] theorem State.taken_store (p : Port) (s : State) : (s.taken p).store = s.store := rfl

@[simp] theorem State.arrived_part (n : Nat) (p : Port) (s : State) : (s.arrived n p).part = s.live.part := rfl
@[simp] theorem State.arrived_osc (n : Nat) (p : Port) (s : State) : (s.arrived n p).osc = s.live.osc + n := rfl
@[simp] theorem State.arrived_ts (n : Nat) (p : Port) (s : State) : (s.arrived n p).ts = s.live.ts.advance n := rfl
@[simp] theorem State.arrived_servo (n : Nat) (p : Port) (s : State) : (s.arrived n p).servo = s.live.servo := rfl
@[simp] theorem State.arrived_cands (n : Nat) (p : Port) (s : State) : (s.arrived n p).cands = s.live.cands := rfl
@[simp] theorem State.arrived_selection (n : Nat) (p : Port) (s : State) : (s.arrived n p).selection = s.live.selection := rfl
@[simp] theorem State.arrived_ownClass (n : Nat) (p : Port) (s : State) : (s.arrived n p).ownClass = s.live.ownClass := rfl
@[simp] theorem State.arrived_spans (n : Nat) (p : Port) (s : State) : (s.arrived n p).spans = s.live.spans := rfl
@[simp] theorem State.arrived_epoch (n : Nat) (p : Port) (s : State) : (s.arrived n p).epoch = s.live.epoch := rfl
@[simp] theorem State.arrived_roll (n : Nat) (p : Port) (s : State) : (s.arrived n p).roll = s.live.roll := rfl
@[simp] theorem State.arrived_access (n : Nat) (p : Port) (s : State) : (s.arrived n p).access = s.live.access := rfl
@[simp] theorem State.arrived_alarms (n : Nat) (p : Port) (s : State) : (s.arrived n p).alarms = s.live.alarms := rfl
@[simp] theorem State.arrived_mgmt (n : Nat) (p : Port) (s : State) : (s.arrived n p).mgmt = s.live.mgmt := rfl
@[simp] theorem State.arrived_port (n : Nat) (p : Port) (s : State) :
    (s.arrived n p).port p = (s.live.port p).received := Ports.get_set_same _ _ _

end Machine
end Sys2Proof
end

