-- ==== Sys2Proof/Laws/Kept.lean ====
section
/-! SUPPORT. What every operation that `finish` may call leaves alone: `Live.kept` is the same before and after. -/

namespace Sys2Proof.Machine

/-- A change of one port's queue, transmitter or insert drops is not kept. -/
theorem Live.mapPort_kept (v : Live) (p : Port) (f : PortIO → PortIO)
    (h : ∀ x : PortIO, (f x).kept = x.kept) : (v.mapPort p f).kept = v.kept := by
  simp only [Live.mapPort, Live.kept, Ports.map_set_same PortIO.kept v.io p _ (h _)]

theorem Live.mapSpan_kept (v : Live) (d : Side) (f : Span → Span)
    (h : ∀ x : Span, (f x).kept = x.kept) : (v.mapSpan d f).kept = v.kept := by
  simp only [Live.mapSpan, Live.kept, Pair.map_set_same Span.kept v.spans d _ (h _)]

theorem Live.mapAccess_kept (v : Live) (i : Fin 4) (f : AccessPort → AccessPort)
    (h : ∀ a : AccessPort, { f a with state := AccessState.off, timer := none } = { a with state := .off, timer := none }) :
    (v.mapAccess i f).kept = v.kept := by
  simp only [Live.mapAccess, Live.kept,
    Quad.map_set_same (fun a : AccessPort => { a with state := .off, timer := none }) v.access i _ (h _)]

/-- A change of a candidate's state alone is not kept. -/
theorem Live.mapCand_state_kept (v : Live) (c : Cand) (f : CandRec → CandRec)
    (h : ∀ r : CandRec, ∃ st, f r = { r with state := st }) : (v.mapCand c f).kept = v.kept := by
  obtain ⟨st, hst⟩ := h (v.cands.get c)
  cases c <;> simp [Live.mapCand, Live.kept, Trio.set, hst, CandRec.kept] <;> simp [Trio.get]

/-- A ring candidate's record keeps its last sample alone. -/
theorem Live.mapCand_ring_kept (v : Live) (d : Side) (f : CandRec → CandRec)
    (h : ∀ r : CandRec, (f r).last = r.last) : (v.mapCand d.cand f).kept = v.kept := by
  have hh := h (v.cands.get d.cand)
  cases d <;> simp only [Side.cand, Trio.get] at hh <;>
    simp [Live.mapCand, Live.kept, Trio.set, Trio.get, Side.cand, CandRec.kept, hh]

/-! ## Egress -/

theorem Live.kept_cycle (v : Live) (c : Option Cycle) :
    Live.kept { v with roll := { v.roll with cycle := c } } = v.kept := rfl

theorem probeSent_kept (p : Port) (b : Body) (v : Live) : (probeSent p b v).kept = v.kept := by
  cases p
  · cases b
    case line.probe seq =>
      exact Live.mapSpan_kept _ _ _ (fun x => by by_cases h : x.state = .down <;> simp [h, Span.kept])
    all_goals rfl
  · rfl
  · rfl

theorem rollSent_kept (seq : Seq16) (rev : Bool) (v : Live) : (rollSent seq rev v).kept = v.kept := by
  unfold rollSent; split
  · split
    · exact Live.kept_cycle _ _
    · rfl
  · rfl

theorem onTransmit_kept (p : Port) (q : QFrame) (v : Live) : (onTransmit p q v).kept = v.kept := by
  unfold onTransmit; split
  · exact probeSent_kept _ _ _
  · exact rollSent_kept _ _ _
  all_goals rfl

theorem grant_kept (p : Port) (v : Live) : (grant p v).kept = v.kept := by
  unfold grant
  simp only
  split
  · rfl
  · split
    · rw [onTransmit_kept]; exact Live.mapPort_kept _ _ _ (fun _ => rfl)
    · split
      · exact Live.mapPort_kept _ _ _ (fun _ => rfl)
      · rfl

theorem noteLost_kept (r : Bool) (p : Port) (q : QFrame) (v : Live) : (noteLost r p q v).kept = v.kept := by
  unfold noteLost; split <;> (try split) <;> rfl

theorem insertDrop_kept (p : Port) (v : Live) : (insertDrop p v).kept = v.kept :=
  Live.mapPort_kept _ _ _ (fun _ => rfl)

theorem hand_kept (p : Port) (q : QFrame) (v : Live) : (hand p q v).kept = v.kept := by
  have drop : (noteLost false p q (insertDrop p v)).kept = v.kept := by rw [noteLost_kept, insertDrop_kept]
  unfold hand
  simp only
  split
  · exact drop
  · split
    · rw [grant_kept]; exact Live.mapPort_kept _ _ _ (fun _ => rfl)
    · split
      · exact drop
      · split
        · exact drop
        · split
          · rw [grant_kept, noteLost_kept, insertDrop_kept]; exact Live.mapPort_kept _ _ _ (fun _ => rfl)
          · rfl

theorem withdraw_kept (p : Port) (f : QFrame → Bool) (v : Live) : (withdraw p f v).kept = v.kept :=
  Live.mapPort_kept _ _ _ (fun _ => rfl)

/-! ## Alarms -/

theorem mapPoint_kept (i : Nat) (f : Point → Point) (v : Live) : (mapPoint i f v).kept = v.kept := rfl

theorem sendNotice_kept (t : Tables) (r : AlarmRecord) (d : Side) (v : Live) : (sendNotice t r d v).kept = v.kept := by
  unfold sendNotice; rw [hand_kept]; rfl

theorem sendNotices_kept (t : Tables) (r : AlarmRecord) (v : Live) : (sendNotices t r v).kept = v.kept := by
  unfold sendNotices; split <;> simp only [sendNotice_kept]

/-- What an event leaves is not seen by `kept` beyond its notices. -/
theorem Live.kept_alarms (v : Live) (a : Alarms) : Live.kept { v with alarms := a } = v.kept := rfl

theorem alarmEvent_kept (t : Tables) (i : Nat) (c : Bool) (sev : Severity) (v : Live) :
    (alarmEvent t i c sev v).kept = v.kept := by
  unfold alarmEvent
  simp only [Live.kept_alarms]
  split
  · rw [sendNotices_kept]; rfl
  · rfl

theorem raisePoint_kept (t : Tables) (i : Nat) (v : Live) : (raisePoint t i v).kept = v.kept := by
  unfold raisePoint; simp only [alarmEvent_kept, mapPoint_kept]

theorem clearPoint_kept (t : Tables) (i : Nat) (v : Live) : (clearPoint t i v).kept = v.kept := by
  unfold clearPoint; split <;> simp only [alarmEvent_kept, mapPoint_kept]

theorem soakCheck_kept (t : Tables) (i : Nat) (v : Live) : (soakCheck t i v).kept = v.kept := by
  unfold soakCheck
  split
  · split
    · split <;> simp only [raisePoint_kept]
    · split <;> simp only [clearPoint_kept]
    · rfl
  · rfl

theorem handCondition_kept (t : Tables) (i : Nat) (b : Bool) (v : Live) : (handCondition t i b v).kept = v.kept := by
  unfold handCondition
  split
  · split
    · rfl
    · split <;> simp only [soakCheck_kept, mapPoint_kept]
  · rfl

theorem handConditions_kept (t : Tables) (bs : List Bool) : ∀ (i : Nat) (v : Live),
    (handConditions t i bs v).kept = v.kept := by
  induction bs with
  | nil => intro i v; rfl
  | cons b bs ih => intro i v; rw [handConditions, ih, handCondition_kept]

theorem refreshAlarms_kept (t : Tables) (v : Live) : (refreshAlarms t v).kept = v.kept := by
  unfold refreshAlarms; split
  · rfl
  · exact handConditions_kept _ _ _ _

/-! ## Access ports and the own class -/

theorem withdrawOnEntry_kept (c : AccessCfg) (i : Fin 4) (st : AccessState) (v : Live) :
    (withdrawOnEntry c i st v).kept = v.kept := by
  unfold withdrawOnEntry; split <;> (try split) <;> simp only [withdraw_kept]

theorem enterAccess_kept (c : AccessCfg) (i : Fin 4) (st : AccessState) (tm : Option Timer) (v : Live) :
    (enterAccess c i st tm v).kept = v.kept := by
  unfold enterAccess; rw [withdrawOnEntry_kept]; exact Live.mapAccess_kept _ _ _ (fun _ => rfl)

theorem judgeAccess_kept (t : Tables) (old new : QClass) (i : Fin 4) (v : Live) :
    (judgeAccess t old new i v).kept = v.kept := by
  unfold judgeAccess
  simp only
  split
  · rfl
  · split
    · exact enterAccess_kept _ _ _ _ _
    · rfl
  · split
    · exact Live.mapAccess_kept _ _ _ (fun _ => rfl)
    · split
      · exact Live.mapAccess_kept _ _ _ (fun _ => rfl)
      · split
        · exact Live.mapAccess_kept _ _ _ (fun _ => rfl)
        · rfl

theorem setClass_kept (t : Tables) (c : QClass) (v : Live) : (setClass t c v).kept = v.kept := by
  unfold setClass judgeAll; rw [refreshAlarms_kept]; simp only [judgeAccess_kept]; rfl

/-! ## The selection and the servo -/

theorem recomputeF_kept (v : Live) : (v.recomputeF).kept = v.kept := rfl

theorem enterAcquire_kept (t : Tables) (v : Live) : (enterAcquire t v).kept = v.kept := by
  unfold enterAcquire; simp only; split <;> rfl

theorem loseSelection_kept (t : Tables) (v : Live) : (loseSelection t v).kept = v.kept := by
  unfold loseSelection; simp only; split <;> rfl

theorem rearm_kept (v : Live) : (rearm v).kept = v.kept := by
  unfold rearm; split <;> rfl

theorem cancelManual_kept (v : Live) : (cancelManual v).kept = v.kept := by
  unfold cancelManual; split
  · split <;> rfl
  · rfl

theorem deselect_kept (c : Cand) (v : Live) : (deselect c v).kept = v.kept := by
  unfold deselect
  refine Live.mapCand_state_kept _ _ _ (fun r => ?_)
  by_cases h : r.state = .selected
  · exact ⟨.available, by simp [h]⟩
  · exact ⟨r.state, by simp [h]⟩

theorem leaveSelected_kept (o : Option Cand) (v : Live) : (leaveSelected o v).kept = v.kept := by
  cases o
  · rfl
  · exact deselect_kept _ _

theorem enterSelected_kept (n : Option Cand) (v : Live) : (enterSelected n v).kept = v.kept := by
  cases n
  · rfl
  · exact Live.mapCand_state_kept v _ (fun r => { r with state := .selected }) (fun r => ⟨.selected, rfl⟩)

theorem handSelection_kept (t : Tables) (o n : Option Cand) (v : Live) : (handSelection t o n v).kept = v.kept := by
  cases o <;> cases n
  · rfl
  · exact enterAcquire_kept _ _
  · exact loseSelection_kept _ _
  · exact rearm_kept _

theorem evaluate_kept (t : Tables) (v : Live) : (evaluate t v).kept = v.kept := by
  unfold evaluate
  simp only
  split
  · exact cancelManual_kept v
  · rw [handSelection_kept, enterSelected_kept, leaveSelected_kept, cancelManual_kept]

theorem settleSelection_kept (t : Tables) (n : Nat) : ∀ v : Live, (settleSelection t n v).kept = v.kept := by
  induction n with
  | zero => intro v; rfl
  | succ n ih =>
    intro v
    rw [settleSelection]
    split
    · rw [refreshAlarms_kept, evaluate_kept]
    · rw [ih, setClass_kept, evaluate_kept]

/-! ## The roll engine and the takeover -/

theorem mapEntryAt_kept (i : Nat) (f : MapEntry → MapEntry) (v : Live) : (mapEntryAt i f v).kept = v.kept := rfl

theorem fillOwnEntry_kept (t : Tables) (q : Seq16) (v : Live) : (fillOwnEntry t q v).kept = v.kept := rfl

theorem sendRoll_kept (t : Tables) (rev : Bool) (q : Seq16) (v : Live) : (sendRoll t rev q v).kept = v.kept := by
  unfold sendRoll; simp only; rw [hand_kept, fillOwnEntry_kept, refreshAlarms_kept]

theorem sendConfig_kept {t : Tables} {i : Nat} {v w : Live} (h : sendConfig t i v = some w) : w.kept = v.kept := by
  unfold sendConfig at h
  split at h
  · cases h
  · cases h; rw [hand_kept]; rfl

theorem sendConfigs_kept (t : Tables) (l : List Nat) : ∀ (n : Nat) (v : Live),
    (sendConfigs t n l v).2.kept = v.kept := by
  induction l with
  | nil => intro n v; cases n <;> rfl
  | cons i l ih =>
    intro n v
    cases n with
    | zero => rfl
    | succ n =>
      rw [sendConfigs]
      split
      · rw [ih]; exact sendConfig_kept (by assumption)
      · exact ih _ _

theorem configScan_kept (t : Tables) (v : Live) : (configScan t v).kept = v.kept := by
  unfold configScan
  split
  · rfl
  · simp only [sendConfigs_kept]

theorem endCycle_kept (t : Tables) (c : Cycle) (f : RollResult) (r : Option RollResult) (v : Live) :
    (endCycle t c f r v).kept = v.kept := by
  unfold endCycle; simp only; rw [configScan_kept]; rfl

theorem startReverse_kept (t : Tables) (c : Cycle) (f : RollResult) (v : Live) :
    (startReverse t c f v).kept = v.kept := by
  unfold startReverse; simp only; split
  · exact endCycle_kept _ _ _ _ _
  · rw [sendRoll_kept]; rfl

theorem rollOutcome_kept (t : Tables) (o : RollResult) (v : Live) : (rollOutcome t o v).kept = v.kept := by
  unfold rollOutcome; split
  · rfl
  · split
    · split
      · exact endCycle_kept _ _ _ _ _
      · exact startReverse_kept _ _ _ _
    · exact endCycle_kept _ _ _ _ _

theorem beginCycle_kept (t : Tables) (v : Live) : (beginCycle t v).kept = v.kept := by
  unfold beginCycle; simp only; split
  · rw [startReverse_kept]; rfl
  · rw [sendRoll_kept]; rfl

theorem becomeHead_kept (t : Tables) (v : Live) : (becomeHead t v).kept = v.kept := by
  unfold becomeHead; rw [beginCycle_kept]; rfl

theorem becomeActive_kept (t : Tables) (v : Live) : (becomeActive t v).kept = v.kept := by
  unfold becomeActive; rw [becomeHead_kept]; rfl

theorem takeoverCheck_kept (t : Tables) (v : Live) : (takeoverCheck t v).kept = v.kept := by
  unfold takeoverCheck; split
  · rw [becomeActive_kept]; rfl
  · rfl

theorem rollTimedOut_kept (t : Tables) (v : Live) : (rollTimedOut t v).kept = v.kept := by
  unfold rollTimedOut; rw [rollOutcome_kept]; rfl

theorem rollLost_kept (t : Tables) (q : Seq16) (rev : Bool) (v : Live) : (rollLost t q rev v).kept = v.kept := by
  unfold rollLost; split
  · split
    · exact rollTimedOut_kept _ _
    · rfl
  · rfl

/-! ## Spans -/

theorem loseInput_ring_kept (d : Side) (v : Live) : (loseInput d.cand v).kept = v.kept := by
  unfold loseInput; split
  · rfl
  · rfl
  · exact Live.mapCand_ring_kept _ _ _ (fun _ => rfl)

theorem setSpanState_kept (d : Side) (st : SpanState) (v : Live) : (setSpanState d st v).kept = v.kept := by
  unfold setSpanState
  simp only
  split
  · rw [loseInput_ring_kept]; exact Live.mapSpan_kept _ _ _ (fun _ => rfl)
  · exact Live.mapSpan_kept _ _ _ (fun _ => rfl)

theorem enterDown_kept (t : Tables) (d : Side) (v : Live) : (enterDown t d v).kept = v.kept := by
  unfold enterDown; split
  · rfl
  · rw [refreshAlarms_kept, setSpanState_kept]; exact Live.mapSpan_kept _ _ _ (fun _ => rfl)

theorem probeTimeout_kept (t : Tables) (d : Side) (v : Live) : (probeTimeout t d v).kept = v.kept := by
  unfold probeTimeout; simp only; split
  · rw [enterDown_kept]; exact Live.mapSpan_kept _ _ _ (fun _ => rfl)
  · exact Live.mapSpan_kept _ _ _ (fun _ => rfl)

/-! ## What follows from an event -/

theorem settle_kept (t : Tables) (v : Live) : (settle t v).kept = v.kept := by
  unfold settle; rw [refreshAlarms_kept, takeoverCheck_kept, settleSelection_kept]

theorem takeLoss_kept (t : Tables) (l : Loss) (v : Live) : (takeLoss t l v).kept = v.kept := by
  unfold takeLoss; split
  · exact probeTimeout_kept _ _ _
  · exact rollLost_kept _ _ _ _

theorem workLosses_kept (t : Tables) (n : Nat) : ∀ v : Live, (workLosses t n v).kept = v.kept := by
  induction n with
  | zero => intro v; rfl
  | succ n ih =>
    intro v
    rw [workLosses]
    split
    · rfl
    · rw [ih, settle_kept, takeLoss_kept]; rfl

/-- Everything that follows from an event within its step leaves `kept` as the event left it. -/
theorem finish_kept (t : Tables) (v : Live) : (finish t v).kept = v.kept := by
  unfold finish; rw [workLosses_kept, settle_kept]

/-! ## The fields of `kept`, one by one -/

theorem Live.part_of_kept {v w : Live} (h : v.kept = w.kept) : v.part = w.part := by
  have := congrArg (fun x : Live => x.part) h
  exact this

theorem Live.nodeKept_of_kept {v w : Live} (h : v.kept = w.kept) : v.nodeKept = w.nodeKept := by
  have := congrArg (fun x : Live => x.nodeKept) h
  exact this

theorem Live.osc_of_kept {v w : Live} (h : v.kept = w.kept) : v.osc = w.osc := by
  have := congrArg (fun x : Live => x.osc) h
  exact this

theorem Live.value_of_kept {v w : Live} (h : v.kept = w.kept) : v.ts.value = w.ts.value := by
  have := congrArg (fun x : Live => x.ts.value) h
  exact this

theorem Live.rem_of_kept {v w : Live} (h : v.kept = w.kept) : v.ts.rem = w.ts.rem := by
  have := congrArg (fun x : Live => x.ts.rem) h
  exact this

theorem Live.steps_of_kept {v w : Live} (h : v.kept = w.kept) : v.ts.steps = w.ts.steps := by
  have := congrArg (fun x : Live => x.ts.steps) h
  exact this

theorem Live.k_of_kept {v w : Live} (h : v.kept = w.kept) : v.ts.k = w.ts.k := by
  have := congrArg (fun x : Live => x.ts.k) h
  exact this

theorem Live.refIn_of_kept {v w : Live} (h : v.kept = w.kept) : v.refIn = w.refIn := by
  have := congrArg (fun x : Live => x.refIn) h
  exact this

theorem Live.thermal_of_kept {v w : Live} (h : v.kept = w.kept) : v.thermal = w.thermal := by
  have := congrArg (fun x : Live => x.thermal) h
  exact this

theorem Live.mgmt_of_kept {v w : Live} (h : v.kept = w.kept) : v.mgmt = w.mgmt := by
  have := congrArg (fun x : Live => x.mgmt) h
  exact this

theorem Live.storeFault_of_kept {v w : Live} (h : v.kept = w.kept) : v.storeFault = w.storeFault := by
  have := congrArg (fun x : Live => x.storeFault) h
  exact this

theorem Live.guard_of_kept {v w : Live} (h : v.kept = w.kept) : v.guard = w.guard := by
  have := congrArg (fun x : Live => x.guard) h
  exact this

theorem Live.history_of_kept {v w : Live} (h : v.kept = w.kept) : v.servo.history = w.servo.history := by
  have := congrArg (fun x : Live => x.servo.history) h
  exact this

theorem Live.lastTheta_of_kept {v w : Live} (h : v.kept = w.kept) : v.servo.lastTheta = w.servo.lastTheta := by
  have := congrArg (fun x : Live => x.servo.lastTheta) h
  exact this

theorem Live.phaseUnstable_of_kept {v w : Live} (h : v.kept = w.kept) : v.servo.phaseUnstable = w.servo.phaseUnstable := by
  have := congrArg (fun x : Live => x.servo.phaseUnstable) h
  exact this

theorem Live.j_of_kept {v w : Live} (h : v.kept = w.kept) : v.epoch.j = w.epoch.j := by
  have := congrArg (fun x : Live => x.epoch.j) h
  exact this

theorem Live.origSeq_of_kept {v w : Live} (h : v.kept = w.kept) : v.epoch.origSeq = w.epoch.origSeq := by
  have := congrArg (fun x : Live => x.epoch.origSeq) h
  exact this

theorem Live.heads_of_kept {v w : Live} (h : v.kept = w.kept) : v.roll.heads = w.roll.heads := by
  have := congrArg (fun x : Live => x.roll.heads) h
  exact this

theorem Live.rejectedGen_of_kept {v w : Live} (h : v.kept = w.kept) : v.roll.rejectedGen = w.roll.rejectedGen := by
  have := congrArg (fun x : Live => x.roll.rejectedGen) h
  exact this

@[simp] theorem finish_part (t : Tables) (v : Live) : (finish t v).part = v.part :=
  Live.part_of_kept (finish_kept t v)

@[simp] theorem finish_nodeKept (t : Tables) (v : Live) : (finish t v).nodeKept = v.nodeKept :=
  Live.nodeKept_of_kept (finish_kept t v)

@[simp] theorem finish_osc (t : Tables) (v : Live) : (finish t v).osc = v.osc :=
  Live.osc_of_kept (finish_kept t v)

@[simp] theorem finish_value (t : Tables) (v : Live) : (finish t v).ts.value = v.ts.value :=
  Live.value_of_kept (finish_kept t v)

@[simp] theorem finish_rem (t : Tables) (v : Live) : (finish t v).ts.rem = v.ts.rem :=
  Live.rem_of_kept (finish_kept t v)

@[simp] theorem finish_steps (t : Tables) (v : Live) : (finish t v).ts.steps = v.ts.steps :=
  Live.steps_of_kept (finish_kept t v)

@[simp] theorem finish_k (t : Tables) (v : Live) : (finish t v).ts.k = v.ts.k :=
  Live.k_of_kept (finish_kept t v)

@[simp] theorem finish_refIn (t : Tables) (v : Live) : (finish t v).refIn = v.refIn :=
  Live.refIn_of_kept (finish_kept t v)

@[simp] theorem finish_thermal (t : Tables) (v : Live) : (finish t v).thermal = v.thermal :=
  Live.thermal_of_kept (finish_kept t v)

@[simp] theorem finish_mgmt (t : Tables) (v : Live) : (finish t v).mgmt = v.mgmt :=
  Live.mgmt_of_kept (finish_kept t v)

@[simp] theorem finish_storeFault (t : Tables) (v : Live) : (finish t v).storeFault = v.storeFault :=
  Live.storeFault_of_kept (finish_kept t v)

@[simp] theorem finish_guard (t : Tables) (v : Live) : (finish t v).guard = v.guard :=
  Live.guard_of_kept (finish_kept t v)

@[simp] theorem finish_history (t : Tables) (v : Live) : (finish t v).servo.history = v.servo.history :=
  Live.history_of_kept (finish_kept t v)

@[simp] theorem finish_lastTheta (t : Tables) (v : Live) : (finish t v).servo.lastTheta = v.servo.lastTheta :=
  Live.lastTheta_of_kept (finish_kept t v)

@[simp] theorem finish_phaseUnstable (t : Tables) (v : Live) : (finish t v).servo.phaseUnstable = v.servo.phaseUnstable :=
  Live.phaseUnstable_of_kept (finish_kept t v)

@[simp] theorem finish_j (t : Tables) (v : Live) : (finish t v).epoch.j = v.epoch.j :=
  Live.j_of_kept (finish_kept t v)

@[simp] theorem finish_origSeq (t : Tables) (v : Live) : (finish t v).epoch.origSeq = v.epoch.origSeq :=
  Live.origSeq_of_kept (finish_kept t v)

@[simp] theorem finish_heads (t : Tables) (v : Live) : (finish t v).roll.heads = v.roll.heads :=
  Live.heads_of_kept (finish_kept t v)

@[simp] theorem finish_rejectedGen (t : Tables) (v : Live) : (finish t v).roll.rejectedGen = v.roll.rejectedGen :=
  Live.rejectedGen_of_kept (finish_kept t v)

end Sys2Proof.Machine
end

