-- ==== Sys2Proof/Laws/Events.lean ====
section
/-! SUPPORT. How a command comes down to a change of the blocks and what follows from it: one lemma for each shape of
command. -/

namespace Sys2Proof.Machine

/-! ## Timed events and pins -/

theorem State.elapse_eq (n : Nat) (s : State) : s.elapse n = { s with live := s.live.elapse n } := rfl

@[simp] theorem State.settled_elapse (n : Nat) (s : State) (v : Live) : (s.elapse n).settled v = s.settled v := rfl

theorem State.act_eq (f : Tables → Live → Live) (s : State) : s.act f = s.settled (f s.tables s.live) := rfl

/-- A timed event that is due at the command's instant. -/
theorem State.timed_at {n : Nat} {s : State} {v : Live} (hv : v = s.live.elapse n) {due : Tables → Live → Bool}
    (f : Tables → Live → Live) (h : due s.tables v = true) :
    (s.elapse n).timed due f = s.settled (f s.tables v) := by
  subst hv; exact if_pos h

/-- An event that a pin brings at the command's instant. -/
theorem State.act_at {n : Nat} {s : State} {v : Live} (hv : v = s.live.elapse n) (f : Tables → Live → Live) :
    (s.elapse n).act f = s.settled (f s.tables v) := by
  subst hv; rfl

/-- What stands after an event where what follows from it has followed. -/
theorem State.settled_congr (s : State) {v w : Live} (h : v = w) : s.settled v = s.settled w := by rw [h]

/-! ## Spans -/

theorem Live.spanIs_iff (v : Live) (d : Side) (st : SpanState) : v.spanIs d st = true ↔ (v.span d).state = st := by
  simp [Live.spanIs, Live.span]

theorem Live.spanIs_false (v : Live) (d : Side) (st : SpanState) : v.spanIs d st = false ↔ (v.span d).state ≠ st := by
  simp [Live.spanIs, Live.span]

/-! ## Arrivals -/

/-- Nothing arrives over a link that is down. -/
theorem State.receive_down {s : State} {p : Port} (a : Arrival) (f : RawFrame) (h : (s.live.port p).link = false) :
    s.receive p a f = s := if_pos h

/-- The first byte of a frame gives the port its receive instant (R82). -/
theorem State.receive_begins {n : Nat} {s : State} {p : Port} (f : RawFrame) (h : (s.live.port p).link = true) :
    (s.elapse n).receive p .begins f =
      { s with live := (s.live.elapse n).mapPort p (fun x => { x with arriving := some (s.live.elapse n).now }) } := by
  have h' : ¬ ((s.elapse n).live.port p).link = false := by
    show ¬ (s.live.port p).link = false
    rw [h]; decide
  unfold State.receive
  rw [if_neg h']
  rfl

/-- The end of an arrival of which no first byte was seen brings nothing. -/
theorem State.receive_unbegun {n : Nat} {s : State} {p : Port} (f : RawFrame) (h : (s.live.port p).arriving = none) :
    (s.elapse n).receive p .ends f = s.elapse n := by
  have h' : ((s.elapse n).live.port p).arriving = none := h
  unfold State.receive
  split
  · rfl
  · rw [h']

/-- The end of an arrival takes the frame with its receive instant. -/
theorem State.receive_ends {n : Nat} {s : State} {p : Port} {rx : Stamp} (f : RawFrame)
    (h : s.receiving p rx = true) :
    (s.elapse n).receive p .ends f = State.takeFrame p rx f { s with live := s.arrived n p } := by
  simp only [State.receiving, Bool.and_eq_true, decide_eq_true_eq] at h
  have hl : ¬ ((s.elapse n).live.port p).link = false := by
    show ¬ (s.live.port p).link = false
    rw [h.1]; decide
  have ha : ((s.elapse n).live.port p).arriving = some rx := h.2
  unfold State.receive
  rw [if_neg hl, ha]
  rfl

/-- The verdict on a frame reads neither the passing of time nor the ports. -/
theorem verdict_arrived (n : Nat) (p q : Port) (s : State) (f : RawFrame) :
    verdict s.tables (s.arrived n p) q f = verdict s.tables s.live q f := rfl

/-- A claimed frame goes to its owner. -/
theorem State.receive_claimed {n : Nat} {s : State} {v : Live} {p : Port} (hv : v = s.arrived n p) {rx : Stamp}
    {f : RawFrame} {q : Frame} (h : claimedAs s p rx f q = true) :
    (s.elapse n).receive p .ends f = State.claim p rx q { s with live := v } := by
  subst hv
  simp only [claimedAs, Bool.and_eq_true, decide_eq_true_eq] at h
  rw [State.receive_ends f h.1]
  unfold State.takeFrame
  simp only [verdict_arrived, h.2]

/-- A frame that passes through joins the other port's buffer. -/
theorem State.receive_through {n : Nat} {s : State} {v : Live} {p : Port} (hv : v = s.arrived n p) {rx : Stamp}
    {f : RawFrame} (hl : s.receiving p rx = true) (h : verdict s.tables s.live p f = .through) :
    (s.elapse n).receive p .ends f = s.settled (passThrough p f v) := by
  subst hv
  rw [State.receive_ends f hl]
  unfold State.takeFrame
  simp only [verdict_arrived, h]
  rfl

/-- A discarded frame is counted where the rules say. -/
theorem State.receive_discarded {n : Nat} {s : State} {v : Live} {p : Port} (hv : v = s.arrived n p) {rx : Stamp}
    {f : RawFrame} {d : Verdict} (hl : s.receiving p rx = true) (h : verdict s.tables s.live p f = d)
    (h1 : d ≠ .through) (h2 : ∀ q, d ≠ .claimed q) :
    (s.elapse n).receive p .ends f = s.settled (discardFrame s.tables p d v) := by
  subst hv
  rw [State.receive_ends f hl]
  unfold State.takeFrame
  simp only [verdict_arrived, h]
  cases d with
  | through => exact absurd rfl h1
  | claimed q => exact absurd rfl (h2 q)
  | _ => rfl

/-! ## Requests -/

/-- A request that is heard is counted, carried out and answered. -/
theorem serve_heard {n : Nat} {s : State} {env : ReqEnv} (h : heardRequest env s = true) (note : Note)
    (f : State → Reply) :
    serve env note f (s.elapse n) =
      (f (s.elapse n).counted).state.answer env (f (s.elapse n).counted).status (f (s.elapse n).counted).entries
        (if (f (s.elapse n).counted).status = .done then note else .plain) := by
  simp only [heardRequest, Bool.and_eq_true, decide_eq_true_eq] at h
  obtain ⟨h1, h2⟩ := h
  unfold serve
  have h1' : (s.elapse n).live.part = .running := h1
  rcases env with ⟨via, tag, relay⟩
  cases via with
  | line d =>
    cases relay with
    | none => simp at h2
    | some r => simp only [h1']
  | site d => simp only [h1']

/-- A request refused while it is heard. -/
theorem serve_refused {n : Nat} {s : State} {env : ReqEnv} (h : heardRequest env s = true) (note : Note)
    {f : State → Reply} {st : Status} (hf : f (s.elapse n).counted = refuse st (s.elapse n).counted)
    (hst : st ≠ .done) :
    serve env note f (s.elapse n) = (s.elapse n).counted.answer env st [] .plain := by
  rw [serve_heard h, hf]
  simp [refuse, hst]

/-- A request carried out while it is heard. -/
theorem serve_done {n : Nat} {s : State} {env : ReqEnv} (h : heardRequest env s = true) (note : Note)
    {f : State → Reply} {s' : State} (hf : f (s.elapse n).counted = carryOut s') :
    serve env note f (s.elapse n) = s'.answer env .done [] note := by
  rw [serve_heard h, hf]
  simp [carryOut]

/-- The ring write guard stops nothing where it is clear, nor at a site port. -/
theorem guarded_clear {env : ReqEnv} {s : State} (h : s.tables.node.ringGuard = false ∨ ∃ d, env.via = .site d) :
    guarded env s = false := by
  rcases h with h | ⟨d, h⟩ <;> simp [guarded, h]

/-- The ring write guard stops what came over a line port where it is set. -/
theorem guarded_set {env : ReqEnv} {s : State} (h : s.tables.node.ringGuard = true) (hd : ∃ d, env.via = .line d) :
    guarded env s = true := by
  obtain ⟨d, hd⟩ := hd
  simp [guarded, h, hd]

@[simp] theorem guarded_elapse (env : ReqEnv) (n : Nat) (s : State) : guarded env (s.elapse n) = guarded env s := rfl
@[simp] theorem guarded_counted (env : ReqEnv) (s : State) : guarded env s.counted = guarded env s := rfl

end Sys2Proof.Machine
end

