-- ==== Sys2Proof/Laws/Egress.lean ====
section
/-! SUPPORT. What the hand-over of a frame to a port can change: the ports, a span's outstanding probe, the instants of
the roll cycle, and the work lists. -/

namespace Sys2Proof.Machine

/-- The second state is the first but for the ports, the spans, the roll cycle and the two work lists. -/
structure Live.EgressOf (v w : Live) : Prop where
  part : w.part = v.part
  nodeKept : w.nodeKept = v.nodeKept
  osc : w.osc = v.osc
  ts : w.ts = v.ts
  servo : w.servo = v.servo
  cands : w.cands = v.cands
  refIn : w.refIn = v.refIn
  manual : w.manual = v.manual
  selection : w.selection = v.selection
  thermal : w.thermal = v.thermal
  hold : w.hold = v.hold
  ownClass : w.ownClass = v.ownClass
  epoch : w.epoch = v.epoch
  roll : w.roll = { v.roll with cycle := w.roll.cycle }
  access : w.access = v.access
  alarms : w.alarms = v.alarms
  mgmt : w.mgmt = v.mgmt
  storeFault : w.storeFault = v.storeFault
  guard : w.guard = v.guard

namespace Live.EgressOf

theorem refl (v : Live) : v.EgressOf v :=
  ⟨rfl, rfl, rfl, rfl, rfl, rfl, rfl, rfl, rfl, rfl, rfl, rfl, rfl, rfl, rfl, rfl, rfl, rfl, rfl⟩

theorem trans {u v w : Live} (h : u.EgressOf v) (k : v.EgressOf w) : u.EgressOf w where
  part := k.part.trans h.part
  nodeKept := k.nodeKept.trans h.nodeKept
  osc := k.osc.trans h.osc
  ts := k.ts.trans h.ts
  servo := k.servo.trans h.servo
  cands := k.cands.trans h.cands
  refIn := k.refIn.trans h.refIn
  manual := k.manual.trans h.manual
  selection := k.selection.trans h.selection
  thermal := k.thermal.trans h.thermal
  hold := k.hold.trans h.hold
  ownClass := k.ownClass.trans h.ownClass
  epoch := k.epoch.trans h.epoch
  roll := by rw [k.roll, h.roll]
  access := k.access.trans h.access
  alarms := k.alarms.trans h.alarms
  mgmt := k.mgmt.trans h.mgmt
  storeFault := k.storeFault.trans h.storeFault
  guard := k.guard.trans h.guard

theorem mapPort (v : Live) (p : Port) (f : PortIO → PortIO) : v.EgressOf (v.mapPort p f) :=
  ⟨rfl, rfl, rfl, rfl, rfl, rfl, rfl, rfl, rfl, rfl, rfl, rfl, rfl, rfl, rfl, rfl, rfl, rfl, rfl⟩

theorem mapSpan (v : Live) (d : Side) (f : Span → Span) : v.EgressOf (v.mapSpan d f) :=
  ⟨rfl, rfl, rfl, rfl, rfl, rfl, rfl, rfl, rfl, rfl, rfl, rfl, rfl, rfl, rfl, rfl, rfl, rfl, rfl⟩

theorem cycle (v : Live) (c : Option Cycle) : v.EgressOf { v with roll := { v.roll with cycle := c } } :=
  ⟨rfl, rfl, rfl, rfl, rfl, rfl, rfl, rfl, rfl, rfl, rfl, rfl, rfl, rfl, rfl, rfl, rfl, rfl, rfl⟩

theorem losses (v : Live) (l : List Loss) : v.EgressOf { v with losses := l } :=
  ⟨rfl, rfl, rfl, rfl, rfl, rfl, rfl, rfl, rfl, rfl, rfl, rfl, rfl, rfl, rfl, rfl, rfl, rfl, rfl⟩

theorem restart (v : Live) (b : Bool) : v.EgressOf { v with restartDue := b } :=
  ⟨rfl, rfl, rfl, rfl, rfl, rfl, rfl, rfl, rfl, rfl, rfl, rfl, rfl, rfl, rfl, rfl, rfl, rfl, rfl⟩

end Live.EgressOf

/-! ## The transmitters -/

theorem probeSent_egress (p : Port) (b : Body) (v : Live) : v.EgressOf (probeSent p b v) := by
  unfold probeSent
  cases p with
  | line d => cases b <;> first | exact .refl v | exact .mapSpan v d _
  | site d => exact .refl v
  | access i => exact .refl v

theorem rollSent_egress (seq : Seq16) (rev : Bool) (v : Live) : v.EgressOf (rollSent seq rev v) := by
  unfold rollSent
  cases v.roll.cycle with
  | none => exact .refl v
  | some c =>
    dsimp only
    split
    · exact .cycle v _
    · exact .refl v

theorem onTransmit_egress (p : Port) (q : QFrame) (v : Live) : v.EgressOf (onTransmit p q v) := by
  unfold onTransmit
  cases q.note <;> first | exact probeSent_egress p _ v | exact rollSent_egress _ _ v | exact .refl v

theorem grant_egress (p : Port) (v : Live) : v.EgressOf (grant p v) := by
  unfold grant
  dsimp only
  split
  · exact .refl v
  · split
    · exact .trans (.mapPort v p _) (onTransmit_egress p _ _)
    · split
      · exact .mapPort v p _
      · exact .refl v

theorem noteLost_egress (r : Bool) (p : Port) (q : QFrame) (v : Live) : v.EgressOf (noteLost r p q v) := by
  unfold noteLost
  cases q.note <;> dsimp only <;>
    first | exact .refl v | exact .losses v _ | exact .restart v _ | (split; exact .losses v _; exact .refl v)

theorem insertDrop_egress (p : Port) (v : Live) : v.EgressOf (insertDrop p v) := .mapPort v p _

/-- The hand-over of a frame changes nothing but the ports, the spans, the roll cycle and the work lists. -/
theorem hand_egress (p : Port) (q : QFrame) (v : Live) : v.EgressOf (hand p q v) := by
  unfold hand
  dsimp only
  split
  · exact .trans (insertDrop_egress p v) (noteLost_egress _ _ _ _)
  · split
    · exact .trans (.mapPort v p _) (grant_egress p _)
    · cases p with
      | access i => exact .trans (insertDrop_egress _ v) (noteLost_egress _ _ _ _)
      | line d =>
        dsimp only
        split
        · exact .trans (insertDrop_egress _ v) (noteLost_egress _ _ _ _)
        · split
          · exact .trans (.trans (.trans (.mapPort v _ _) (insertDrop_egress _ _)) (noteLost_egress _ _ _ _))
              (grant_egress _ _)
          · exact .refl v
      | site d =>
        dsimp only
        split
        · exact .trans (insertDrop_egress _ v) (noteLost_egress _ _ _ _)
        · split
          · exact .trans (.trans (.trans (.mapPort v _ _) (insertDrop_egress _ _)) (noteLost_egress _ _ _ _))
              (grant_egress _ _)
          · exact .refl v

@[simp] theorem hand_part (p : Port) (q : QFrame) (v : Live) : (hand p q v).part = v.part := (hand_egress p q v).part
@[simp] theorem hand_osc (p : Port) (q : QFrame) (v : Live) : (hand p q v).osc = v.osc := (hand_egress p q v).osc
@[simp] theorem hand_ts (p : Port) (q : QFrame) (v : Live) : (hand p q v).ts = v.ts := (hand_egress p q v).ts
@[simp] theorem hand_servo (p : Port) (q : QFrame) (v : Live) : (hand p q v).servo = v.servo := (hand_egress p q v).servo
@[simp] theorem hand_cands (p : Port) (q : QFrame) (v : Live) : (hand p q v).cands = v.cands := (hand_egress p q v).cands
@[simp] theorem hand_thermal (p : Port) (q : QFrame) (v : Live) : (hand p q v).thermal = v.thermal :=
  (hand_egress p q v).thermal
@[simp] theorem hand_selection (p : Port) (q : QFrame) (v : Live) : (hand p q v).selection = v.selection :=
  (hand_egress p q v).selection
@[simp] theorem hand_hold (p : Port) (q : QFrame) (v : Live) : (hand p q v).hold = v.hold := (hand_egress p q v).hold
@[simp] theorem hand_ownClass (p : Port) (q : QFrame) (v : Live) : (hand p q v).ownClass = v.ownClass :=
  (hand_egress p q v).ownClass
@[simp] theorem hand_epoch (p : Port) (q : QFrame) (v : Live) : (hand p q v).epoch = v.epoch := (hand_egress p q v).epoch
@[simp] theorem hand_access (p : Port) (q : QFrame) (v : Live) : (hand p q v).access = v.access :=
  (hand_egress p q v).access
@[simp] theorem hand_alarms (p : Port) (q : QFrame) (v : Live) : (hand p q v).alarms = v.alarms :=
  (hand_egress p q v).alarms
@[simp] theorem hand_mgmt (p : Port) (q : QFrame) (v : Live) : (hand p q v).mgmt = v.mgmt := (hand_egress p q v).mgmt
@[simp] theorem hand_now (p : Port) (q : QFrame) (v : Live) : (hand p q v).now = v.now := by simp [Live.now]
@[simp] theorem hand_map (p : Port) (q : QFrame) (v : Live) : (hand p q v).roll.map = v.roll.map := by
  rw [(hand_egress p q v).roll]
@[simp] theorem hand_heads (p : Port) (q : QFrame) (v : Live) : (hand p q v).roll.heads = v.roll.heads := by
  rw [(hand_egress p q v).roll]
@[simp] theorem hand_status (p : Port) (q : QFrame) (v : Live) : (hand p q v).roll.status = v.roll.status := by
  rw [(hand_egress p q v).roll]

end Sys2Proof.Machine
end

