-- ==== Sys2Proof/Laws/Values.lean ====
section
/-! SUPPORT. What the shared operations on values and lists do: clamps and shifts, time values, bytes, list entries,
the relay handles, the entries a READ serves, the record of an alarm event, and the WRITE commands as one. -/

namespace Sys2Proof.Machine

/-! ## Integers -/

/-- To clamp to ±`l` is the minimum with `l` and the maximum with −`l`. -/
theorem clampSym_eq (l : Nat) (x : Int) : clampSym l x = max (-(l : Int)) (min l x) := by
  simp only [clampSym, clampInt]
  rcases lt_or_ge x (-(l : Int)) with h | h
  · rw [if_pos h]; omega
  · rw [if_neg (by omega)]
    rcases lt_or_ge (l : Int) x with h' | h'
    · rw [if_pos h']; omega
    · rw [if_neg (by omega)]; omega

/-- A right shift of the magnitude is the division by a power of two that rounds toward zero. -/
theorem shiftZero_eq (x : Int) (k : Nat) : shiftZero x k = Int.tdiv x (2 ^ k) := by
  simp only [shiftZero, Nat.shiftRight_eq_div_pow]
  rcases Int.le_total 0 x with h | h
  · rw [if_pos h]
    obtain ⟨n, rfl⟩ := Int.eq_ofNat_of_zero_le h
    rw [Int.tdiv_eq_ediv_of_nonneg h]; simp
  · by_cases h0 : x = 0
    · subst h0; simp
    · rw [if_neg (by omega)]
      obtain ⟨n, rfl⟩ : ∃ n : Nat, x = -(n : Int) := ⟨x.natAbs, by omega⟩
      rw [Int.neg_tdiv, Int.tdiv_eq_ediv_of_nonneg (by omega)]; simp

/-! ## Time values -/

/-- A time value made of a count of picoseconds stands at that count, modulo 2^40 seconds. -/
theorem TimeValue.toPs_ofPs (n : Nat) : (TimeValue.ofPs n).toPs = n % wrapPs := by
  simp only [TimeValue.ofPs, TimeValue.toPs, wrapPs]
  generalize n % (1099511627776 * 1000000000000) = m
  omega

/-- A time value made of a count of picoseconds lies within its ranges. -/
theorem TimeValue.ofPs_wf (n : Nat) : (TimeValue.ofPs n).wf = true := by
  have h : n % wrapPs < 1099511627776 * 1000000000000 := Nat.mod_lt n (by decide)
  rw [TimeValue.ofPs, TimeValue.wf]
  simp; omega

/-! ## Lists -/

/-- The bytes of a number are as many as asked for. -/
@[simp] theorem beBytes_length : ∀ k m : Nat, (beBytes k m).length = k
  | 0, _ => rfl
  | k + 1, m => by simp [beBytes, beBytes_length k]

/-- An item changed in its place is the changed item. -/
theorem modifyAt_get {α : Type} (f : α → α) :
    ∀ (l : List α) (i : Nat) (x : α), l[i]? = some x → (modifyAt i f l)[i]? = some (f x)
  | [], _, _, h => by simp at h
  | a :: l, 0, x, h => by simp at h; simp [modifyAt, h]
  | a :: l, i + 1, x, h => by simp at h; simp [modifyAt, modifyAt_get f l i x h]

/-- Two changes of one item that agree on it give one list. -/
theorem modifyAt_congr {α : Type} (f g : α → α) :
    ∀ (l : List α) (i : Nat) (x : α), l[i]? = some x → f x = g x → modifyAt i f l = modifyAt i g l
  | [], _, _, h, _ => by simp at h
  | a :: l, 0, x, h, e => by simp at h; subst h; simp [modifyAt, e]
  | a :: l, i + 1, x, h, e => by simp at h; simp [modifyAt, modifyAt_congr f g l i x h e]

/-- The free handle is the lowest that is not in use (R185). -/
theorem freeHandle_lowest : ∀ (l : List RelaySlot) (i k : Nat) (r : RelaySlot), l[k]? = some r → r.entry = none →
    (∀ j, j < k → ∃ q, l[j]? = some q ∧ q.entry ≠ none) → freeHandle i l = some (i + k)
  | [], _, _, _, h, _, _ => by simp at h
  | a :: l, i, 0, r, h, he, _ => by simp at h; subst h; simp [freeHandle, he]
  | a :: l, i, k + 1, r, h, he, hj => by
    simp at h
    obtain ⟨q, hq, hqe⟩ := hj 0 (by omega)
    simp at hq; subst hq
    have : a.entry.isNone = false := by cases ha : a.entry <;> simp_all
    simp only [freeHandle, this]
    rw [if_neg (by simp), freeHandle_lowest l (i + 1) k r h he]
    · congr 1; omega
    · intro j hlt
      obtain ⟨q, hq, hqe⟩ := hj (j + 1) (by omega)
      exact ⟨q, by simpa using hq, hqe⟩

/-- What the entries of a READ are: at most as many as asked for and as there are, within the room, each item under its
index; and where fewer are served than asked for and more stand, the next would not have fitted (R182). -/
theorem takeEntries_spec : ∀ (n room i : Nat) (l : List (List Byte)),
    (takeEntries n room i l).length ≤ n ∧ (takeEntries n room i l).length ≤ l.length ∧
    (encodeEntries (takeEntries n room i l)).length ≤ room ∧
    (∀ k, k < (takeEntries n room i l).length →
      ∃ y, l[k]? = some y ∧ (takeEntries n room i l)[k]? = some { index := i + k, value := y }) ∧
    (∀ y, (takeEntries n room i l).length < n → l[(takeEntries n room i l).length]? = some y →
      room < (encodeEntries (takeEntries n room i l)).length + (4 + y.length)) := by
  intro n
  induction n with
  | zero => intro room i l; simp [takeEntries, encodeEntries]
  | succ n ih =>
    intro room i l
    cases l with
    | nil => simp [takeEntries, encodeEntries]
    | cons x xs =>
      by_cases h : 4 + x.length ≤ room
      · obtain ⟨_, _, _, a4, a5⟩ := ih (room - (4 + x.length)) (i + 1) xs
        simp only [takeEntries, if_pos h]
        refine ⟨by simp; omega, by simp; omega, ?_, ?_, ?_⟩
        · simp only [encodeEntries, encodeEntry, List.length_append, beBytes_length]; omega
        · intro k hk
          cases k with
          | zero => exact ⟨x, by simp, by simp⟩
          | succ k =>
            simp at hk
            obtain ⟨y, hy1, hy2⟩ := a4 k hk
            exact ⟨y, by simpa using hy1, by simp [hy2]; omega⟩
        · intro y hy1 hy2
          simp at hy1 hy2
          have := a5 y hy1 hy2
          simp only [encodeEntries, encodeEntry, List.length_append, beBytes_length]; omega
      · simp only [takeEntries, if_neg h]
        refine ⟨by simp, by simp, by simp [encodeEntries], by simp, ?_⟩
        intro y _ hy2
        simp at hy2; subst hy2; simp [encodeEntries]; omega

/-! ## Alarm events and WRITE commands -/

/-- A notice leaves the points, the history, the time scale and the servo. -/
theorem sendNotices_keeps (t : Tables) (r : AlarmRecord) (v : Live) :
    (sendNotices t r v).alarms.points = v.alarms.points ∧ (sendNotices t r v).alarms.history = v.alarms.history ∧
      (sendNotices t r v).ts = v.ts ∧ (sendNotices t r v).servo = v.servo := by
  unfold sendNotices
  split <;> simp [sendNotice]

/-- An alarm event appends its record, derives the summary, and leaves the points, the time scale and the servo
(R171, R174). -/
theorem alarmEvent_spec (t : Tables) (i : Nat) (cl : Bool) (sev : Severity) (v : Live) :
    (alarmEvent t i cl sev v).alarms.points = v.alarms.points ∧
    (alarmEvent t i cl sev v).alarms.history =
      (if v.alarms.history.length < 64 then v.alarms.history else v.alarms.history.drop 1) ++
        [{ kind := (pointKind i).1, inst := (pointKind i).2, cleared := cl, severity := sev,
           time := v.ts.value.sec }] ∧
    (alarmEvent t i cl sev v).alarms.summary = severitySummary (alarmEvent t i cl sev v).alarms.points ∧
    (alarmEvent t i cl sev v).ts = v.ts ∧ (alarmEvent t i cl sev v).servo = v.servo ∧
    ((pointCfg t i).report = false → (alarmEvent t i cl sev v).io = v.io) := by
  unfold alarmEvent
  simp only
  cases hr : (pointCfg t i).report
  · simp [appendCapped]; split <;> rfl
  · simp only [sendNotices_keeps, if_true, appendCapped]
    simp; split <;> rfl

/-- The eight WRITE commands are one request under eight table ids. -/
theorem exec_writeCommand (m : TableName) : ∃ k, tableOfId k = some m ∧ ∀ n env w s,
    exec (writeCommand m n env w) s = .next (serve env .plain (performWrite env k w) (s.elapse n)) := by
  cases m
  · exact ⟨1, rfl, fun _ _ _ _ => rfl⟩
  · exact ⟨2, rfl, fun _ _ _ _ => rfl⟩
  · exact ⟨3, rfl, fun _ _ _ _ => rfl⟩
  · exact ⟨4, rfl, fun _ _ _ _ => rfl⟩
  · exact ⟨5, rfl, fun _ _ _ _ => rfl⟩
  · exact ⟨6, rfl, fun _ _ _ _ => rfl⟩
  · exact ⟨7, rfl, fun _ _ _ _ => rfl⟩
  · exact ⟨8, rfl, fun _ _ _ _ => rfl⟩

end Sys2Proof.Machine
end

