-- ==== Sys2Proof/Tests/Slice0.lean ====
section
/-! SUPPORT. The model's own tests: ill-formed commands, the spec's worked cases with the figures the spec gives them,
and for every statement with hypotheses a concrete state and operands that meet them. -/

namespace Sys2Proof.Tests

open Sys2Proof Sys2Proof.Machine

/-! ## Ill-formed commands are refused -/

def request : ReqEnv := { via := .site .east, tag := 7, relay := none }

def rawFrame : RawFrame := { dst := 0, src := 0, ftype := 0x88B5#16, payload := [], fcsOk := true }

theorem test_wf_seconds : TimeValue.wf { sec := 1099511627776, ns := 0, ps := 0 } = false := by decide

theorem test_wf_nanoseconds : TimeValue.wf { sec := 0, ns := 1000000000, ps := 0 } = false := by decide

theorem test_wf_picoseconds : TimeValue.wf { sec := 0, ns := 0, ps := 1000 } = false := by decide

theorem test_wf_greatest_time :
    TimeValue.wf { sec := 1099511627775, ns := 999999999, ps := 999 } = true := by decide

theorem test_wf_announcement :
    (Instr.reftAnnouncement 0 { sec := 1099511627776, valid := true, code := 0 }).wf = false := by decide

theorem test_wf_entry_index : Entry.wf { index := 65536, value := [] } = false := by decide

theorem test_wf_entry_length : Entry.wf { index := 0, value := List.replicate 65536 0 } = false := by
  rw [Entry.wf, List.length_replicate]; decide

theorem test_wf_write_first : WriteArgs.wf { first := 65536, count := 0, entries := [] } = false := by decide

theorem test_wf_write_count : WriteArgs.wf { first := 0, count := 65536, entries := [] } = false := by decide

theorem test_wf_write_entries :
    (Instr.writeNode 0 request { first := 0, count := 1, entries := [{ index := 65536, value := [] }] }).wf = false := by
  decide

theorem test_wf_relay_handle : RelayFields.wf { handle := 256, rseq := 0, requester := 0, port := .east } = false := by
  decide

theorem test_wf_relay_requester :
    (Instr.clearHistory 0 { request with relay := some { handle := 0, rseq := 0, requester := 32, port := .east } }).wf =
      false := by
  decide

theorem test_wf_origin : (Instr.originEntryExpiry 0 .east 32).wf = false := by decide

theorem test_wf_head : (Instr.headEntryExpiry 0 32).wf = false := by decide

theorem test_wf_point : (Instr.soakEnd 0 21).wf = false := by decide

theorem test_wf_handle : (Instr.relayTimeout 0 8).wf = false := by decide

theorem test_wf_read_table : (Instr.read 0 request 256 0 1).wf = false := by decide

theorem test_wf_read_first : (Instr.read 0 request 1 65536 1).wf = false := by decide

theorem test_wf_read_count : (Instr.read 0 request 1 0 65536).wf = false := by decide

theorem test_wf_lock_table : (Instr.lockTable 0 request 65536 []).wf = false := by decide

theorem test_wf_lock_entries : (Instr.lockTable 0 request 1 [{ index := 65536, value := [] }]).wf = false := by decide

theorem test_wf_unlock_table : (Instr.unlockTable 0 request 65536).wf = false := by decide

theorem test_wf_candidate : (Instr.select 0 request 65536).wf = false := by decide

theorem test_wf_bounds_admitted :
    (Instr.soakEnd 0 20).wf = true ∧ (Instr.relayTimeout 0 7).wf = true ∧ (Instr.headEntryExpiry 0 31).wf = true ∧
      (Instr.select 0 request 65535).wf = true := by
  decide

/-! ## No word spells a command -/

theorem test_no_word_spells_a_command : decodeTableWord 32 0xFFFFFFFF = none := rfl

theorem test_with_fetch_word : State.reset.withFetchWord 32 5 = State.reset := rfl

/-! ## The spec's worked cases -/

/-- The tables a unit of the given NODE and RING tables has otherwise from the built-in profile. -/
def profile : Tables := Config.builtIn 0x0000000000AA#48

/-- The part in RUNNING, with the blocks changed as given. -/
def running (f : Live → Live) : Live := f { State.reset.live with part := .running }

/-- A state of the part with the given tables and blocks. -/
def stateOf (t : Tables) (v : Live) : State := { State.reset with tables := t, live := v }

/-- The blocks with a port that has been receiving a frame since the given instant (R82). -/
def receivingAt (p : Port) (rx : Stamp) (v : Live) : Live := v.mapPort p (fun x => { x with arriving := some rx })

/-- Whether a frame that a port has been receiving since the given instant is claimed there as the given frame. -/
def claimsAt (t : Tables) (v : Live) (p : Port) (rx : Stamp) (f : RawFrame) (q : Frame) : Bool :=
  claimedAs (stateOf t (receivingAt p rx v)) p rx f q

/-- A servo LOCKED with the runs and the window of section 1.10's first case. -/
def lockedServo : Servo :=
  { Reset.servo with
    state := .locked, integ := -3000000, lastTheta := 230, queue :=
      [⟨250, true⟩, ⟨232, true⟩, ⟨241, true⟩, ⟨900, false⟩, ⟨236, true⟩, ⟨244, true⟩, ⟨239, true⟩, ⟨241, true⟩] }

/-- The blocks of that case: LOCKED on RING-FWD, F_temp −2,790 ppt. -/
def lockedLive : Live :=
  running (fun v => { v with
    servo := lockedServo, selection := some .fwd, thermal := { Reset.thermal with fTemp := -2790 } })

/-- Section 1.10, first case: I −3,015,000, F_servo −3,135,000, F_total −3,137,790 ppt, last θ_f 240, one history
entry. -/
theorem test_update_of_section_1_10 :
    let w := servoUpdate profile lockedLive
    w.servo.integ = -3015000 ∧ w.servo.fServo = -3135000 ∧ w.ts.fTotal = -3137790 ∧ w.servo.lastTheta = 240 ∧
      w.servo.history = [-3015000] ∧ w.servo.queue = [] ∧ w.servo.state = .locked := by
  decide

/-- Section 1.10, the first case's gate: 900 ns is gated and counted, 250 ns is not. -/
theorem test_gate_of_section_1_10 :
    let v := { lockedLive with servo := { lockedServo with queue := [] } }
    (servoSample profile 900 v).servo.queue = [⟨900, false⟩] ∧ (servoSample profile 900 v).servo.gated = 1 ∧
      (servoSample profile 250 v).servo.queue = [⟨250, true⟩] ∧ (servoSample profile 250 v).servo.gated = 0 := by
  decide

/-- Section 1.10, rounding toward zero: θ_f −13 ns on REF gives I 200,101 and F_servo 200,913. -/
theorem test_rounding_of_section_1_10 :
    let v := running (fun v => { v with
      selection := some .ref
      servo := { Reset.servo with state := .locked, integ := 200000, queue := List.replicate 8 ⟨-13, true⟩ } })
    (servoUpdate profile v).servo.integ = 200101 ∧ (servoUpdate profile v).servo.fServo = 200913 := by
  decide

/-- Section 1.10, a skipped window: three of eight accepted. -/
theorem test_skipped_window_of_section_1_10 :
    let v := running (fun v => { v with
      selection := some .fwd
      servo := { Reset.servo with
        state := .locked, integ := 5, lockRun := 1, unlockRun := 2,
        queue := List.replicate 3 ⟨10, true⟩ ++ List.replicate 5 ⟨900, false⟩ } })
    let w := servoUpdate profile v
    w.servo.integ = 5 ∧ w.servo.skipRun = 1 ∧ w.servo.skipped = 1 ∧ w.servo.unlockRun = 0 ∧ w.servo.lockRun = 0 ∧
      w.servo.state = .locked := by
  decide

/-- Section 3.6: the gradients −120, −180, −260 of bands 8 to 10 give −2,790 ppt at 41.5 °C. -/
theorem test_f_temp_above_of_section_3_6 :
    fTempOf [0, 0, 0, 0, 0, 0, 0, 0, -120, -180, -260, 0, 0, 0, 0, 0] 664 = -2790 := by
  decide

/-- Section 3.6: the gradients 95, 60, 35, 10 of bands 4 to 7 give −1,148 ppt at −3.25 °C. -/
theorem test_f_temp_below_of_section_3_6 :
    fTempOf [0, 0, 0, 0, 95, 60, 35, 10, 0, 0, 0, 0, 0, 0, 0, 0] (-52) = -1148 := by
  decide

/-- Section 3.6, the zones of a hot afternoon. -/
theorem test_zones_of_section_3_6 :
    placeZone Config.thermal 688 = .normal ∧ moveZone Config.thermal 744 .normal = .normal ∧
      moveZone Config.thermal 768 .normal = .warm ∧ moveZone Config.thermal 736 .warm = .warm ∧
      moveZone Config.thermal 718 .warm = .normal := by
  decide

/-- Section 4.8: a mean of −3,015,006 over 64 entries, E0 of 32,000 ps and the class Q2 at the loss. -/
theorem test_loss_of_section_4_8 :
    let v := running (fun v => { v with
      servo := { Reset.servo with
        state := .locked, lastTheta := 12
        history := List.replicate 63 (-3015006) ++ [-3015006] } })
    let w := loseSelection profile v
    w.servo.state = .holdover ∧ w.servo.fServo = -3015006 ∧ w.hold.e0 = 32000 ∧ w.hold.e = 32000 ∧
      w.hold.aging = 50 ∧ deriveClass profile w = .q2 := by
  decide

/-- A stay in HOLDOVER at the given second, in zone NORMAL, as section 4.8 has it. -/
def stayAt (t d : Nat) : Live :=
  running (fun v => { v with
    servo := { Reset.servo with state := .holdover }
    thermal := { Reset.thermal with sensor := .good, zone := some .normal }
    hold := { fHold := some (-3015006), t := t, d := d, e0 := 32000, e := 0, aging := 50, nextTick := some 0 } })

/-- Section 4.8: E is 400,978 ps at 22,391 s and 401,001 ps at 22,392 s, where the class becomes Q3. -/
theorem test_ticks_of_section_4_8 :
    (holdTick profile (stayAt 22390 223900)).hold.e = 400978 ∧
      deriveClass profile (holdTick profile (stayAt 22390 223900)) = .q2 ∧
      (holdTick profile (stayAt 22391 223910)).hold.e = 401001 ∧
      deriveClass profile (holdTick profile (stayAt 22391 223910)) = .q3 ∧
      deriveClass profile (holdTick profile (stayAt 45910 459100)) = .q4 := by
  decide

/-! ## Witnesses: states and operands that meet the hypotheses of the statements -/

/-- A part in RUNNING with the built-in profile. -/
def plainState : State := stateOf profile (running id)

/-- Every link up. -/
def linked (v : Live) : Live := { v with io := v.io.map (fun x => { x with link := true }) }

/-- Node 3 of a ring of the nodes 0 to 11, with primary 0 and standby 6, on generation 7. -/
def ringTables : Tables :=
  { profile with
    node := { profile.node with id := 3 }
    ring := { profile.ring with gen := 7, standby := some 6, members := List.range 12 } }

/-- Node 0 of that ring, its primary; and node 6, its standby. -/
def primaryTables : Tables := { ringTables with node := { ringTables.node with id := 0, role := .primary } }

def standbyTables : Tables := { ringTables with node := { ringTables.node with id := 6, role := .standby } }

/-- The member's blocks with every link up, changed as given. -/
def memberLive (f : Live → Live) : Live := running (fun v => f (linked v))

theorem witness_StepTakesTheFrontCommand :
    (plainState.pending = [] ∧ dueEvents plainState.tables plainState.live ≠ []) ∧
      State.reset.pending = [] ∧ dueEvents State.reset.tables State.reset.live = [] := by
  decide

/-- An image of a committed profile with SERVO LOCKED-DOWN. -/
def image : Image := { tables := ringTables, locks := { State.reset.locks with servo := .lockedDown } }

theorem witness_PowerOnLoadsTheStore :
    (let s := { plainState with store := { State.reset.store with image := some image } }
     s.store.image = some image ∧ s.store.commit = none) ∧
      plainState.store.image = none ∧
      ({ State.reset.store with commit := some image } : Store).commit ≠ none := by
  decide

theorem witness_ResetPinKeepsLockedDownTables :
    let s := { plainState with locks := image.locks, store := { State.reset.store with image := some image } }
    s.locks.get .servo = .lockedDown ∧ s.locks.get .ring ≠ .lockedDown ∧ s.store.image = some image ∧
      s.store.commit = none ∧ plainState.locks.get .ring ≠ .lockedDown ∧ plainState.store.image = none := by
  decide

theorem witness_LoadingEndEntersRunning :
    State.reset.live.part = .loading ∧ plainState.live.part = .running ∧ originRole primaryTables = .primary := by
  decide

theorem witness_SoftRestartKeepsWhatItMust :
    let s := stateOf profile (running (fun v => { v with restartDue := true }))
    s.live.part = .running ∧ s.live.restartDue = true := by
  decide

theorem witness_AdvanceIsExact :
    0 ≤ 1000000000000 + ({ Reset.ts with fTotal := -1000000000000 } : TimeScale).fTotal ∧
      0 ≤ 1000000000000 + ({ Reset.ts with fTotal := 100000000 } : TimeScale).fTotal := by
  decide

/-- A part whose time value stands at the given seconds and nanoseconds. -/
def atTime (sec ns : Nat) : Live :=
  running (fun v => { v with ts := { v.ts with value := { sec := sec, ns := ns, ps := 0 } } })

theorem witness_CrossingsAtAnAccessPort :
    pulseDue 0 profile (atTime 1 0) = true ∧ pulseDue 0 profile (atTime 0 999999999) = false ∧
      (atTime 1 0).part = .running ∧ reachedNs ((atTime 0 0).access.get 2).jp (atTime 0 0).ts.value.toPs = true := by
  decide

theorem witness_EpochInstantMovesOn :
    (atTime 0 0).part = .running ∧ reachedNs (atTime 0 0).epoch.j (atTime 0 0).ts.value.toPs = true := by
  decide

theorem witness_PiUpdateSteers :
    updateSkipped profile.servo lockedServo = false ∧ filteredOffset lockedServo = 240 ∧
      lockedServo.state = .locked ∧
      (let s := { lockedServo with state := .acquire, queue := List.replicate 8 ⟨-1000, true⟩ }
       updateSkipped profile.servo s = false ∧ filteredOffset s = -1000 ∧ s.state = .acquire ∧
         ((filteredOffset s).natAbs : Int) ≤ profile.servo.stepThr) ∧
      (let s := { lockedServo with state := .acquire, queue := List.replicate 8 ⟨-1001, true⟩ }
       updateSkipped profile.servo s = false ∧ filteredOffset s = -1001 ∧ s.state = .acquire ∧
         (profile.servo.stepThr : Int) < (filteredOffset s).natAbs) ∧
      lockedLive.selection = some .fwd := by
  decide

/-- A servo in ACQUIRE with a full window of one offset and the given lock run. -/
def acquiring (theta : Int) (run : Nat) : Servo :=
  { Reset.servo with state := .acquire, lockRun := run, queue := List.replicate 8 ⟨theta, true⟩ }

theorem witness_LockRunReachesLocked :
    (∀ theta ∈ [(1001 : Int), 1000, 101, 100, -100], updateSkipped profile.servo (acquiring theta 3) = false ∧
      filteredOffset (acquiring theta 3) = theta) ∧
      profile.servo.stepThr < (1001 : Int).natAbs ∧ (1000 : Int).natAbs ≤ profile.servo.stepThr ∧
      profile.servo.lockThr < (101 : Int).natAbs ∧ (-100 : Int).natAbs ≤ profile.servo.lockThr ∧
      (acquiring 100 2).lockRun + 1 < 4 ∧ 4 ≤ (acquiring 100 3).lockRun + 1 := by
  decide

/-- A servo LOCKED with a full window of one offset and the given unlock run. -/
def unlocking (theta : Int) (run : Nat) : Servo :=
  { Reset.servo with state := .locked, unlockRun := run, queue := List.replicate 8 ⟨theta, true⟩ }

theorem witness_UnlockRunReturnsToAcquire :
    (∀ theta ∈ [(1001 : Int), 1000], updateSkipped profile.servo (unlocking theta 2) = false ∧
      filteredOffset (unlocking theta 2) = theta) ∧
      (1000 : Int).natAbs ≤ profile.servo.unlockThr ∧ profile.servo.unlockThr < (1001 : Int).natAbs ∧
      (unlocking 1001 1).unlockRun + 1 < 3 ∧ 3 ≤ (unlocking 1001 2).unlockRun + 1 := by
  decide

/-- A window of eight samples of which the given number are accepted. -/
def window (accepted : Nat) (st : ServoState) (run : Nat) : Servo :=
  { Reset.servo with
    state := st, skipRun := run
    queue := List.replicate accepted ⟨10, true⟩ ++ List.replicate (8 - accepted) ⟨9000, false⟩ }

theorem witness_SkippedUpdateLeavesTheSteering :
    updateSkipped profile.servo (window 3 .locked 1) = true ∧ (window 3 .locked 1).skipRun + 1 < 3 ∧
      updateSkipped profile.servo (window 3 .locked 2) = true ∧ 3 ≤ (window 3 .locked 2).skipRun + 1 ∧
      updateSkipped profile.servo (window 3 .acquire 0) = true ∧ (window 3 .acquire 0).state ≠ .locked ∧
      updateSkipped profile.servo (window 4 .locked 2) = false := by
  decide

theorem witness_SamplesAreTakenByState :
    (acquiring 0 0).state = .acquire ∧ 1000000000 ≤ (-1000000000 : Int).natAbs ∧ (999999999 : Int).natAbs < 1000000000 ∧
      ({ acquiring 0 0 with queue := [] } : Servo).queue.length + 1 < profile.servo.n ∧
      (let s := { lockedServo with queue := [] }
       s.state = .locked ∧ s.queue.length + 1 < profile.servo.n ∧
         ((730 : Int) - s.lastTheta).natAbs ≤ profile.servo.gate ∧
         s.ungated = false ∧ profile.servo.gate < ((731 : Int) - s.lastTheta).natAbs) ∧
      Reset.servo.state = .freerun := by
  decide

theorem witness_LossEntersHoldoverOrFreerun :
    16 ≤ (List.replicate 16 (-7 : Int)).length ∧ (List.replicate 15 (-7 : Int)).length < 16 := by
  decide

theorem witness_BestKeyIsChosen :
    let v := running (fun v => { v with cands := { v.cands with
      ref := { v.cands.ref with state := .available, offered := .q0 }
      fwd := { v.cands.fwd with state := .available, offered := .q1, hops := some 3 } } })
    v.manual = none ∧ target profile v = some .ref ∧ eligible v .ref = true ∧ eligible v .fwd = true ∧
      target profile plainState.live = none := by
  decide

/-- A REF input that holds a pending announcement. -/
def refLive (st : CandState) (a : Option Announcement) (expected : Option Nat) (unusable : Nat) : Live :=
  running (fun v => { v with
    cands := { v.cands with ref := { v.cands.ref with state := st } }
    refIn := { v.refIn with pending := a, expected := expected, unusable := unusable } })

/-- An announcement of section 2.7's case. -/
def announced (sec : Nat) (valid : Bool) (code : Fin 4) : Announcement := { sec := sec, valid := valid, code := code }

theorem witness_UsableSecondIsTaken :
    (let v := refLive .unavailable (some (announced 1700000500 true 0)) none 0
     v.part = .running ∧ v.cands.ref.state ≠ .disabled ∧ v.refIn.pending = some (announced 1700000500 true 0) ∧
       v.refIn.expected = none) ∧
      (let v := refLive .qualifying (some (announced 1700000501 true 1)) (some 1700000501) 2
       v.cands.ref.state ≠ .disabled ∧ v.refIn.expected = some 1700000501) := by
  decide

theorem witness_UnusableSecondIsCounted :
    (let v := refLive .qualifying none (some 1700000502) 2
     v.part = .running ∧ v.cands.ref.state ≠ .disabled ∧ v.refIn.pending = none ∧ 2 ≤ v.refIn.unusable) ∧
      (let v := refLive .unavailable (some (announced 5 true 2)) none 0
       v.cands.ref.state ≠ .disabled ∧ (2 : Nat) ≤ (announced 5 true 2).code.val ∧ v.cands.ref.state = .unavailable) ∧
      (let v := { atTime 1 100000000 with cands := (refLive .qualifying none none 0).cands }
       v.part = .running ∧ v.cands.ref.state ≠ .disabled ∧ 1100000000000 ≤ interval v.refIn.watch v.now) := by
  decide

theorem witness_AnnouncementsAndJumps :
    (let v := refLive .available (some (announced 506 true 0)) (some 504) 0
     v.part = .running ∧ v.cands.ref.state ≠ .disabled ∧ v.cands.ref.state ≠ .unavailable ∧
       (announced 506 true 0).valid = true ∧ v.refIn.expected = some 504 ∧ (504 : Nat) ≠ 506) ∧
      State.reset.live.part = .loading := by
  decide

/-- A ring candidate with one origin heard at the start of time. -/
def hearing (st : CandState) (off : QClass) : CandRec :=
  { Reset.cand true with
    state := st, offered := off
    origins := [{ id := 0, rank := 0, cls := off, hops := 3, heardAt := Reset.stamp, gapSince := Reset.stamp }]
    qual := some { since := Reset.stamp, base := 0 } }

theorem witness_CandidatesQualifyAndExpire :
    (let v := { atTime 2 0 with cands := ⟨Reset.cand false, hearing .qualifying .q1, hearing .qualifying .q4⟩ }
     (v.cands.get .fwd).state = .qualifying ∧ (v.cands.get .fwd).qual = some { since := Reset.stamp, base := 0 } ∧
       ((profile.cand.get .fwd).qualify : Int) * 1000000000000 ≤ (0 : Nat) + interval Reset.stamp v.now ∧
       (v.cands.get .fwd).offered ≠ .q4 ∧ (v.cands.get .rev).state = .qualifying ∧
       (v.cands.get .rev).offered = .q4) ∧
      (let v := { atTime 0 375000000 with cands := ⟨Reset.cand false, hearing .available .q1, Reset.cand true⟩ }
       (v.cands.get (Side.cand .west)).origins = (hearing .available .q1).origins ∧
         3 * (1000000000 / profile.ring.rate : Nat) * 1000 ≤ interval Reset.stamp v.now) := by
  decide

theorem witness_SensorReadingIsJudged :
    (let v := running (fun v => { v with osc := 125000000 })
     v.thermal.next ≤ v.osc) ∧
      (let v := running (fun v => { v with osc := 250000000, thermal := { v.thermal with next := 250000000 } })
       v.thermal.next ≤ v.osc ∧ 250000000 ≤ v.thermal.next) ∧
      -880 ≤ (-880 : Int) ∧ (2000 : Int) ≤ 2000 ∧ (-881 : Int) < -880 ∧ (2000 : Int) < 2001 := by
  decide

theorem witness_ZoneHoldsItsTemperature :
    Config.thermal.ta < Config.thermal.tb ∧ Config.thermal.tb < Config.thermal.tc ∧ 1 ≤ Config.thermal.th ∧
      (-81 : Int) < 16 * Config.thermal.ta ∧ 16 * Config.thermal.ta ≤ (-80 : Int) ∧ (719 : Int) < 16 * Config.thermal.tb ∧
      16 * Config.thermal.tb ≤ (720 : Int) ∧ (1119 : Int) < 16 * Config.thermal.tc ∧ 16 * Config.thermal.tc ≤ (1120 : Int) ∧
      moveZone Config.thermal (-33) .cold = .cold ∧ moveZone Config.thermal 767 .normal = .normal ∧
      moveZone Config.thermal 1167 .warm = .warm ∧ moveZone Config.thermal 1120 .hot = .hot := by
  decide

theorem witness_TemperatureCorrectionIsBounded :
    (List.replicate 16 (-32768 : Int)).length = 16 ∧
      (∀ x ∈ List.replicate 16 (-32768 : Int), -32768 ≤ x ∧ x ≤ 32767) ∧
      fTempOf (List.replicate 16 32767) 1680 = 2654127 ∧ 8 < 9 ∧ (512 : Int) ≤ -640 + 128 * (9 : Nat) := by
  decide

theorem witness_HoldoverTickGrowsTheEstimate :
    (stayAt 22390 223900).hold.nextTick = some 0 ∧ 0 ≤ (stayAt 22390 223900).osc := by
  decide

/-- A stay in HOLDOVER with the given E. -/
def estimate (e : Nat) : Live := { stayAt 0 0 with hold := { (stayAt 0 0).hold with e := e } }

theorem witness_OwnClassFollowsTheServo :
    (finish profile (running id)).servo.state = .freerun ∧
      (let w := finish profile (estimate 400999)
       w.servo.state = .holdover ∧ w.hold.e / 1000 ≤ profile.quality.limit1) ∧
      (let w := finish profile (estimate 401000)
       profile.quality.limit1 < w.hold.e / 1000 ∧ w.hold.e / 1000 ≤ profile.quality.limit2) ∧
      (let w := finish profile (estimate 1101000)
       profile.quality.limit2 < w.hold.e / 1000) ∧
      (let w := finish profile (running (fun v => { v with
         servo := { v.servo with state := .locked }, selection := some .fwd
         cands := { v.cands with fwd := { v.cands.fwd with state := .selected, offered := .q1 } } }))
       w.servo.state = .locked ∧ w.selection = some .fwd) := by
  decide

/-- A header of a frame that goes FWD from node 0, two hops on. -/
def header : Header :=
  { ring := 0, rev := false, looped := false, origin := 0, sender := 2, target := 255, hops := 2, seq := 9 }

/-- An own frame of the given body. -/
def own (b : Body) : QFrame := mkFrame ringTables header b .plain

/-- The EPOCH of section 6.8, and the bodies of the other kinds. -/
def epochBody : EpochBody := { time := { sec := 1700000000, ns := 0 }, corr := 37412000, cls := .q1, rank := 0 }

def requestBody : ReqBody := { tag := 7, relay := none, op := 1, code := 1, first := 0, count := 1, entries := [] }

def responseBody : RespBody := { tag := 7, relay := none, status := .done, count := 0, entries := [] }

/-- A port with its link up, sending, and the given queue. -/
def busy (q : List QFrame) : PortIO :=
  { Reset.port true with sending := some (.own (own (.probe 1))), queue := q }

theorem witness_FullQueueShedsTheLessUrgent :
    (let v := running (fun v => v.mapPort (.line .east) (fun _ => busy (List.replicate 8 (own (.probe 2)))))
     (v.port (.line .east)).link = true ∧ capacity (.line .east) ≤ (v.port (.line .east)).queue.length ∧
       ∀ x ∈ (v.port (.line .east)).queue,
         level (.line .east) x.frame.body ≤ level (.line .east) (own (.request requestBody)).frame.body) ∧
      ((running id).port (.line .east)).link = false ∧
      (let v := running (fun v => v.mapPort (.access 1) (fun _ => busy (List.replicate 4 (own (.probe 2)))))
       (v.port (.access 1)).link = true ∧ capacity (.access 1) ≤ (v.port (.access 1)).queue.length) ∧
      (let a := List.replicate 6 (own (.request requestBody))
       let old := own (.request { requestBody with tag := 8 })
       let b := [own (.probe 3)]
       let v := running (fun v => v.mapPort (.line .west) (fun _ => busy (a ++ old :: b)))
       let q := own (.epoch epochBody)
       let p := Port.line .west
       (v.port p).link = true ∧ capacity p ≤ (v.port p).queue.length ∧ (v.port p).sending.isSome = true ∧
         (v.port p).queue = a ++ old :: b ∧
         (∀ x ∈ (v.port p).queue, level p x.frame.body ≤ level p old.frame.body) ∧
         (∀ x ∈ b, level p x.frame.body < level p old.frame.body) ∧ level p q.frame.body < level p old.frame.body) := by
  decide

theorem witness_LinkDownEmptiesThePort :
    let v := memberLive (fun v => { v with
      spans := ⟨{ v.spans.east with state := .up }, v.spans.west⟩
      cands := { v.cands with rev := { v.cands.rev with state := .available } } })
    (v.port (.line .east)).link = true ∧ (v.span .east).state ≠ .down ∧ (v.span .east).state = .up ∧
      (v.cands.get (Side.cand .east)).state ≠ .disabled := by
  decide

theorem witness_IdleTransmitterTakesTheMostUrgent :
    (let v := running (fun v => v.mapPort (.site .west) (fun _ => busy []))
     (v.port (.site .west)).sending = some (.own (own (.probe 1)))) ∧
      (let v := running (fun v => v.mapPort (.line .east) (fun _ => { Reset.port true with
         sending := some (.through rawFrame) }))
       (v.port (.line .east)).sending = some (.through rawFrame)) ∧
      (let a := [own (.request requestBody)]
       let q := own (.probe 1)
       let b := [own (.probe 2)]
       let v := running (fun v => v.mapPort (.line .east) (fun _ => { Reset.port true with queue := a ++ q :: b }))
       let p := Port.line .east
       (v.port p).link = true ∧ (v.port p).sending = none ∧ (v.port p).queue = a ++ q :: b ∧
         (∀ x ∈ a, level p q.frame.body < level p x.frame.body) ∧
         (∀ x ∈ b, level p q.frame.body ≤ level p x.frame.body)) ∧
      (let v := running (fun v => v.mapPort (.line .east) (fun _ => { Reset.port true with through := [rawFrame] }))
       (v.port (.line .east)).link = true ∧ (v.port (.line .east)).sending = none ∧
         (v.port (.line .east)).queue = [] ∧ (v.port (.line .east)).through = [rawFrame]) := by
  decide

/-- A member whose two spans are as given. -/
def spanned (e w : Span) : Live := memberLive (fun v => { v with spans := ⟨e, w⟩ })

/-- A probe sent at the start of time, and the same 10 ms of oscillator time later. -/
def waiting (run : Nat) : Live :=
  { spanned { Reset.span with
      state := .up, timeoutRun := run, outstanding := some { seq := 5, t1 := Reset.stamp, since := 0 } } Reset.span with
    osc := 1250000 }

theorem witness_ProbeClockAndReplyWait :
    (let v := spanned { Reset.span with state := .probing, nextProbe := some 0 } Reset.span
     (v.span .east).nextProbe = some 0 ∧ 0 ≤ v.osc ∧ (v.port (.line .east)).queue.any isProbeFrame = false ∧
       (v.port (.line .east)).link = true ∧ (v.span .east).state ≠ .down) ∧
      ((running id).port (.line .east)).link = false ∧
      (let v := spanned { Reset.span with nextProbe := some 0 } Reset.span
       (v.span .east).nextProbe = some 0 ∧ (v.port (.line .east)).queue.any isProbeFrame = false ∧
         (v.port (.line .east)).link = true ∧ (v.span .east).state = .down) ∧
      (∀ r ∈ [(1 : Nat), 2], ((waiting r).span .east).outstanding =
          some { seq := 5, t1 := Reset.stamp, since := 0 } ∧ 1250000 ≤ (waiting r).osc - 0) ∧
      ((waiting 1).span .east).timeoutRun < 2 ∧ 2 ≤ ((waiting 2).span .east).timeoutRun := by
  decide

/-- The header of a frame that a neighbour's span or access probe carries. -/
def probeHeader : Header := { header with rev := true, origin := 4, sender := 4, hops := 0, seq := 77 }

theorem witness_ProbesAreAnswered :
    let f := toWire (mkFrame ringTables probeHeader (.probe 77) .plain)
    claimsAt ringTables (memberLive id) (.line .east) Reset.stamp f { hdr := probeHeader, body := .probe 77 } = true ∧
      claimsAt ringTables (memberLive id) (.access 0) Reset.stamp f { hdr := probeHeader, body := .probe 77 } = true ∧
      ((memberLive id).access.get 0).state = .off ∧
      (let v := memberLive (fun v => v.mapAccess 0 (fun a => { a with state := .degraded }))
       claimsAt ringTables v (.access 0) Reset.stamp f { hdr := probeHeader, body := .probe 77 } = true ∧
         (v.access.get 0).state = .degraded) := by
  decide

/-- Section 5.6: the West span with its filtered delay, and probe 4,118 outstanding since the start of time. -/
def westSpan : Span :=
  { Reset.span with
    state := .up, learned := some 14, df := some 18200000, accepted := 9, probeSeq := 4118
    outstanding := some { seq := 4118, t1 := Reset.stamp, since := 0 } }

/-- Section 5.6: an asymmetry of +150,000 ps on LW. -/
def spanTables : Tables :=
  { ringTables with port := { ringTables.port with line := ⟨Config.line, { Config.line with asym := 150000 }⟩ } }

/-- The reply of section 5.6, with t2 and t3 12,400 ns apart, and its receive instant 48,620 ns after t1. -/
def replyBody : Body := .reply 4118 { sec := 1, ns := 0 } { sec := 1, ns := 12400 }

def replyHeader : Header := { header with sender := 14, origin := 14, seq := 1 }

def replyStamp : Stamp := { time := { sec := 0, ns := 48620, ps := 0 }, steps := 0 }

theorem witness_MatchedReplyMovesTheDelay :
    let f := toWire (mkFrame spanTables replyHeader replyBody .plain)
    let v := spanned Reset.span westSpan
    claimsAt spanTables v (.line .west) replyStamp f { hdr := replyHeader, body := replyBody } = true ∧
      (v.span .west).outstanding = some { seq := 4118, t1 := Reset.stamp, since := 0 } ∧
      (v.span .west).learned = some replyHeader.sender ∧
      neighbourFails (spanTables.port.line.get .west) (v.span .west) = false ∧
      interval Reset.stamp replyStamp - wrapDiff (NsTime.toPs { sec := 1, ns := 12400 })
        (NsTime.toPs { sec := 1, ns := 0 }) = 36220000 ∧
      (v.port (.line .west)).queue.any isProbeFrame = false ∧
      claimsAt spanTables (memberLive id) (.line .west) replyStamp f { hdr := replyHeader, body := replyBody } = true ∧
      ((memberLive id).span .west).outstanding = none := by
  decide

/-- A frame of another type with a payload of the given length. -/
def alien (n : Nat) : RawFrame := { rawFrame with ftype := 0x0800#16, payload := List.replicate n 0 }

theorem witness_FramesPassOrAreDiscarded :
    (throughTo (.line .east) = some (.site .east) ∧ ((memberLive id).port (.line .east)).link = true ∧
      ((memberLive id).port (.site .east)).link = true ∧ (memberLive id).part = .running ∧
      64 ≤ frameLength (alien 46) ∧ frameLength (alien 46) ≤ 9600 ∧ (alien 46).fcsOk = true ∧
      (alien 46).ftype ≠ ringTables.node.ftype ∧
      throughUsed ((memberLive id).port (.site .east)) + frameLength (alien 46) ≤ 16384 ∧
      frameLength (alien 45) < 64) ∧ frameLength (alien 9582) ≤ 9600 ∧ 9600 < frameLength (alien 9583) := by
  have h : ∀ n, frameLength (alien n) = n + 18 := fun n => by rw [frameLength, alien, List.length_replicate]
  refine ⟨by decide, ?_, ?_⟩ <;> (rw [h]; try decide)

/-- The member of section 6.8: its West span UP with d_f 18,207,500 ps, its LE span as given. -/
def epochMember (e : Span) (c : CandRec) : Live :=
  let w := { Reset.span with state := .up, df := some 18207500, learned := some 2 }
  let v := spanned e w
  { v with cands := { v.cands with fwd := c } }

/-- The receive instant of section 6.8's EPOCH. -/
def epochStamp : Stamp := { time := { sec := 1700000000, ns := 55860, ps := 0 }, steps := 0 }

/-- A frame of the given header and body as it stands on the wire. -/
def frameOf (h : Header) (b : Body) : RawFrame := toWire (mkFrame ringTables h b .plain)

/-- Whether the member of the ring claims a frame of the given header and body at a port. -/
def claims (v : Live) (p : Port) (h : Header) (b : Body) : Bool :=
  claimsAt ringTables v p Reset.stamp (frameOf h b) { hdr := h, body := b }

theorem witness_EpochChecksInOrder :
    let v := epochMember Reset.span (Reset.cand true)
    claims v (.line .west) header (.epoch epochBody) = true ∧ (v.span .west).state = .up ∧
      header.rev = Side.inRev .west ∧ header.origin ≠ ringTables.node.id ∧
      (let h := { header with rev := true }
       claims v (.line .west) h (.epoch epochBody) = true ∧ h.rev ≠ Side.inRev .west) ∧
      (let h := { header with origin := 3 }
       claims v (.line .west) h (.epoch epochBody) = true ∧ h.origin = ringTables.node.id) ∧
      (let h := { header with hops := 31 }
       claims v (.line .west) h (.epoch epochBody) = true ∧ h.hops = 31) ∧
      claims (memberLive id) (.line .west) header (.epoch epochBody) = true ∧
      ((memberLive id).span .west).state ≠ .up := by
  decide

theorem witness_EpochIsForwardedAndHeard :
    let v := epochMember { Reset.span with state := .up } { Reset.cand true with state := .selected }
    claims v (.line .west) header (.epoch epochBody) = true ∧ (v.span .west).state = .up ∧
      (v.span .west).df = some 18207500 ∧ header.rev = Side.inRev .west ∧ header.origin ≠ ringTables.node.id ∧
      header.hops ≠ 31 ∧
      Int.tdiv (wrapDiff epochStamp.time.toPs (epochBody.time.toPs + epochBody.corr + 18207500)) 1000 = 240 ∧
      namesOrigin ringTables.ring header.origin = true ∧ originRole ringTables ≠ .standby ∧
      (v.span (Side.other .west)).state ≠ .down ∧ (v.cands.get (Side.cand .west)).state ≠ .disabled ∧
      (let h := { header with origin := 5 }
       claims v (.line .west) h (.epoch epochBody) = true ∧ namesOrigin ringTables.ring h.origin = false) ∧
      (let v := epochMember Reset.span (Reset.cand false)
       claims v (.line .west) header (.epoch epochBody) = true ∧ (v.span (Side.other .west)).state = .down ∧
         (v.cands.get (Side.cand .west)).state = .disabled) := by
  decide

/-- The standby's blocks at the given second. -/
def standbyAt (sec : Nat) (f : Live → Live) : Live := f (atTime sec 0)

theorem witness_StandbyTakesOverAndReverts :
    originRole standbyTables = .standby ∧
      (let v := standbyAt 5 (fun v => { v with
         servo := { v.servo with state := .locked }, selection := some .ref
         epoch := { v.epoch with takeover := some { since := Reset.stamp, base := 0 } } })
       v.part = .running ∧ v.epoch.active = false ∧ v.epoch.takeover = some { since := Reset.stamp, base := 0 } ∧
         (standbyTables.ring.takeover : Int) * 1000000000000 ≤ (0 : Nat) + interval Reset.stamp v.now ∧
         v.servo.state = .locked ∧ v.selection = some .ref) ∧
      (let r : RevertWatch := { start := Reset.stamp, lastQual := Reset.stamp, gapSince := Reset.stamp }
       let v := standbyAt 10 (fun v => { v with epoch := { v.epoch with active := true, revert := some r } })
       v.epoch.revert = some r ∧ v.epoch.active = true ∧
         (standbyTables.ring.revert : Int) * 1000000000000 ≤ interval r.start v.now ∧
         3 * (1000000000 / standbyTables.ring.rate : Nat) * 1000 ≤ interval r.gapSince v.now) := by
  decide

/-- The cycle after sequence 2,040, as the head of the ring begins it. -/
def cycle2041 : Cycle :=
  { seq := 2041, timeout := 200, members := List.range 12, rev := false, sentAt := some Reset.stamp,
    firstSent := some Reset.stamp, fwd := none, seen := [] }

/-- A head with the given spans, its cycle, and its roll clock started at the start of time. -/
def headLive (e w : SpanState) (c : Option Cycle) (v : Live) : Live :=
  { linked v with
    osc := 12500000
    spans := ⟨{ Reset.span with state := e }, { Reset.span with state := w }⟩
    epoch := { v.epoch with active := true }
    roll := { v.roll with seq := 2040, clock := some 0, cycle := c } }

theorem witness_RollClockAndTimeoutDriveTheCycle :
    (let v := headLive .up .up none (atTime 0 100000000)
     v.roll.clock = some 0 ∧ 125000 * primaryTables.ring.interval ≤ v.osc - 0 ∧ v.roll.cycle = none ∧
       (v.span .east).state ≠ .down) ∧
      (let v := headLive .down .up none (atTime 0 100000000)
       v.roll.cycle = none ∧ (v.span .east).state = .down ∧ (v.span .west).state ≠ .down) ∧
      (let v := headLive .up .up (some cycle2041) (atTime 0 20000000)
       v.roll.cycle = some cycle2041 ∧ cycle2041.sentAt = some Reset.stamp ∧
         (cycle2041.timeout : Int) * 100000000 ≤ interval Reset.stamp v.now ∧ cycle2041.fwd = none ∧
         (v.span .west).state ≠ .down) ∧
      (let c := { cycle2041 with rev := true, fwd := some { outcome := .looped, loopId := some 4 } }
       let v := headLive .up .up (some c) (atTime 0 20000000)
       v.roll.cycle = some c ∧ c.sentAt = some Reset.stamp ∧ c.fwd = some { outcome := .looped, loopId := some 4 }) := by
  decide

/-- A filled slot of generation 7. -/
def slot : Slot :=
  { fillSeq := 2041, servo := .locked, cls := .q1, summary := 0, gen := 7, stale := false, mismatch := false,
    duplicate := false, carried := false, serial := 0xBB#48 }

/-- A ring map whose entry 5 is SILENT in MISMATCH with contents, entry 4 PENDING, and every other one as at reset. -/
def ringMap : List MapEntry :=
  [Reset.mapEntry, Reset.mapEntry, Reset.mapEntry, Reset.mapEntry, { Reset.mapEntry with config := some .pending },
    { Reset.mapEntry with presence := .silent, slot := some slot, config := some .mismatch }] ++
    List.replicate 26 Reset.mapEntry

theorem witness_FormedRollCarriesTheView :
    (ringMap[5]? = some { Reset.mapEntry with presence := .silent, slot := some slot, config := some .mismatch }) ∧
      (5 : Nat) ≠ primaryTables.node.id ∧ (0 : Nat) = primaryTables.node.id ∧ (31 : Nat) < 32 ∧
      ringMap[31]? = some Reset.mapEntry := by
  decide

theorem witness_CycleEndDerivesTheStatus :
    let looped : RollResult := { outcome := .looped, loopId := some 4 }
    let timed : RollResult := { outcome := .timedOut, loopId := none }
    let back : RollResult := { outcome := .returned, loopId := none }
    let v := headLive .up .up (some cycle2041) (atTime 0 1310000)
    (endCycle primaryTables cycle2041 looped (some { looped with loopId := some 5 }) v).roll.status = .loopbackBoth ∧
      (endCycle primaryTables cycle2041 looped (some { looped with loopId := some 5 }) v).roll.cycleTime = some 1310 ∧
      back.outcome = .returned ∧ timed.outcome ≠ .returned ∧ looped.outcome = .looped ∧ timed.outcome = .timedOut := by
  decide

/-- The ROLL that the head sends under sequence 2,041, with the slots of a ring map. -/
def rollBody (slots : List (Option Slot)) : RollBody :=
  { rank := 0, seq := 2041, status := .loopbackBoth, loopId := none, headGen := 7, silent := 0x20#32, mismatch := 0,
    pending := 0, slots := slots }

/-- Slots of which those of nodes 0 and 5 are filled. -/
def slots : List (Option Slot) := [some slot, none, none, none, none, some slot] ++ List.replicate 26 none

def rollHeader : Header := { header with seq := 2041 }

theorem witness_RollChecksInOrder :
    let v := spanned { Reset.span with state := .up } { Reset.span with state := .up }
    claims v (.line .west) rollHeader (.roll (rollBody slots)) = true ∧
      namesOrigin ringTables.ring rollHeader.origin = true ∧ rollHeader.rev = Side.inRev .west ∧
      rollHeader.origin ≠ ringTables.node.id ∧ rollHeader.hops ≠ 31 ∧
      (let h := { rollHeader with origin := 5 }
       claims v (.line .west) h (.roll (rollBody slots)) = true ∧ namesOrigin ringTables.ring h.origin = false) ∧
      (let h := { rollHeader with rev := true }
       claims v (.line .west) h (.roll (rollBody slots)) = true ∧ h.rev ≠ Side.inRev .west) ∧
      (let h := { rollHeader with hops := 31 }
       claims v (.line .west) h (.roll (rollBody slots)) = true ∧ h.hops = 31) := by
  decide +kernel

/-- The last two checks of R130 and R125, at a head that hears its own id. -/
theorem witness_RollChecksInOrder_at_a_head :
    let v := headLive .up .up none (atTime 0 100000000)
    let f := toWire (mkFrame primaryTables rollHeader (.roll (rollBody slots)) .plain)
    claimsAt primaryTables v (.line .west) Reset.stamp f { hdr := rollHeader, body := .roll (rollBody slots) } = true ∧
      rollHeader.origin = primaryTables.node.id ∧ v.epoch.active = true ∧ v.roll.cycle = none ∧
      (let v := { v with epoch := { v.epoch with active := false } }
       claimsAt primaryTables v (.line .west) Reset.stamp f { hdr := rollHeader, body := .roll (rollBody slots) } = true ∧
         v.epoch.active = false) ∧
      (let v := { v with roll := { v.roll with cycle := some { cycle2041 with seq := 2042 } } }
       claimsAt primaryTables v (.line .west) Reset.stamp f { hdr := rollHeader, body := .roll (rollBody slots) } = true ∧
         v.roll.cycle = some { cycle2041 with seq := 2042 } ∧ (rollBody slots).seq ≠ 2042) := by
  decide +kernel

theorem witness_MemberCopiesTheView :
    let v := spanned { Reset.span with state := .up } { Reset.span with state := .up }
    v.epoch.active = false ∧ preferredHead (hearHead rollHeader.origin (rollBody slots).rank v) = some rollHeader.origin ∧
      (5 : Nat) ≠ ringTables.node.id ∧ v.roll.map[5]? = some Reset.mapEntry ∧
      (rollBody slots).slots[5]? = some (some slot) ∧ (rollBody slots).slots[31]? = some none ∧
      v.roll.map[31]? = some Reset.mapEntry ∧
      (let v := { v with roll := { v.roll with heads := [{ id := 0, rank := 0, heardAt := Reset.stamp }] } }
       preferredHead (hearHead 6 1 v) ≠ some 6) := by
  decide

theorem witness_HeadAndDuplicateExpire :
    let o : HeadHeard := { id := 0, rank := 0, heardAt := Reset.stamp }
    let v := { atTime 0 300000000 with roll := { Reset.roll with heads := [o], duplicate := some Reset.stamp } }
    o ∈ v.roll.heads ∧ 3 * (ringTables.ring.interval : Int) * 1000000000 ≤ interval o.heardAt v.now ∧
      v.roll.heads = [o] ∧ v.epoch.active = false ∧ v.roll.duplicate = some Reset.stamp := by
  decide

/-- The head's RING table of generation 8, with standby 7, as section 8.8 offers it. -/
def offered : RingTable := { ringTables.ring with gen := 8, standby := some 7 }

/-- A CONFIG for a node. -/
def configFor (n : Nat) : ConfigBody := { target := n, ring := offered }

def configHeader (n : Nat) : Header := { header with target := n, seq := 1 }

theorem witness_ConfigIsJudged :
    let v := spanned { Reset.span with state := .up } { Reset.span with state := .up }
    claims v (.line .west) (configHeader 3) (.config (configFor 3)) = true ∧
      namesOrigin ringTables.ring (configHeader 3).origin = true ∧ (configHeader 3).rev = Side.inRev .west ∧
      (configHeader 3).origin ≠ ringTables.node.id ∧ (configHeader 3).hops ≠ 31 ∧
      (configHeader 3).target = ringTables.node.id ∧ ringTables.node.role ≠ .primary ∧
      State.reset.store.commit = none ∧ offered.gen ≠ 0 ∧ memberChecks ringTables.node offered = true ∧
      State.reset.locks.ring = .opened ∧
      claims v (.line .west) (configHeader 4) (.config (configFor 4)) = true ∧
      (configHeader 4).target ≠ ringTables.node.id ∧ (v.span (Side.other .west)).state ≠ .down ∧
      (let v := memberLive id
       claims v (.line .west) (configHeader 4) (.config (configFor 4)) = true ∧
         (v.span (Side.other .west)).state = .down) ∧
      (let b : ConfigBody := { target := 3, ring := { offered with gen := 0 } }
       claims v (.line .west) (configHeader 3) (.config b) = true ∧ b.ring.gen = 0) ∧
      (let h := { configHeader 3 with hops := 31 }
       claims v (.line .west) h (.config (configFor 3)) = true ∧ h.hops = 31) := by
  decide

/-- Section 8.8: node 6 under STANDBY and node 7 under MEMBER refuse standby 7; node 3 takes it. -/
theorem witness_ConfigIsJudged_refused :
    memberChecks { ringTables.node with id := 6, role := .standby } offered = false ∧
      memberChecks { ringTables.node with id := 7 } offered = false ∧
      (let t := { standbyTables with ring := ringTables.ring }
       claimsAt t (memberLive id) (.line .west) Reset.stamp (toWire (mkFrame t (configHeader 6) (.config (configFor 6)) .plain))
         { hdr := configHeader 6, body := .config (configFor 6) } = true) ∧
      (let t := { ringTables with node := { ringTables.node with role := .primary } }
       claimsAt t (memberLive id) (.line .west) Reset.stamp (frameOf (configHeader 3) (.config (configFor 3)))
         { hdr := configHeader 3, body := .config (configFor 3) } = true) := by
  decide

theorem witness_RestoreAndSoakEnd :
    (let v := { atTime 10 0 with access := ((running id).access.set 1
       { Reset.access with state := .degraded, timer := some { since := Reset.stamp, base := 0 } }) }
     (v.access.get 1).timer = some { since := Reset.stamp, base := 0 } ∧
       ((profile.port.access.get 1).restore : Int) * 1000000000000 ≤ (0 : Nat) + interval Reset.stamp v.now) ∧
      (let p : Point := { Reset.point with state := .raising, soak := some 0, cond := true }
       let v := running (fun v => { v with osc := 312500000, alarms := { v.alarms with points := [p] } })
       v.alarms.points[0]? = some p ∧ p.soak = some 0 ∧ p.state = .raising ∧
         12500000 * (pointCfg profile 0).raiseSoak ≤ v.osc - 0) ∧
      (let p : Point := { Reset.point with state := .clearing, soak := some 0, severity := some .major }
       let v := running (fun v => { v with osc := 1250000000, alarms := { v.alarms with points := [p] } })
       v.alarms.points[0]? = some p ∧ p.severity = some .major ∧ p.state = .clearing ∧
         12500000 * (pointCfg profile 0).clearSoak ≤ v.osc - 0) := by
  decide

/-- A relay entry for a request to node 9 from SE. -/
def relayEntry : RelayEntry := { port := .east, tag := 7, target := 9, since := 0 }

/-- A member whose relay handle 0 is in use under relay sequence 1, 200 ms later. -/
def relaying : Live :=
  { spanned { Reset.span with state := .up } { Reset.span with state := .up } with
    osc := 25000000
    mgmt := { Reset.mgmt with
      relays := { rseq := 1, entry := some relayEntry } :: List.replicate 7 { rseq := 0, entry := none } } }

def relayFields : RelayFields := { handle := 0, rseq := 1, requester := 3, port := .east }

/-- The answer of node 9, and one for node 4. -/
def answerBody : RespBody := { responseBody with relay := some relayFields }

def answerHeader (n : Nat) : Header := { header with origin := 9, target := n, sender := 2, seq := 3 }

theorem witness_RelaysEndOnce :
    relaying.mgmt.relays[0]? = some { rseq := 1, entry := some relayEntry } ∧
      125000 * ringTables.node.relayTimeout ≤ relaying.osc - relayEntry.since ∧
      claims relaying (.line .west) (answerHeader 3) (.response answerBody) = true ∧
      (answerHeader 3).rev = Side.inRev .west ∧ (answerHeader 3).origin ≠ ringTables.node.id ∧
      (answerHeader 3).hops < 31 ∧ (answerHeader 3).target = ringTables.node.id ∧
      answerBody.relay = some relayFields ∧ relayFields.rseq = 1 ∧ relayEntry.tag = answerBody.tag ∧
      claims relaying (.line .west) (answerHeader 4) (.response answerBody) = true ∧
      (answerHeader 4).target ≠ ringTables.node.id ∧ (relaying.span (Side.other .west)).state ≠ .down ∧
      claims (memberLive id) (.line .west) (answerHeader 4) (.response answerBody) = true ∧
      ((memberLive id).span (Side.other .west)).state = .down ∧
      (let h := { answerHeader 3 with hops := 31 }
       claims relaying (.line .west) h (.response answerBody) = true ∧ 31 ≤ h.hops) ∧
      claims relaying (.line .west) (answerHeader 3) (.response responseBody) = true ∧ responseBody.relay = none := by
  decide

theorem witness_RequestsAreServedOrRelayed :
    (let h := { header with target := 255 }
     let b := requestBody
     claims (memberLive id) (.site .east) h (.request b) = true ∧ h.target = 255 ∧ b.op = 1) ∧
      (let h := { header with target := 3 }
       let b := { requestBody with op := 2, code := 2, relay := some relayFields }
       claims (memberLive id) (.line .west) h (.request b) = true ∧ h.rev = Side.inRev .west ∧
         h.origin ≠ ringTables.node.id ∧ h.hops < 31 ∧ b.relay ≠ none ∧ h.target ≠ 255 ∧
         h.target = ringTables.node.id ∧ tableOfId b.code = some .ring) ∧
      (let h := { header with target := 9 }
       let v := spanned { Reset.span with state := .up } { Reset.span with state := .up }
       claims v (.site .east) h (.request requestBody) = true ∧ h.target ≠ ringTables.node.id ∧ h.target ≠ 255 ∧
         h.target ∈ ringTables.ring.members ∧
         Side.east = nearSide ringTables.ring.members ringTables.node.id h.target ∧
         (v.span .east).state ≠ .down ∧ v.mgmt.relays[0]? = some { rseq := 0, entry := none } ∧
         (let w := relaying
          w.mgmt.relays[1]? = some { rseq := 0, entry := none } ∧
            (∃ q ∈ w.mgmt.relays[0]?, q.entry ≠ none) ∧ claims w (.site .east) h (.request requestBody) = true)) ∧
      (claims (memberLive id) (.line .west) header (.request requestBody) = true ∧ requestBody.relay = none ∧
        (let h := { header with target := 20 }
         claims (memberLive id) (.site .west) h (.request requestBody) = true ∧ h.target ∉ ringTables.ring.members) ∧
        (let h := { header with target := 9 }
         claims (memberLive id) (.site .west) h (.request requestBody) = true ∧ h.target ∈ ringTables.ring.members ∧
           (∀ e ∈ [Side.east, .west], ((memberLive id).span e).state = .down) ∧
           claims (memberLive id) (.line .west) h (.request { requestBody with relay := some relayFields }) = true ∧
           h.target ≠ ringTables.node.id)) := by
  refine ⟨by decide, by decide, ?_, by decide⟩
  refine ⟨by decide, by decide, by decide, by decide, by decide, by decide, by decide, by decide, ?_, by decide⟩
  exact ⟨{ rseq := 1, entry := some relayEntry }, rfl, by decide⟩

/-- The blocks with every link up, after the alarm points have taken the conditions that hold. -/
def quiet : Live := linked (finish profile (running id))

/-- A part that hears requests from a site port. -/
def served : State := stateOf profile quiet

theorem witness_ReadServesTheTable :
    heardRequest request served = true ∧
      heardRequest { request with via := .line .east, relay := some relayFields } served = true ∧
      tableEntries served 0 = none ∧ (∃ l, tableEntries served 1 = some l ∧ l.length ≤ 10) ∧
      (∃ l, tableEntries served 5 = some l ∧ l[7]? = some [0, 0, 0, 0, 2, 250, 240, 128] ∧ 12 + 6 + (4 + 8) ≤ 1500) := by
  refine ⟨by decide, by decide, by decide, ⟨_, rfl, by decide⟩, ⟨_, rfl, by decide, by decide⟩⟩

/-- A WRITE of servo entry 0, N = 16. -/
def writeN : WriteArgs := { first := 0, count := 1, entries := [{ index := 0, value := [0, 0, 0, 0, 0, 0, 0, 16] }] }

theorem witness_TakenWriteReplacesTheTable :
    writeAllowed .servo request writeN served = true ∧
      writeTable .servo served.tables writeN.entries =
        some { profile with servo := { profile.servo with n := 16 } } := by
  decide +kernel

/-- The same for RING, at the primary, and for a THERMAL write that names a gradient. -/
theorem witness_TakenWriteReplacesTheTable_ring_and_thermal :
    (let s := stateOf primaryTables (running id)
     let w : WriteArgs := { first := 5, count := 1, entries := [{ index := 5, value := [0, 0, 0, 0, 0, 0, 0, 7] }] }
     writeAllowed .ring request w s = true ∧
       writeTable .ring s.tables w.entries =
         some { primaryTables with ring := { primaryTables.ring with gen := 8, standby := some 7 } }) ∧
      (let w : WriteArgs := { first := 15, count := 1, entries := [{ index := 15, value := [255, 255, 255, 255, 255, 255, 128, 0] }] }
       writeAllowed .thermal request w served = true ∧ (writeTable .thermal served.tables w.entries).isSome = true ∧
         ∃ e ∈ w.entries, e.index < 16) := by
  decide +kernel

theorem witness_RefusedWriteChangesNothing :
    ({ writeN with count := 2 } : WriteArgs).entries.length ≠ 2 ∧
      1 ≤ writeN.count ∧ writeN.entries.length = writeN.count ∧ isRun writeN.first writeN.entries = true ∧
      (let w : WriteArgs := { first := 8, count := 1, entries := [{ index := 8, value := [0] }] }
       isRun w.first w.entries = true ∧ ∃ e ∈ w.entries, lastIndex .servo < e.index) ∧
      (∀ e ∈ writeN.entries, e.index ≤ lastIndex .servo) ∧
      (let s := { served with tables := { profile with node := { profile.node with ringGuard := true } } }
       let env : ReqEnv := { request with via := .line .east, relay := some relayFields }
       heardRequest env s = true ∧ s.tables.node.ringGuard = true) ∧
      image.locks.get .servo ≠ .opened ∧ ({ State.reset.store with commit := some image } : Store).commit ≠ none ∧
      profile.node.role ≠ .primary ∧ served.locks.get .servo = .opened ∧ served.store.commit = none ∧
      writeTable .servo served.tables [{ index := 0, value := [] }] = none := by
  decide

theorem witness_ClearHistoryEmptiesTheHistory :
    heardRequest request served = true ∧ served.tables.node.ringGuard = false := by
  decide

theorem witness_CommandsActOnTheBlocks :
    heardRequest request served = true ∧ served.tables.node.ringGuard = false ∧ candOfIndex 2 = some .rev ∧
      (served.live.cands.get .rev).isAvailable = false ∧
      (let v := running (fun v => { v with cands := { v.cands with rev := { v.cands.rev with state := .available } } })
       candOfIndex 2 = some .rev ∧ (v.cands.get .rev).isAvailable = true) ∧
      (let s := { served with tables := { profile with node := { profile.node with ringGuard := true } } }
       let env : ReqEnv := { request with via := .line .east, relay := some relayFields }
       heardRequest env s = true ∧ s.tables.node.ringGuard = true) := by
  decide

theorem witness_LockStatesFollowTheTable :
    heardRequest request served = true ∧ served.tables.node.ringGuard = false ∧ tableOfId 5 = some .servo ∧
      lockLevel [{ index := 0, value := [1] }] = some .lockedDown ∧
      lockLevel [{ index := 0, value := [0] }] = some .locked ∧ served.live.guard = false ∧
      served.store.commit = none ∧ served.locks.get .servo ≠ .lockedDown ∧ image.locks.get .servo = .lockedDown := by
  decide

theorem witness_CommitAndReloadMoveTheTables :
    heardRequest request served = true ∧ served.tables.node.ringGuard = false ∧ served.store.commit = none ∧
      served.store.image = none ∧ image.locks.get .servo = .lockedDown ∧ image.locks.thermal ≠ .lockedDown ∧
      (let st : Store := { State.reset.store with image := some image, commit := some image }
       st.image = some image ∧ st.commit = some image ∧ st.commit ≠ none) ∧
      (let i := { image with tables := { image.tables with thermal := { image.tables.thermal with grads := [1] } } }
       served.tables.thermal.grads ≠ i.tables.thermal.grads) := by
  decide

theorem witness_FrameRoundTrip :
    (own (.epoch epochBody)).frame.wf = true ∧ (own (.request requestBody)).frame.wf = true := by
  decide

theorem witness_FrameRoundTrip_roll : (own (.roll (rollBody slots))).frame.wf = true := by decide +kernel

theorem witness_ParsedFramesAreWellFormed :
    parseFrame (frameOf header (.epoch epochBody)).payload = some { hdr := header, body := .epoch epochBody } := by
  decide

theorem witness_TablesStandWhileTheyMust :
    let s := { stateOf profile { running id with guard := true } with
      locks := image.locks, store := { State.reset.store with commit := some image } }
    (∃ t, exec (.holdoverTick 0) s = .next t) ∧ (∀ n, Instr.holdoverTick 0 ≠ .powerOn n) ∧
      s.locks.get .servo = .lockedDown ∧ isHardReset (.holdoverTick 0) = false ∧ s.live.guard = true ∧
      s.store.commit ≠ none := by
  refine ⟨⟨_, rfl⟩, fun n h => Instr.noConfusion h, by decide, by decide, by decide, by decide⟩

theorem witness_EveryStepKeepsTheRanges :
    let s := { plainState with pending := [Instr.epochInstantCrossing 125000000] }
    s.live.ts.sound = true ∧ s.live.portsSound = true ∧ s.live.historiesSound = true ∧ s.live.countsSound = true ∧
      ∃ t, step s = .next t := by
  refine ⟨by decide, by decide, by decide, by decide, ⟨_, rfl⟩⟩

theorem witness_TimeMovesOnlyBySamples :
    (∃ t, exec (.pulseCrossing 125000000 1) plainState = .next t) ∧ isHardReset (.pulseCrossing 125000000 1) = false ∧
      mayBringSample (.pulseCrossing 125000000 1) = false := by
  refine ⟨⟨_, rfl⟩, by decide, by decide⟩

/-! ## Each command, on a state of the tests -/

/-- The blocks, the tables and the whole state after a command. -/
def after (c : Instr) (s : State) : State :=
  match exec c s with
  | .next t => t
  | _ => s

/-- The status and the entries of the response that a request from SE leaves being sent there. -/
def answered (s : State) : Option (Status × List Entry) :=
  match (s.live.port (.site .east)).sending with
  | some (.own q) => match q.frame.body with
    | .response b => some (b.status, b.entries)
    | _ => none
  | _ => none

theorem test_step_takes_the_front :
    step { plainState with pending := [.guardChange 0 true, .guardChange 0 false] } =
      .next (after (.guardChange 0 true) { plainState with pending := [.guardChange 0 false] }) := rfl

/-- R1: under F_total 0 one period is 8,000 ps. -/
theorem test_idle_period :
    (idle State.reset).live.ts.value = { sec := 0, ns := 8, ps := 0 } ∧ (idle State.reset).live.osc = 1 := by
  decide +kernel

/-- R1: a second of oscillator time under −3,137,790 ppt loses 3,137,790 ps. -/
theorem test_second_under_f_total :
    (TimeScale.advance 125000000 { Reset.ts with fTotal := -3137790 }).value =
      { sec := 0, ns := 999996862, ps := 210 } := by
  decide

/-- R190: a store never committed gives the built-in profile, every table OPEN, and STORE-FAULT. -/
theorem test_power_on :
    let s := after (.powerOn 0) { plainState with tables := ringTables }
    s.tables.ring = Config.ring ∧ s.live.part = .loading ∧ s.live.storeFault = true ∧
      s.tables.node.serial = profile.node.serial := by
  decide

/-- R190: the pin keeps a LOCKED-DOWN table and loads the others. -/
theorem test_resetn :
    let s := after (.resetn 0) { plainState with
      tables := { profile with servo := { profile.servo with n := 16 } }
      locks := image.locks, store := { State.reset.store with image := some image } }
    s.tables.servo.n = 16 ∧ s.tables.ring = ringTables.ring ∧ s.locks.servo = .lockedDown := by
  decide

/-- R104, R177: the primary is active from its entry to RUNNING, and FREERUN is RAISING under its 5 s soak. -/
theorem test_loading_end :
    let s := after (.loadingEnd 0) { State.reset with tables := primaryTables }
    s.live.part = .running ∧ s.live.epoch.active = true ∧
      (s.live.alarms.points[5]?).map (·.state) = some .raising := by
  decide

/-- R191: the holdover history is kept and the servo starts in FREERUN. -/
theorem test_soft_restart_effect :
    let s := after (.softRestartEffect 0) (stateOf profile (running (fun v => { v with
      restartDue := true, servo := { lockedServo with history := [1, 2] } })))
    s.live.servo.history = [1, 2] ∧ s.live.servo.state = .freerun ∧ s.live.servo.integ = -3000000 := by
  decide

/-- Section 10.8: SPAN-DOWN East is RAISED at once (soak 0) with MAJOR, and the summary is MAJOR. -/
theorem test_link_down :
    let v := spanned { Reset.span with state := .up } { Reset.span with state := .up }
    let s := after (.linkDown 0 (.line .east)) (stateOf ringTables v)
    (s.live.span .east).state = .down ∧ (s.live.port (.line .east)).linkLost = true ∧
      (s.live.alarms.points[6]?).map (·.state) = some .raised ∧ s.live.alarms.summary = some .major := by
  decide

theorem test_link_up_grants :
    let v := quiet.mapPort (.site .east) (fun x => { x with link := false, queue := [own (.response responseBody)] })
    let s := after (.linkUp 0 (.site .east)) (stateOf profile v)
    (s.live.port (.site .east)).link = true ∧ (s.live.port (.site .east)).queue = [] ∧
      answered s = some (.done, []) := by
  decide

theorem test_guard_change :
    (after (.guardChange 0 true) plainState).live.guard = true := by decide

/-- Section 2.7, t0: the first usable second gives QUALIFYING and expected seconds 1,700,000,501. -/
theorem test_refp_pulse_of_section_2_7 :
    let v := refLive .unavailable (some (announced 1700000500 true 0)) none 0
    let s := after (.refpPulse 0) (stateOf profile v)
    s.live.cands.ref.state = .qualifying ∧ s.live.refIn.expected = some 1700000501 ∧ s.live.cands.ref.offered = .q0 := by
  decide

/-- Section 2.7, t4: a jump leaves REF QUALIFYING, counts, and resumes at 1,700,000,507. -/
theorem test_jump_of_section_2_7 :
    let v := refLive .qualifying (some (announced 1700000506 true 0)) (some 1700000504) 0
    let s := after (.refpPulse 0) (stateOf profile v)
    s.live.cands.ref.state = .qualifying ∧ s.live.refIn.expected = some 1700000507 ∧ s.live.refIn.jumps = 1 := by
  decide

theorem test_reft_announcement :
    (after (.reftAnnouncement 0 (announced 9 true 0)) (stateOf profile (refLive .qualifying none none 0))).live.refIn.pending =
      some (announced 9 true 0) := by
  decide

/-- R33: 1.1 s without a pulse is an unusable second. -/
theorem test_missing_second :
    let v := { atTime 1 100000000 with
      cands := (refLive .qualifying none none 0).cands, refIn := { Reset.refIn Reset.stamp with expected := some 4 } }
    let s := after (.missingSecond 0) (stateOf profile v)
    s.live.refIn.expected = some 5 ∧ s.live.refIn.unusable = 1 := by
  decide

/-- R30: at 2 s of qualifying a ring candidate is AVAILABLE, and from FREERUN it is selected. -/
theorem test_qualify_time_reached :
    let v := { atTime 2 0 with cands := ⟨Reset.cand false, hearing .qualifying .q1, Reset.cand true⟩ }
    let s := after (.qualifyTimeReached 0 .fwd) (stateOf profile v)
    s.live.cands.fwd.state = .selected ∧ s.live.servo.state = .acquire := by
  decide

/-- Section 6.8: 0.375 s after the last EPOCH the entry expires and the candidate is UNAVAILABLE. -/
theorem test_origin_entry_expiry :
    let v := { atTime 0 375000000 with cands := ⟨Reset.cand false, hearing .available .q1, Reset.cand true⟩ }
    let s := after (.originEntryExpiry 0 .west 0) (stateOf profile v)
    s.live.cands.fwd.origins = [] ∧ s.live.cands.fwd.state = .unavailable := by
  decide

/-- Section 3.6: a reading of 41.5 °C gives −2,790 ppt and the zone NORMAL. -/
theorem test_sensor_reading_of_section_3_6 :
    let t := { profile with thermal := { profile.thermal with
      grads := [0, 0, 0, 0, 0, 0, 0, 0, -120, -180, -260, 0, 0, 0, 0, 0] } }
    let s := after (.sensorReading 125000000 (some 664)) (stateOf t (running id))
    s.live.thermal.fTemp = -2790 ∧ s.live.thermal.zone = some .normal ∧ s.live.ts.fTotal = -2790 := by
  decide

theorem test_holdover_tick_of_section_4_8 :
    let s := after (.holdoverTick 0) (stateOf profile (stayAt 3599 35990))
    s.live.hold.e = 71750 ∧ s.live.ownClass = .q2 := by
  decide

theorem test_pulse_crossing :
    (after (.pulseCrossing 0 0) (stateOf profile (atTime 1 0))).live.ts.k.a0 = 2 := by decide

theorem test_epoch_instant_crossing :
    (after (.epochInstantCrossing 0) (stateOf profile (atTime 0 0))).live.epoch.j = 125000000 := by decide

theorem test_access_epoch_crossing :
    ((after (.accessEpochCrossing 0 2) (stateOf profile (atTime 0 0))).live.access.get 2).jp = 125000000 := by decide

/-- Section 5.6: the interval that begins with the link up takes a DOWN span to PROBING and sends probe 1. -/
theorem test_probe_interval :
    let v := spanned { Reset.span with nextProbe := some 0 } Reset.span
    let s := after (.probeInterval 0 .east) (stateOf ringTables v)
    (s.live.span .east).state = .probing ∧ (s.live.span .east).probeSeq = 1 := by
  decide +kernel

theorem test_reply_wait_timeout :
    let s := after (.replyWaitTimeout 0 .east) (stateOf ringTables (waiting 2))
    (s.live.span .east).state = .down ∧ (s.live.span .east).timeouts = 1 := by
  decide

/-- Section 6.8: the standby takes over at 5 s and counts it. -/
theorem test_takeover_of_section_6_8 :
    let v := standbyAt 5 (fun v => { v with
      servo := { v.servo with state := .locked }, selection := some .ref
      cands := { v.cands with ref := { v.cands.ref with state := .selected, offered := .q0 } }
      epoch := { v.epoch with takeover := some { since := Reset.stamp, base := 0 } } })
    let t := { standbyTables with node := { standbyTables.node with refFitted := true } }
    let s := after (.takeoverTimeReached 0) (stateOf t v)
    s.live.epoch.active = true ∧ s.live.epoch.takeovers = 1 ∧ s.live.epoch.revert = none := by
  decide

def reverting (sec ns : Nat) : Live :=
  let r : RevertWatch := { start := Reset.stamp, lastQual := Reset.stamp, gapSince := Reset.stamp }
  let v := atTime sec ns
  { v with epoch := { v.epoch with active := true, revert := some r } }

theorem test_revert_watch_gap_expiry :
    (after (.revertWatchGapExpiry 0) (stateOf standbyTables (reverting 0 375000000))).live.epoch.revert = none := by
  decide

theorem test_revert_hold_off_reached :
    let s := after (.revertHoldOffReached 0) (stateOf standbyTables (reverting 10 0))
    s.live.epoch.active = false ∧ s.live.epoch.reverts = 1 := by
  decide

/-- Section 7.5: cycle 2,041 begins with the forward ROLL. -/
theorem test_roll_clock_tick :
    let s := after (.rollClockTick 0) (stateOf primaryTables (headLive .up .up none (atTime 0 100000000)))
    s.live.roll.seq = 2041 ∧ s.live.roll.cycle.isSome = true ∧ (s.live.port (.line .east)).sending.isSome = true := by
  decide

theorem test_roll_timeout :
    let s := after (.rollTimeout 0) (stateOf primaryTables (headLive .up .up (some cycle2041) (atTime 0 20000000)))
    s.live.roll.rollTimeouts = 1 ∧ (s.live.port (.line .west)).sending.isSome = true := by
  decide

theorem test_head_entry_expiry :
    let o : HeadHeard := { id := 0, rank := 0, heardAt := Reset.stamp }
    let v := { atTime 0 300000000 with roll := { Reset.roll with heads := [o], status := .forward } }
    let s := after (.headEntryExpiry 0 0) (stateOf ringTables v)
    s.live.roll.heads = [] ∧ s.live.roll.status = .unknown := by
  decide

theorem test_duplicate_flag_expiry :
    let v := { atTime 0 300000000 with roll := { Reset.roll with duplicate := some Reset.stamp } }
    (after (.duplicateFlagExpiry 0) (stateOf ringTables v)).live.roll.duplicate = none := by
  decide

theorem test_restore_time_reached :
    let v := { atTime 10 0 with access := ((running id).access.set 1
      { Reset.access with state := .degraded, timer := some { since := Reset.stamp, base := 0 } }) }
    let t := { profile with port := { profile.port with
      access := profile.port.access.set 1 { Config.access with mode := .both, floor := .q4 } } }
    ((after (.restoreTimeReached 0 1) (stateOf t v)).live.access.get 1).state = .deliver := by
  decide

/-- R168, R170: after 2.5 s in RAISING, REF-LOSS is RAISED with MAJOR and its raise count is 1. -/
theorem test_soak_end :
    let v := { quiet with
      osc := 312500000
      cands := { quiet.cands with ref := { quiet.cands.ref with state := .unavailable } }
      alarms := { quiet.alarms with
        points := { Reset.point with state := .raising, soak := some 0, cond := true } :: quiet.alarms.points.drop 1 } }
    let t := { profile with node := { profile.node with refFitted := true } }
    let s := after (.soakEnd 0 0) (stateOf t v)
    (s.live.alarms.points[0]?).map (fun p => (p.state, p.severity, p.raises)) = some (.raised, some .major, 1) ∧
      (s.live.alarms.history.getLast?).map (·.kind) = some 0 := by
  decide

/-- Section 11.7: at 200 ms the entry is freed; its answer at 203 ms is then late. -/
theorem test_relay_timeout_of_section_11_7 :
    let s := after (.relayTimeout 0 0) (stateOf ringTables relaying)
    let u := after (.frameReceiveDiscard 0 (.line .west) .begins rawFrame) s
    (s.live.mgmt.relays[0]?).map (·.entry) = some none ∧
      (after (.mgmtResponseArrival 375000 .west .ends (frameOf (answerHeader 3) (.response answerBody))) u).live.mgmt.late
        = 1 := by
  decide +kernel

theorem test_commit_end :
    let s := after (.commitEnd 0 false) { plainState with store := { State.reset.store with commit := some image } }
    s.live.storeFault = true ∧ s.store.commit = none ∧ s.store.image = none := by
  decide

theorem test_through_frame_arrival :
    let s := after (.throughFrameArrival 0 (.line .east) .ends (alien 46))
      (stateOf ringTables (receivingAt (.line .east) Reset.stamp (memberLive id)))
    (s.live.port (.site .east)).sending = some (.through (alien 46)) := by
  decide

theorem test_frame_receive_discard :
    let s := after (.frameReceiveDiscard 0 (.line .east) .ends (alien 45))
      (stateOf ringTables (receivingAt (.line .east) Reset.stamp (memberLive id)))
    (s.live.port (.line .east)).short = 1 := by
  decide

/-- Section 6.8: the EPOCH goes out of LE with hop count 3, and 1,215,000 ps later its correction is 56,834,500 ps;
RING-FWD has formed a sample of 240 ns. -/
theorem test_epoch_of_section_6_8 :
    let v := epochMember { Reset.span with state := .up } { Reset.cand true with state := .selected }
    let v := { v.mapPort (.line .east) (fun _ => busy []) with
      ts := { v.ts with value := epochStamp.time }, selection := some .fwd
      servo := { Reset.servo with state := .acquire } }
    let s := after (.epochArrival 0 .west .ends (frameOf header (.epoch epochBody)))
      (stateOf ringTables (receivingAt (.line .west) epochStamp v))
    s.live.cands.fwd.last.map (·.1) = some 240 ∧ s.live.servo.queue = [⟨240, true⟩] ∧
      ((s.live.port (.line .east)).queue.map (fun q => (q.frame.hdr.hops, q.frame.hdr.sender))) = [(3, 3)] ∧
      correctionOut 18207500 epochStamp { time := { sec := 1700000000, ns := 57075, ps := 0 }, steps := 0 } 37412000 =
        56834500 := by
  decide +kernel

theorem test_span_probe_arrival :
    let s := after (.spanProbeArrival 0 .east .ends (frameOf probeHeader (.probe 77)))
      (stateOf ringTables (receivingAt (.line .east) Reset.stamp (memberLive id)))
    (s.live.port (.line .east)).sending.isSome = true := by
  decide

/-- Section 5.6: d_f moves from 18,200,000 to 18,207,500 ps, the last sample is 36,220,000 and 18,260,000. -/
theorem test_span_reply_of_section_5_6 :
    let f := toWire (mkFrame spanTables replyHeader replyBody .plain)
    let s := after (.spanReplyArrival 0 .west .ends f)
      (stateOf spanTables (receivingAt (.line .west) replyStamp (spanned Reset.span westSpan)))
    (s.live.span .west).df = some 18207500 ∧ (s.live.span .west).last = some (36220000, 18260000) ∧
      (s.live.span .west).accepted = 10 ∧ (s.live.span .west).outstanding = none := by
  decide +kernel

theorem test_roll_arrival :
    let v := spanned { Reset.span with state := .up } { Reset.span with state := .up }
    let s := after (.rollArrival 0 .west .ends (frameOf rollHeader (.roll (rollBody slots))))
      (stateOf ringTables (receivingAt (.line .west) Reset.stamp v))
    s.live.roll.status = .loopbackBoth ∧ (s.live.roll.map[5]?).map (·.presence) = some .silent := by
  decide +kernel

/-- Section 8.8: node 3 adopts generation 8; node 7 under MEMBER refuses it. -/
theorem test_config_of_section_8_8 :
    let v := spanned { Reset.span with state := .up } { Reset.span with state := .up }
    let s := after (.configArrival 0 .west .ends (frameOf (configHeader 3) (.config (configFor 3))))
      (stateOf ringTables (receivingAt (.line .west) Reset.stamp v))
    let t := { ringTables with node := { ringTables.node with id := 7 } }
    let w := after (.configArrival 0 .west .ends (frameOf (configHeader 7) (.config (configFor 7))))
      (stateOf t (receivingAt (.line .west) Reset.stamp v))
    s.tables.ring = offered ∧ w.tables.ring = ringTables.ring ∧ w.live.roll.rejectedGen = some 8 := by
  decide +kernel

/-- Section 11.7: node 2 sends a request for node 9 out of LW under handle 0, relay sequence 15. -/
theorem test_relay_of_section_11_7 :
    let t := { ringTables with node := { ringTables.node with id := 2 } }
    let v := spanned { Reset.span with state := .up } { Reset.span with state := .up }
    let v := { v with mgmt := { v.mgmt with relays := { rseq := 14, entry := none } :: v.mgmt.relays.drop 1 } }
    let f := toWire (mkFrame t { header with target := 9 } (.request { requestBody with tag := 0x0411 }) .plain)
    let s := after (.mgmtRequestArrival 0 (.site .east) .ends f)
      (stateOf t (receivingAt (.site .east) Reset.stamp v))
    (s.live.port (.line .west)).sending.isSome = true ∧
      (s.live.mgmt.relays[0]?) =
        some { rseq := 15, entry := some { port := .east, tag := 0x0411, target := 9, since := 0 } } := by
  decide +kernel

theorem test_mgmt_response_arrival :
    let s := after (.mgmtResponseArrival 0 .west .ends (frameOf (answerHeader 3) (.response answerBody)))
      (stateOf ringTables (receivingAt (.line .west) Reset.stamp relaying))
    (s.live.port (.site .east)).sending.isSome = true ∧ (s.live.mgmt.relays[0]?).map (·.entry) = some none := by
  decide +kernel

theorem test_access_span_probe :
    let s := after (.accessSpanProbe 0 1 .ends (frameOf probeHeader (.probe 77)))
      (stateOf ringTables (receivingAt (.access 1) Reset.stamp (memberLive id)))
    (s.live.access.get 1).unanswered = 1 := by
  decide

theorem test_transmission_end_of_a_restart :
    let q : QFrame := { own (.response responseBody) with note := .restart }
    let v := quiet.mapPort (.site .east) (fun _ => { busy [] with sending := some (.own q) })
    let s := after (.transmissionEnd 0 (.site .east)) (stateOf profile v)
    s.live.restartDue = true ∧ (s.live.port (.site .east)).sending = none := by
  decide

/-- The default limit of 50,000,000 ppt is entry 7 of SERVO. -/
theorem test_read :
    answered (after (.read 0 request 5 7 4) served) =
      some (.done, [{ index := 7, value := [0, 0, 0, 0, 2, 250, 240, 128] }]) ∧
      answered (after (.read 0 request 0 0 1) served) = some (.badTable, []) := by
  decide +kernel

theorem test_write_node :
    (after (.writeNode 0 request { first := 3, count := 1, entries := [{ index := 3, value := [1] }] }) served).tables.node.refFitted
      = true := by
  decide +kernel

theorem test_write_ring_at_a_member :
    answered (after (.writeRing 0 request { first := 5, count := 1, entries := [{ index := 5, value := [0] }] }) served) =
      some (.notHead, []) := by
  decide +kernel

theorem test_write_port :
    let w : WriteArgs := { first := 0, count := 1, entries := [{ index := 0, value := [0, 1, 1, 0, 0] }] }
    (after (.writePort 0 request w) served).tables.port.line.east = { Config.line with freeze := true } := by
  decide +kernel

theorem test_write_candidate :
    let w : WriteArgs := { first := 2, count := 1, entries := [{ index := 2, value := [1, 0, 0, 0] }] }
    let s := after (.writeCandidate 0 request w) served
    s.tables.cand.rev.enabled = false ∧ s.live.cands.rev.state = .disabled := by
  decide +kernel

theorem test_write_servo :
    (after (.writeServo 0 request writeN) served).tables.servo.n = 16 := by decide +kernel

/-- R60: a THERMAL write that names a gradient empties the holdover history. -/
theorem test_write_thermal :
    let w : WriteArgs := { first := 15, count := 1, entries := [{ index := 15, value := [255, 255, 255, 255, 255, 255, 128, 0] }] }
    let v := running (fun v => { linked v with servo := { v.servo with history := [4] } })
    let s := after (.writeThermal 0 request w) (stateOf profile v)
    s.live.servo.history = [] ∧ s.tables.thermal.grads[15]? = some (-32768) := by
  decide +kernel

/-- R74: a limit 2 below the running limit 1 is refused whole. -/
theorem test_write_quality :
    let w : WriteArgs := { first := 1, count := 1, entries := [{ index := 1, value := [0, 0, 0, 0, 0, 0, 1, 0x2C] }] }
    answered (after (.writeQuality 0 request w) served) = some (.badValue, []) ∧
      (after (.writeQuality 0 request w) served).tables = served.tables := by
  decide +kernel

theorem test_write_alarm_profile :
    let w : WriteArgs := { first := 8, count := 1, entries := [{ index := 8, value := [0, 1, 0, 0, 0] }] }
    ((after (.writeAlarmProfile 0 request w) served).tables.alarm[8]?).map (·.report) = some false := by
  decide +kernel

theorem test_clear_counters :
    let v := running (fun v => { linked v with roll := { v.roll with loopSwitches := 3, cycleTime := some 5 } })
    let s := after (.clearCounters 0 request) (stateOf profile v)
    s.live.roll.loopSwitches = 0 ∧ s.live.roll.cycleTime = some 5 := by
  decide

/-- Section 10.8: the history of 64 and its overwrite count go. -/
theorem test_clear_history :
    let r : AlarmRecord := { kind := 6, inst := 0, cleared := false, severity := .major, time := 0 }
    let v := { quiet with alarms := { quiet.alarms with history := List.replicate 64 r, overwrites := 140 } }
    let s := after (.clearHistory 0 request) (stateOf profile v)
    s.live.alarms.history = [] ∧ s.live.alarms.overwrites = 0 := by
  decide

/-- R191: the response is answered first; the restart is not yet due. -/
theorem test_soft_restart :
    let s := after (.softRestart 0 request) served
    answered s = some (.done, []) ∧ s.live.restartDue = false := by
  decide

theorem test_reload_profile :
    let s := after (.reloadProfile 0 request) { served with store := { State.reset.store with image := some image } }
    s.tables.ring = ringTables.ring ∧ answered (after (.reloadProfile 0 request) served) = some (.badStore, []) := by
  decide

theorem test_commit_profile :
    let s := after (.commitProfile 0 request) served
    s.store.commit = some { tables := profile, locks := served.locks } ∧ answered s = some (.done, []) := by
  decide

theorem test_lock_table :
    let s := after (.lockTable 0 request 5 [{ index := 0, value := [1] }]) served
    s.locks.servo = .lockedDown ∧ answered (after (.unlockTable 0 request 5) s) = some (.done, []) := by
  decide

theorem test_unlock_table :
    let s := { served with locks := image.locks }
    (after (.unlockTable 0 request 5) s).locks.servo = .lockedDown ∧
      answered (after (.unlockTable 0 request 5) s) = some (.locked, []) := by
  decide

/-- R45: a candidate that is not available is refused with NOT-NOW. -/
theorem test_select :
    answered (after (.select 0 request 2) served) = some (.notNow, []) ∧
      answered (after (.select 0 request 3) served) = some (.badValue, []) := by
  decide

theorem test_clear_select :
    let s := { served with live := { served.live with manual := some .rev } }
    (after (.clearSelect 0 request) s).live.manual = none ∧
      answered (after (.clearSelect 0 request) s) = some (.done, []) := by
  decide

/-! ## More witnesses, at the boundaries of the clauses -/

/-- The built-in profile with a raise soak and a clear soak of every alarm kind as given. -/
def soaking (raise clear : Nat) : Tables :=
  { profile with alarm := profile.alarm.map (fun c => { c with raiseSoak := raise, clearSoak := clear }) }

theorem witness_LoadingEndEntersRunning_points :
    State.reset.live.alarms.points = List.replicate 21 Reset.point ∧ (State.reset.live.span .east).state = .down ∧
      (State.reset.live.span .west).state = .down ∧ (pointCfg profile 6).raiseSoak = 0 ∧
      0 < (pointCfg (soaking 1 1) 7).raiseSoak := by
  decide

theorem witness_CrossingsAtAnAccessPort_states :
    let t (m : AccessMode) (l : LossBehaviour) : AccessCfg := { Config.access with mode := m, loss := l }
    drivesPulses (t .both .continue) .degraded = true ∧ drivesPulses (t .pulse .mark) .degraded = false ∧
      drivesPulses (t .frames .mark) .deliver = false ∧ sendsEpochs (t .frames .mark) .degraded = true ∧
      sendsEpochs (t .pulse .mark) .deliver = false ∧ sendsEpochs (t .both .squelch) .squelched = false := by
  decide

theorem witness_EpochInstantMovesOn_spans :
    ((memberLive id).span .east).state = .down ∧
      ((spanned { Reset.span with state := .probing } Reset.span).span .east).state ≠ .down := by
  decide

/-- A servo of the given state with seven entries in its queue, and a last offset of 230. -/
def seven (st : ServoState) (ungated : Bool) : Servo :=
  { lockedServo with state := st, queue := List.replicate 7 ⟨240, true⟩, ungated := ungated }

theorem witness_SamplesAreTakenByState_at_the_window_end :
    profile.servo.n ≤ (seven .acquire false).queue.length + 1 ∧ (seven .acquire false).state = .acquire ∧
      (seven .locked true).state = .locked ∧ (seven .locked true).ungated = true ∧
      ((730 : Int) - (seven .locked false).lastTheta).natAbs ≤ profile.servo.gate ∧
      profile.servo.gate < ((731 : Int) - (seven .locked false).lastTheta).natAbs ∧
      (999999999 : Int).natAbs < 1000000000 ∧ 1000000000 ≤ (1000000000 : Int).natAbs := by
  decide

theorem witness_LossEntersHoldoverOrFreerun_acquire_and_rearm :
    let v (s : Servo) := running (fun v => { v with servo := s, hold := { v.hold with fHold := some 60000000 } })
    (v (Reset.servo)).servo.state = .freerun ∧ (v { Reset.servo with state := .holdover }).servo.state = .holdover ∧
      (v { Reset.servo with state := .holdover }).hold.fHold = some 60000000 ∧
      (enterAcquire profile (v { Reset.servo with state := .holdover })).servo.integ = 50000000 ∧
      (v lockedServo).servo.state = .locked ∧ (v (acquiring 5 1)).servo.state = .acquire := by
  decide

/-- REF available with class Q0, RING-FWD selected with class Q1 at three hops. -/
def choosing : Live :=
  running (fun v => { v with
    selection := some .fwd
    servo := lockedServo
    cands := { v.cands with
      ref := { v.cands.ref with state := .available, offered := .q0 }
      fwd := { v.cands.fwd with state := .selected, offered := .q1, hops := some 3 } } })

theorem witness_BestKeyIsChosen_changes :
    ((choosing.cands.get Side.west.cand).hops = some 3 ∧
      keyBetter (selectionKey profile choosing .ref) (selectionKey profile choosing .fwd) = true ∧
      target profile (cancelManual choosing) = some .ref ∧ some Cand.ref ≠ choosing.selection ∧
      (choosing.cands.get .fwd).state = .selected ∧ choosing.selection ≠ some .rev) ∧
      (let v := { choosing with manual := some .fwd }
       v.manual = some .fwd ∧ (v.cands.get .fwd).isAvailable = true ∧ target profile (cancelManual v) = v.selection) ∧
      (let v := { choosing with manual := some .rev }
       v.manual = some .rev ∧ (v.cands.get .rev).isAvailable = false) ∧
      (let v := { choosing with selection := none }
       target profile (cancelManual v) = some .ref ∧ v.selection = none) ∧
      (let v := { choosing with cands := (running id).cands }
       target profile (cancelManual v) = none ∧ v.selection = some .fwd) := by
  decide

theorem witness_CandidatesQualifyAndExpire_epoch :
    let h : Header := { header with origin := 6 }
    let o : OriginHeard :=
      { id := 0, rank := 0, cls := .q1, hops := 3, heardAt := Reset.stamp, gapSince := Reset.stamp }
    let v (st : CandState) := { atTime 0 0 with cands := ⟨Reset.cand false,
      { hearing st .q1 with preferred := some 0, hops := some 3 }, Reset.cand true⟩ }
    let b (c : QClass) : EpochBody := { epochBody with cls := c, rank := 1 }
    (v .available).cands.fwd.origins = [] ++ o :: [] ∧
      header.origin = 0 ∧ (∀ y ∈ (v .available).cands.fwd.origins, y.id ≠ h.origin) ∧
      (v .selected).cands.fwd.state = .selected ∧
      (hearEpoch profile .fwd h (b .q0) 5 (v .selected)).2.cands.fwd.preferred = some 6 ∧
      (hearEpoch profile .fwd h (b .q0) 5 (v .selected)).1 = true ∧
      (hearEpoch profile .fwd h (b .q2) 5 (v .available)).1 = false ∧
      (Reset.cand true).state = .unavailable ∧ 1 ≤ (profile.cand.get .fwd).qualify ∧
      (hearEpoch profile .fwd header (b .q4) 5 (v .available)).2.cands.fwd.offered = .q4 := by
  decide

theorem witness_ZoneHoldsItsTemperature_moves :
    Config.thermal.th < Config.thermal.tb - Config.thermal.ta ∧ Config.thermal.th < Config.thermal.tc - Config.thermal.tb ∧
      moveZone Config.thermal (-32) .cold = .normal ∧ moveZone Config.thermal 767 .cold = .normal ∧
      moveZone Config.thermal 768 .cold = .warm ∧ moveZone Config.thermal 1168 .cold = .hot ∧
      moveZone Config.thermal (-81) .hot = .cold ∧ moveZone Config.thermal (-80) .hot = .normal ∧
      moveZone Config.thermal 719 .hot = .normal ∧ moveZone Config.thermal 720 .hot = .warm ∧
      moveZone Config.thermal 1119 .hot = .warm := by
  decide

theorem witness_TemperatureCorrectionIsBounded_bands :
    (384 : Int) < 385 ∧ (383 : Int) < 384 ∧ fTempOf (List.replicate 16 32) 385 = 2 ∧
      fTempOf (List.replicate 16 32) 383 = -2 ∧ (-640 : Int) ≤ -640 ∧
      fTempOf (List.replicate 16 32767) (-640) = -2097088 := by
  decide

/-- A part whose access port 1 is as given. -/
def accessed (own : QClass) (a : AccessPort) : Live :=
  { atTime 10 0 with ownClass := own, access := (running id).access.set 1 a }

/-- An access port of the given state and restore timer. -/
def accessPort (st : AccessState) (tm : Option Timer) : AccessPort := { Reset.access with state := st, timer := tm }

theorem witness_OwnClassFollowsTheServo_ports :
    let v := accessed .q1 (accessPort .deliver none)
    let w := accessed .q4 (accessPort .degraded (some { since := Reset.stamp, base := 0 }))
    (v.access.get 1).state = .deliver ∧ QClass.q3.num ≤ (profile.port.access.get 1).floor.num ∧
      (profile.port.access.get 1).floor.num < QClass.q4.num ∧ (w.access.get 1).state = .degraded ∧
      QClass.q1.num < QClass.q2.num ∧ (w.access.get 1).timer ≠ none ∧
      ((accessed .q4 (accessPort .squelched none)).access.get 1).timer = none ∧ ((running id).access.get 0).state = .off ∧
      (∀ i : Fin 4, (v.access.get i).state = .deliver → v.ownClass.num ≤ (profile.port.access.get i).floor.num) ∧
      ((judgeAccess profile .q1 .q4 1 v).access.get 1).state = .squelched ∧
      ((judgeAccess profile .q1 .q2 1 w).access.get 1).timer = some { since := w.now, base := 0 } ∧
      ((judgeAccess profile .q4 .q2 1 w).access.get 1).timer = some { since := w.now, base := 0 } := by
  decide

theorem witness_OwnClassFollowsTheServo_writes :
    let c := Config.access
    let v (own : QClass) (st : AccessState) := accessed own (accessPort st none)
    c.mode ≠ AccessMode.both ∧ c.loss ≠ .mark ∧ c.floor ≠ .q2 ∧
      ((applyMode c { c with mode := .both } 1 (v .q3 .off)).access.get 1).state = .squelched ∧
      ((applyMode c { c with mode := .both } 1 (v .q3 .off)).access.get 1).timer ≠ none ∧
      ((applyMode { c with mode := .both } c 1 (v .q3 .deliver)).access.get 1).state = .off ∧
      QClass.q3.num ≤ c.floor.num ∧ QClass.q2.num < QClass.q3.num ∧
      ((applyFloor c { c with floor := .q2 } 1 (v .q3 .deliver)).access.get 1).state = .squelched ∧
      ((applyFloor c { c with floor := .q2 } 1 (v .q2 .degraded)).access.get 1).timer ≠ none ∧
      ((applyLoss c { c with loss := .mark } 1 (v .q4 .squelched)).access.get 1).state = .degraded := by
  decide

theorem witness_OwnClassFollowsTheServo_restore :
    let v := accessed .q1 (accessPort .degraded (some { since := Reset.stamp, base := 0 }))
    (v.access.get 1).timer = some { since := Reset.stamp, base := 0 } ∧
      ((profile.port.access.get 1).restore : Int) * 1000000000000 ≤ (0 : Nat) + interval Reset.stamp v.now ∧
      (0 : Nat) + interval Reset.stamp (atTime 9 999999999).now <
        ((profile.port.access.get 1).restore : Int) * 1000000000000 := by
  decide

theorem witness_IdleTransmitterTakesTheMostUrgent_notes :
    let q (n : Note) : QFrame := { own (.epoch epochBody) with note := n }
    (q .origEpoch).frame.body = .epoch epochBody ∧
      (complete epochStamp (q .origEpoch)).frame.body = .epoch { epochBody with time := ⟨1700000000, 55860⟩ } ∧
      (complete epochStamp { own replyBody with note := .reply Reset.stamp }).note = .reply Reset.stamp ∧
      (complete epochStamp (q .plain)) = q .plain ∧ (q (.fwdEpoch 18207500 Reset.stamp)).note ≠ .plain ∧
      (complete epochStamp (q (.fwdEpoch 9223372036854775807 epochStamp))).frame.body =
        .epoch { epochBody with corr := 9223372036854775807 } := by
  decide

/-- A state in which a port has been receiving a frame since the start of time. -/
def receivingState (p : Port) (v : Live) : State := stateOf ringTables (receivingAt p Reset.stamp v)

/-- A frame of the vendor type whose payload bears the ring id 0. -/
def vendor (payload : List Byte) : RawFrame := { rawFrame with payload := payload }

theorem witness_FramesPassOrAreDiscarded_kinds :
    let s := receivingState (.line .east) (memberLive id)
    (s.receiving (.line .east) Reset.stamp = true ∧ ((memberLive id).port (.line .east)).arriving = none ∧
      arrivalOf (.rollArrival 0 .east .begins rawFrame) = some (0, .line .east, .begins, rawFrame)) ∧
      (let f := vendor (List.replicate 46 0)
       64 ≤ frameLength f ∧ frameLength f ≤ 9600 ∧ f.fcsOk = true ∧ f.ftype = ringTables.node.ftype ∧
         field 2 1 f.payload = ringTables.node.ringId ∧ parseFrame f.payload = none) ∧
      ({ vendor [] with fcsOk := false } : RawFrame).fcsOk = false ∧
      (let r : AlarmRecord := { kind := 6, inst := 0, cleared := false, severity := .major, time := 0 }
       let b : Body := .notice { node := 3, record := r }
       (parseFrame (frameOf header b).payload).map (fun g => g.body.kind) = some 8 ∧
         (parseFrame (frameOf header (.epoch epochBody)).payload).map (fun g => g.body.kind) = some 1) ∧
      (let s := receivingState (.access 1) (memberLive id)
       s.receiving (.access 1) Reset.stamp = true) ∧
      (let s := receivingState (.site .east) { memberLive id with part := .loading }
       s.receiving (.site .east) Reset.stamp = true ∧ s.live.part = .loading ∧ (vendor []).ftype = 0x88B5#16 ∧
         (alien 46).ftype ≠ 0x88B5#16) := by
  decide

theorem witness_EpochIsForwardedAndHeard_samples :
    let v := epochMember { Reset.span with state := .up } { Reset.cand true with state := .available }
    let w := epochMember { Reset.span with state := .up }
      { Reset.cand true with state := .available, offered := .q1, preferred := some 0, origins :=
          [{ id := 0, rank := 0, cls := .q0, hops := 3, heardAt := epochStamp, gapSince := epochStamp }] }
    (hearEpoch ringTables .fwd header epochBody 240 v).1 = true ∧
      (settleSelection ringTables 4 (hearEpoch ringTables .fwd header epochBody 240 v).2).selection = some .fwd ∧
      (hearEpoch ringTables .fwd { header with origin := 6 } { epochBody with rank := 1 } 240 w).1 = false ∧
      namesOrigin ringTables.ring 6 = true ∧ originRole standbyTables = .standby ∧
      namesOrigin standbyTables.ring 0 = true := by
  decide

theorem witness_StandbyTakesOverAndReverts_epochs :
    originRole ringTables ≠ .standby ∧ header.origin = standbyTables.ring.primary ∧ epochBody.cls ≠ .q4 ∧
      (standbyAt 5 id).epoch.active = false ∧ (reverting 5 0).epoch.active = true ∧
      epochBody.cls.num ≤ (reverting 5 0).ownClass.num ∧ (reverting 5 0).epoch.revert ≠ none ∧
      (let v := { reverting 5 0 with epoch := { (reverting 5 0).epoch with revert := none } }
       v.epoch.active = true ∧ v.epoch.revert = none) ∧
      (let v := { reverting 5 0 with ownClass := .q0 }
       v.ownClass.num < epochBody.cls.num) := by
  decide

/-- A ring map whose entry 5 and entry 20 are as given, every other one as at reset. -/
def mapWith (five twenty : MapEntry) : List MapEntry :=
  List.replicate 5 Reset.mapEntry ++ five :: List.replicate 14 Reset.mapEntry ++ twenty :: List.replicate 11 Reset.mapEntry

/-- A map entry PRESENT with a slot of the given generation, its misses as given, merged under generation 7. -/
def entry (gen miss : Nat) (mismatch : Bool) : MapEntry :=
  { Reset.mapEntry with
    presence := .present, miss := miss, mergeRev := some false, mergeGen := some 7
    slot := some { slot with gen := gen, mismatch := mismatch } }

/-- The entries 5 and 20 at the end of a cycle that has seen the given slots. -/
def cycleEnd (five twenty : MapEntry) (seen : List Nat) : Option MapEntry × Option MapEntry :=
  let v := headLive .up .up none (atTime 0 1310000)
  let w := endCycle primaryTables { cycle2041 with seen := seen } { outcome := .returned, loopId := none } none
    { v with roll := { v.roll with map := mapWith five twenty } }
  (w.roll.map[5]?, w.roll.map[20]?)

theorem witness_CycleEndDerivesTheStatus_entries :
    (cycleEnd (entry 7 0 false) (entry 7 2 false) [5]).1.map (fun e => (e.miss, e.presence, e.config)) =
        some (0, .present, some .inSync) ∧
      (cycleEnd (entry 6 0 false) (entry 7 2 false) [5]).2.map (fun e => (e.miss, e.presence, e.slot)) =
        some (0, .unknown, none) ∧
      (cycleEnd (entry 6 1 false) (entry 7 0 false) []).1.map (fun e => (e.miss, e.presence, e.config)) =
        some (2, .present, some .pending) ∧
      (cycleEnd (entry 7 2 false) (entry 7 0 false) []).1.map (fun e => (e.miss, e.presence, e.config)) =
        some (3, .silent, some .unseen) ∧
      (cycleEnd (entry 7 0 true) (entry 7 0 false) [5]).1.map (fun e => e.config) = some (some .mismatch) ∧
      20 ∉ cycle2041.members ∧ 5 ∈ cycle2041.members ∧ primaryTables.node.id ∉ [5] := by
  decide +kernel

theorem witness_RollChecksInOrder_returns :
    let v := headLive .up .up (some cycle2041) (atTime 0 1310000)
    let v := { v with roll := { v.roll with map := mapWith Reset.mapEntry Reset.mapEntry } }
    let b := rollBody slots
    let f := toWire (mkFrame primaryTables rollHeader (.roll b) .plain)
    claimsAt primaryTables v (.line .west) Reset.stamp f { hdr := rollHeader, body := .roll b } = true ∧
      rollHeader.rev = Side.inRev .west ∧ v.epoch.active = true ∧ v.roll.cycle = some cycle2041 ∧
      b.seq = cycle2041.seq ∧ rollHeader.looped = decide (Side.west = .east ↔ cycle2041.rev = false) ∧
      v.roll.map[5]? = some Reset.mapEntry ∧ b.slots[5]? = some (some slot) ∧ slot.fillSeq = cycle2041.seq ∧
      slot.carried = false ∧ b.slots[1]? = some none ∧ cycle2041.fwd = none ∧ (v.span .west).state ≠ .down ∧
      ((headLive .up .down (some cycle2041) (atTime 0 1310000)).span .west).state = .down := by
  decide +kernel

theorem witness_MemberCopiesTheView_slots :
    let v := spanned { Reset.span with state := .up } { Reset.span with state := .up }
    let other := (rollBody slots).slots.set 3 (some { slot with serial := 0xCC#48 })
    ringTables.node.id < (rollBody slots).slots.length ∧ other[ringTables.node.id]? = some (some { slot with serial := 0xCC#48 }) ∧
      slot.fillSeq = (rollBody slots).seq ∧ (0xCC#48 : Word48) ≠ ringTables.node.serial ∧
      (rollPasses ringTables .west rollHeader { rollBody slots with slots := other } v).roll.duplicate = some v.now ∧
      (rollPasses ringTables .west rollHeader (rollBody slots) v).roll.duplicate = none := by
  decide +kernel

theorem witness_MemberCopiesTheView_onward :
    let v := spanned Reset.span { Reset.span with state := .up }
    (v.span (Side.other .west)).state = .down ∧ (v.span (Side.other .east)).state ≠ .down ∧
      rollHeader.looped = false ∧ (v.port (.line .west)).link = true ∧
      ((running id).port (.line .west)).link = false ∧
      (sendRollOn ringTables .west rollHeader (rollBody slots) v).roll.loopDrops = 0 ∧
      (sendRollOn ringTables .west { rollHeader with looped := true } (rollBody slots) v).roll.loopDrops = 1 := by
  decide +kernel

/-- A head of generation 7 whose entries 1, 5 and 9 are PENDING, that of node 5 with its marker set. -/
def distributing (status : RingStatus) (served : Option Nat) : Live :=
  let v := headLive .up .up none (atTime 0 100000000)
  let p : MapEntry := { entry 6 0 false with config := some .pending }
  { v with roll := { v.roll with
      status := status, lastServed := served
      map := ((List.replicate 32 Reset.mapEntry).set 1 p |>.set 5 { p with marker := true }) |>.set 9 p } }

theorem witness_ConfigIsJudged_scan :
    let v := distributing .forward (some 5)
    let order := [6, 7, 8, 9, 10, 11, 0, 1, 2, 3, 4, 5]
    v.roll.lastServed.getD primaryTables.node.id = 5 ∧
      primaryTables.ring.members = [0, 1, 2, 3, 4] ++ 5 :: [6, 7, 8, 9, 10, 11] ∧ 5 ∉ [0, 1, 2, 3, 4] ∧
      order = [6, 7, 8, 9, 10, 11] ++ [0, 1, 2, 3, 4] ++ [5] ∧ order.Nodup ∧ [9, 1].Sublist order ∧
      (order.filter (fun i => (v.roll.map[i]?).any (fun e => e.config == some .pending && !e.marker))) = [9, 1] ∧
      (order.filter (fun i => (v.roll.map[i]?).any (fun e => e.config == some .pending && e.marker))) = [5] ∧
      primaryTables.ring.gen ≠ 0 ∧ v.roll.heads = [] ∧ (v.span .east).state ≠ .down ∧
      (configScan primaryTables v).roll.configSent = 3 ∧ (configScan primaryTables v).roll.lastServed = some 5 ∧
      20 ∉ primaryTables.ring.members ∧ (profile.ring.gen = 0) := by
  decide +kernel

theorem witness_ConfigIsJudged_send :
    (let v := distributing .reverse none
     v.roll.map[5]? = some { entry 6 0 false with config := some .pending, marker := true } ∧
       (entry 6 0 false).mergeRev = some false ∧ (v.span .east).state ≠ .down) ∧
      (let v := headLive .down .down none (atTime 0 0)
       (∀ d ∈ [Side.east, .west], (v.span d).state = .down)) ∧
      (List.range 12)[3]? = some 3 ∧ (List.range 12)[9]? = some 9 ∧ nearSide (List.range 12) 3 9 = .east ∧
      nearSide (List.range 12) 3 10 = .west ∧ nearSide (List.range 12) 20 3 = .east := by
  decide +kernel

theorem witness_RestoreAndSoakEnd_conditions :
    let p (st : PointState) (c : Bool) : Point := { Reset.point with state := st, cond := c, severity := some .major }
    let v (st : PointState) (c : Bool) := running (fun v => { v with alarms := { v.alarms with points := [p st c] } })
    (v .clear false).alarms.points[0]? = some (p .clear false) ∧ 1 ≤ (pointCfg profile 0).raiseSoak ∧
      (pointCfg (soaking 0 0) 0).raiseSoak = 0 ∧ (pointCfg (soaking 0 0) 0).clearSoak = 0 ∧
      1 ≤ (pointCfg profile 0).clearSoak ∧ (p .raised true).cond ≠ false ∧ (p .raised true).severity = some .major ∧
      ((handCondition profile 0 false (v .raised true)).alarms.points[0]?).map (·.state) = some .clearing ∧
      ((handCondition profile 0 true (v .clearing false)).alarms.points[0]?).map (·.state) = some .raised ∧
      ((handCondition profile 0 false (v .raising true)).alarms.points[0]?).map (·.state) = some .clear ∧
      ((handCondition profile 0 true (v .clear false)).alarms.points[0]?).map (·.state) = some .raising ∧
      ((handCondition (soaking 0 0) 0 true (v .clear false)).alarms.points[0]?).map (·.state) = some .raised ∧
      ((handCondition (soaking 0 0) 0 false (v .raised true)).alarms.points[0]?).map (·.state) = some .clear := by
  decide

theorem witness_RestoreAndSoakEnd_in_running :
    let w := finish profile (running id)
    w.part = .running ∧ (w.alarms.points[5]?).map (·.cond) = some true ∧ (conditions profile w)[5]? = some true := by
  decide

theorem witness_ClearHistoryEmptiesTheHistory_event :
    let r : AlarmRecord := { kind := 6, inst := 0, cleared := false, severity := .major, time := 0 }
    let v := running (fun v => { v with alarms := { v.alarms with history := List.replicate 64 r, overwrites := 4 } })
    ¬ v.alarms.history.length < 64 ∧ (alarmEvent profile 6 false .major v).alarms.overwrites = 5 ∧
      (pointCfg profile 6).report = true ∧
      severitySummary [{ Reset.point with state := .raised, severity := some .minor },
        { Reset.point with state := .clearing, severity := some .major }] = some .major ∧
      severitySummary [{ Reset.point with severity := some .critical }] = none := by
  decide

theorem witness_RequestsAreServedOrRelayed_codes :
    let h := { header with target := 3 }
    let v := memberLive id
    (∀ o ∈ [1, 2], claims v (.site .east) h (.request { requestBody with op := o }) = true) ∧
      (∀ c ∈ [1, 2, 3, 4, 5, 6, 7, 8, 9],
        claims v (.site .east) h (.request { requestBody with op := 3, code := c }) = true) ∧
      claims v (.site .west) h (.request { requestBody with op := 2, code := 9 }) = true ∧ tableOfId 9 = none ∧
      tableOfId 8 = some .alarm ∧ isRun 0 [{ index := 1, value := [] }] = false ∧
      (State.taken (.site .east) (receivingState (.site .east) v)).live.io = v.io := by
  decide

theorem witness_RequestsAreServedOrRelayed_sides :
    let h := { header with target := 9 }
    let v := spanned Reset.span { Reset.span with state := .up }
    let full := { v with mgmt := { v.mgmt with relays := List.replicate 8 { rseq := 1, entry := some relayEntry } } }
    claims v (.site .east) h (.request requestBody) = true ∧ nearSide (List.range 12) 3 9 = .east ∧
      (v.span .east).state = .down ∧ (v.span (Side.other .east)).state ≠ .down ∧
      claims full (.site .east) h (.request requestBody) = true ∧ (∀ r ∈ full.mgmt.relays, r.entry ≠ none) := by
  decide

theorem witness_TakenWriteReplacesTheTable_node_and_ring :
    let t := { ringTables with node := { ringTables.node with id := 4, relayTimeout := 200 } }
    ringTables.node.id ≠ t.node.id ∧ relaying.mgmt.relays[0]? = some { rseq := 1, entry := some relayEntry } ∧
      125000 * t.node.relayTimeout ≤ relaying.osc - relayEntry.since ∧
      ((nodeEffects ringTables t relaying).mgmt.relays[0]?).map (·.entry) = some none ∧
      relaying.osc - relayEntry.since < 125000 * 201 ∧ relaying.part = .running ∧
      originRole ringTables ≠ originRole primaryTables ∧ originRole ringTables ≠ originRole standbyTables := by
  decide +kernel

theorem witness_TakenWriteReplacesTheTable_port_and_candidates :
    let s : Span := { westSpan with fcsCount := 15 }
    (s.fcsCount < Config.line.errThreshold ∧ Config.line.errThreshold ≤ { s with fcsCount := 16 }.fcsCount ∧
      ((lineEffects spanTables { Config.line with asym := 150000 } { Config.line with asym := -18100000 } .west
        (spanned Reset.span s)).span .west).df = some 0) ∧
      (applyAdvance { Config.access with advance := 1 } 0 (atTime 0 999999998)).ts.k.a0 = 1 ∧
      (applyAdvance { Config.access with advance := 1 } 0 (atTime 0 999999999)).ts.k.a0 = 2 ∧
      candEnabled profile .ref = false ∧ candEnabled profile .fwd = true ∧
      (Reset.cand false).state = .disabled ∧ (hearing .qualifying .q1).qual = some { since := Reset.stamp, base := 0 } ∧
      ((profile.cand.get .fwd).qualify : Int) * 1000000000000 ≤ (0 : Nat) + interval Reset.stamp (atTime 2 0).now ∧
      (hearing .qualifying .q1).offered ≠ .q4 := by
  decide

theorem witness_TakenWriteReplacesTheTable_servo_and_alarm :
    let v := running (fun v => { v with servo := { lockedServo with integ := 900000, fServo := 1200000 } })
    let low : ServoTable := { Config.servo with limit := 1000000 }
    low.limit < Config.servo.limit ∧ (servoEffects Config.servo low v).servo.integ = 900000 ∧
      (servoEffects Config.servo low v).servo.fServo = 1000000 ∧
      (let p : Point := { Reset.point with state := .raising, soak := some 0, cond := true }
       let w := running (fun v => { v with osc := 12500000, alarms := { v.alarms with points := [p] } })
       profile.alarm ≠ (soaking 1 1).alarm ∧ w.alarms.points[0]? = some p ∧
         12500000 * (pointCfg (soaking 1 1) 0).raiseSoak ≤ w.osc - 0 ∧
         w.osc - 0 < 12500000 * (pointCfg (soaking 2 2) 0).raiseSoak ∧
         ((alarmEffects profile (soaking 1 1) w).alarms.points[0]?).map (·.state) = some .raised) := by
  decide

theorem witness_RefusedWriteChangesNothing_values :
    let l (x : Byte) : List Byte := [0, 0, 0, 0, 0, 0, 0, x]
    (l 17).length = 8 ∧ beInt (l 17) = 17 ∧ (setServo Config.servo 0 (l 17)).map (·.n) = some 16 ∧
      (setRing Config.ring 1 (l 7)).map (·.rate) = some 4 ∧ setRing Config.ring 4 (l 32) = none ∧
      setRing Config.ring 5 (l 254) = none ∧ beInt (List.replicate 8 255) = -1 ∧
      (setThermal Config.thermal 16 (List.replicate 8 255)).map (·.ta) = some (-1) ∧
      (setServo Config.servo 0 (List.replicate 8 255)).map (·.n) = some 4 ∧
      readFloor [4] = some .q3 ∧ readFloor [5] = none ∧ readMode [4] = none ∧ [(0 : Byte)].length ≠ 8 := by
  decide

theorem witness_RefusedWriteChangesNothing_whole_tables :
    setEntry .servo profile { index := 0, value := [] } = none ∧
      (setEntries .thermal [{ index := 16, value := [0, 0, 0, 0, 0, 0, 0, 45] }] profile).isSome = true ∧
      writeTable .thermal profile [{ index := 16, value := [0, 0, 0, 0, 0, 0, 0, 45] }] = none ∧
      (setEntries .ring [{ index := 4, value := [0, 0, 0, 0, 0, 0, 0, 5] }] ringTables).isSome = true ∧
      writeTable .ring ringTables [{ index := 4, value := [0, 0, 0, 0, 0, 0, 0, 5] }] = none := by
  decide +kernel

theorem witness_LockStatesFollowTheTable_refused :
    tableOfId 0 = none ∧ lockLevel [{ index := 0, value := [2] }] = none ∧ lockLevel [] = none ∧
      ({ running id with guard := true } : Live).guard = true ∧
      ({ State.reset.store with commit := some image } : Store).commit ≠ none ∧ image.locks.get .ring ≠ .lockedDown := by
  decide

theorem witness_EveryStepKeepsTheRanges_selection :
    plainState.live.selectionSound = true ∧
      (let s := { plainState with pending := [Instr.epochInstantCrossing 125000000] }
       s.live.selectionSound = true ∧ ∃ t, step s = .next t) := by
  refine ⟨by decide, by decide, ⟨_, rfl⟩⟩

/-! ## Points the spec settles across rules -/

/-- R82: the first byte of a frame gives it its receive instant. -/
theorem test_receive_instant :
    let s := after (.epochArrival 125 .west .begins rawFrame) (stateOf ringTables (memberLive id))
    (s.live.port (.line .west)).arriving = some { time := { sec := 0, ns := 1000, ps := 0 }, steps := 0 } := by
  decide +kernel

/-- R77, R166: a tick from Q2 to Q3 raises HOLD-DEGRADED before the selection of a Q3 candidate ends the holdover. -/
theorem test_hold_degraded_before_the_selection :
    let v := { stayAt 22391 223910 with ownClass := .q2 }
    let v := { v with cands := { v.cands with fwd := { hearing .available .q3 with qual := none, hops := some 3 } } }
    let s := after (.holdoverTick 0) (stateOf profile v)
    s.live.servo.state = .acquire ∧ s.live.ownClass = .q4 ∧
      s.live.alarms.history.any (fun r => r.kind == 4 && !r.cleared) = true := by
  decide +kernel

/-- R177: SPAN-DOWN of a port with its link up is RAISED at the entry to RUNNING (soak 0), though the span is then
PROBING. -/
theorem test_span_down_at_start :
    let s := after (.loadingEnd 0) { State.reset with tables := ringTables, live := linked State.reset.live }
    s.live.alarms.history.any (fun r => r.kind == 6 && r.inst == 0 && !r.cleared) = true := by
  decide +kernel

/-- R193: a MGMT-REQUEST of operation 0 or 4, or a COMMAND of code 0 or 10, is malformed; a READ of table 10 is not. -/
theorem test_undefined_operation_and_code :
    let read := fun (op code : Nat) => (parseFrame
      (frameOf { header with target := 255 } (.request { requestBody with op := op, code := code })).payload).isSome
    read 0 1 = false ∧ read 4 1 = false ∧ read 3 0 = false ∧ read 3 10 = false ∧ read 3 9 = true ∧ read 1 10 = true := by
  decide +kernel

/-- R193: a CONFIG for target 255 is malformed, whatever its header's target. -/
theorem test_config_for_all_is_malformed :
    parseFrame (frameOf (configHeader 255) (.config (configFor 255))).payload = none ∧
      parseFrame (frameOf (configHeader 31) (.config (configFor 31))).payload =
        some { hdr := configHeader 31, body := .config (configFor 31) } := by
  decide +kernel

/-- R127: a node that becomes a head has completed no cycle, and its status is UNKNOWN. -/
theorem test_new_head_is_unknown :
    let v := spanned { Reset.span with state := .up } { Reset.span with state := .up }
    let v := { v with roll := { v.roll with status := .forward } }
    let s := after (.loadingEnd 0) { State.reset with tables := primaryTables, live := { v with part := .loading } }
    s.live.epoch.active = true ∧ s.live.roll.status = .unknown := by
  decide +kernel

/-- R131: a head heard again keeps its place in the list. -/
theorem test_heads_refresh_in_place :
    let v := running (fun v => { v with roll := { v.roll with
      heads := [{ id := 0, rank := 0, heardAt := Reset.stamp }, { id := 6, rank := 1, heardAt := Reset.stamp }] } })
    (hearHead 0 0 v).roll.heads.map (·.id) = [0, 6] ∧ (hearHead 7 1 v).roll.heads.map (·.id) = [0, 6, 7] := by
  decide

/-- R36, section 2.7: at the qualify time the pulse's own sample is handed to the servo, first of the window. -/
theorem test_pulse_at_the_qualify_time :
    let t := { profile with node := { profile.node with refFitted := true } }
    let v := refLive .qualifying (some (announced 14 true 0)) (some 14) 0
    let v := { v with
      ts := { v.ts with value := { sec := 14, ns := 0, ps := 0 } }
      cands := { v.cands with ref := { v.cands.ref with
        offered := .q0, qual := some { since := Reset.stamp, base := 0 } } } }
    let s := after (.refpPulse 0) (stateOf t v)
    s.live.selection = some .ref ∧ s.live.servo.queue.length = 1 := by
  decide +kernel
/-- R132, R166: under a raise soak of 0 the duplicate flag that a ROLL sets is in the summary of the slot filled then. -/
theorem test_duplicate_is_in_the_slot :
    let cfg : AlarmCfg := { severity := .warning, report := false, raiseSoak := 0, clearSoak := 0 }
    let t := { ringTables with alarm := (List.replicate 16 cfg).set 10 { cfg with severity := .critical } }
    let v := refreshAlarms t (memberLive id)
    let other := (rollBody slots).slots.set 3 (some { slot with serial := 0xCC#48 })
    let g := (fillSlot t { rollBody slots with slots := other } v).1
    v.alarms.summary = some .warning ∧ (slotAt g.slots 3).map (fun x => (x.summary, x.duplicate)) = some (4, true) := by
  decide +kernel

/-- R44, R166: the selection that an EPOCH brings ends FREERUN before its sample makes the coarse set, so the CLEAR event
bears the time before it. -/
theorem test_freerun_ends_before_the_coarse_set :
    let t := { ringTables with alarm := (soaking 0 0).alarm }
    let v := refreshAlarms t (epochMember { Reset.span with state := .up } { Reset.cand true with state := .available })
    let v := { v with ts := { v.ts with value := epochStamp.time } }
    let f := frameOf header (.epoch { epochBody with time := { sec := 1600000000, ns := 0 } })
    let s := after (.epochArrival 0 .west .ends f) (stateOf t (receivingAt (.line .west) epochStamp v))
    s.live.servo.state = .acquire ∧ s.live.ts.value.sec = 1600000000 ∧
      (s.live.alarms.history.filter (fun r => r.kind == 5 && r.cleared)).map (·.time) = [1700000000] := by
  decide +kernel

/-! ## Witnesses of further clauses -/

theorem witness_FullQueueShedsTheLessUrgent_room :
    let q := own (.epoch epochBody)
    let p := Port.line .east
    (let v := running (fun v => v.mapPort p (fun _ => busy (List.replicate 7 (own (.probe 2)))))
     (v.port p).link = true ∧ (v.port p).queue.length < capacity p ∧ (v.port p).sending.isSome = true) ∧
      (let v := memberLive id
       (v.port p).link = true ∧ (v.port p).queue.length < capacity p ∧ (v.port p).sending = none ∧
         (v.port p).queue = [] ∧ ((hand p q v).port p).sending = some (.own q)) ∧
      ((running id).port p).link = false ∧
      (hand p { q with note := .restart } (running id)).restartDue = true ∧
      (hand p { q with note := .roll 4 true } (running id)).losses = [.roll 4 true] := by
  decide

/-- A West span with its learned neighbour and the counts as given, and probe 4,118 outstanding. -/
def westOf (st : SpanState) (learned : Option Nat) (accepted : Nat) : Span :=
  { westSpan with state := st, learned := learned, accepted := accepted, timeoutRun := 2 }

/-- LW set to hold its neighbour to node 13. -/
def frozenTables : Tables :=
  { ringTables with port := { ringTables.port with
      line := ⟨Config.line, { Config.line with neighbour := some 13, freeze := true }⟩ } }

theorem witness_MatchedReplyMovesTheDelay_neighbours :
    let f := toWire (mkFrame spanTables replyHeader replyBody .plain)
    (∀ x ∈ [westOf .up (some 13) 9, westOf .probing (some 13) 9, westOf .probing none 0, westOf .probing (some 14) 4],
      claimsAt spanTables (spanned Reset.span x) (.line .west) replyStamp f { hdr := replyHeader, body := replyBody } =
        true) ∧
      (spanned Reset.span westSpan).losses = [] ∧
      (∀ q ∈ ((spanned Reset.span westSpan).port (.line .west)).queue, q.note ≠ .probe) ∧
      neighbourFails (frozenTables.port.line.get .west) (westOf .up (some 14) 9) = true ∧
      neighbourFails (frozenTables.port.line.get .west) (westOf .up (some 13) 9) = false ∧
      (∀ rt ∈ [(-1 : Int), 2000000001],
        ((spanSample spanTables .west rt (spanned Reset.span westSpan)).span .west).rejected = 1) ∧
      (∀ rt ∈ [(0 : Int), 2000000000],
        ((spanSample spanTables .west rt (spanned Reset.span westSpan)).span .west).accepted = 10) := by
  decide

theorem witness_ReadServesTheTable_answer :
    let env : ReqEnv := { request with via := .line .east, relay := some { relayFields with requester := 9 } }
    let up := spanned { Reset.span with state := .up } { Reset.span with state := .up }
    let sent (p : Port) (v : Live) := match (v.port p).sending with
      | some (.own q) => some (q.frame.hdr.rev, q.frame.hdr.target, q.frame.hdr.seq)
      | _ => none
    (nearSide ringTables.ring.members 3 9 = .east ∧ 9 ∈ ringTables.ring.members ∧ 20 ∉ ringTables.ring.members) ∧
      sent (.line .east) (respond ringTables env .done [] .plain up) = some (false, 9, 1) ∧
      sent (.line .west) (respond ringTables env .done [] .plain
        (spanned Reset.span { Reset.span with state := .up })) = some (true, 9, 1) ∧
      (sent (.site .east) (respond ringTables request .done [] .plain up)).map (·.2.2) = some 1 ∧
      (respond ringTables env .done [] .plain (memberLive id)).mgmt.drops = 1 ∧
      (respond ringTables env .done [] .restart (memberLive id)).restartDue = true := by
  decide +kernel

theorem witness_RestoreAndSoakEnd_table :
    let v := running (fun v => { v with storeFault := true })
    (conditions profile v)[5]? = some true ∧ (conditions profile v)[6]? = some true ∧
      (conditions profile v)[20]? = some true ∧ (conditions profile v)[0]? = some false ∧
      (conditions profile v)[21]? = none ∧ (profile.alarm[(pointKind 20).1]?).isSome = true := by
  decide

/-! ## Witnesses of the clauses for R36, R44, R58, R95, R126, R144, R147, R178 and R181 -/

/-- A QUALIFYING REF input whose timer stands at the qualify time, with a pending announcement in sequence. -/
def refQualified (pending : Option Announcement) (unusable : Nat) : Live :=
  let v := refLive .qualifying pending (some 14) unusable
  { v with
    ts := { v.ts with value := { sec := 14, ns := 0, ps := 0 } }
    cands := { v.cands with ref := { v.cands.ref with
      offered := .q0, qual := some { since := Reset.stamp, base := 0 } } } }

theorem witness_UsableSecondIsTaken_qualifying :
    let v := refQualified (some (announced 14 true 0)) 0
    v.cands.ref.state = .qualifying ∧ v.cands.ref.qual = some { since := Reset.stamp, base := 0 } ∧
      (profile.cand.ref.qualify : Int) * 1000000000000 ≤ (0 : Nat) + interval Reset.stamp v.now ∧
      (takePulse profile v).selection = some .ref ∧
      (let w := refLive .unavailable (some (announced 14 true 0)) none 3
       (takePulse profile w).selection ≠ some .ref ∧ (takePulse profile w).cands.ref.state = .qualifying ∧
         (takePulse profile w).cands.ref.qual = some { since := w.now, base := 0 } ∧
         w.cands.ref.state ≠ .qualifying) := by
  decide +kernel

theorem witness_UnusableSecondIsCounted_timer :
    let v := refQualified none 1
    v.refIn.unusable < 2 ∧ v.cands.ref.state = .qualifying ∧
      (takePulse profile v).cands.ref.qual = some { since := v.now, base := 0 } ∧
      (takePulse profile v).cands.ref.state = .qualifying ∧
      (let w := refLive .selected none (some 14) 1
       w.cands.ref.state ≠ .qualifying ∧ (takePulse profile w).cands.ref = w.cands.ref) ∧
      (takePulse profile (refQualified none 2)).cands.ref.state = .unavailable := by
  decide +kernel

theorem witness_AnnouncementsAndJumps_timer :
    let v := refLive .selected (some (announced 506 true 0)) (some 504) 0
    (takePulse profile v).cands.ref.state = .qualifying ∧
      (takePulse profile v).cands.ref.qual = some { since := v.now, base := 0 } := by
  decide

theorem witness_CandidatesQualifyAndExpire_at_the_qualify_time :
    let n := profile.cand.fwd.qualify
    let heard (sec : Nat) (c : QClass) :=
      ((hearEpoch profile .fwd header { epochBody with cls := c } 5
        { atTime sec 0 with cands := ⟨Reset.cand false, hearing .qualifying .q1, Reset.cand true⟩ }).2.cands.fwd)
    (heard n .q2).state = .available ∧ (heard n .q2).qual = none ∧ (heard n .q4).state = .qualifying ∧
      (heard (n - 1) .q2).state = .qualifying ∧
      (heard (n - 1) .q2).qual = some { since := Reset.stamp, base := 0 } ∧
      (loseInput .fwd { atTime 0 0 with cands := ⟨Reset.cand false, hearing .selected .q1, Reset.cand true⟩ }).cands.fwd
        = { (hearing .selected .q1).unavail with last := none } := by
  decide +kernel

theorem witness_HoldoverTickGrowsTheEstimate_allowance :
    let v (g : SensorState) (z : Option Zone) := running (fun v => { v with
      thermal := { v.thermal with sensor := g, zone := z } })
    let t := { profile with thermal := { profile.thermal with dCold := 1, dNormal := 2, dWarm := 4, dHot := 3 } }
    driftAllowance t (v .good (some .hot)) = 3 ∧ driftAllowance t (v .fault (some .hot)) = 4 ∧
      driftAllowance t (v .starting none) = 4 := by
  decide

theorem witness_IdleTransmitterTakesTheMostUrgent_owners :
    let probe : QFrame := { own (.probe 5) with note := .probe }
    let roll : QFrame := { own (.roll (rollBody slots)) with note := .roll 2041 false }
    let v := headLive .up .down (some { cycle2041 with sentAt := none, firstSent := none }) (atTime 0 100000000)
    probe.frame.body = .probe 5 ∧ (v.span .east).state ≠ .down ∧ (v.span .west).state = .down ∧
      (onTransmit (.line .east) probe v).spans.east.outstanding = some { seq := 5, t1 := v.now, since := v.osc } ∧
      (onTransmit (.line .west) probe v).spans.west.outstanding = none ∧
      (onTransmit (.line .east) roll v).roll.cycle.bind (·.firstSent) = some v.now ∧
      (onTransmit (.line .west) { roll with note := .roll 2041 true } v).roll.cycle.bind (·.sentAt) = none ∧
      (ownSent (.access 0) (own (.epoch epochBody)) v).access.a0.sent = 1 ∧
      (ownSent (.line .east) { own (.response responseBody) with note := .restart } v).restartDue = true := by
  decide +kernel

/-- A span of which a probe still waits in the queue at the end of its interval. -/
def stale (run : Nat) (st : SpanState) : Live :=
  { spanned { Reset.span with state := st, timeoutRun := run, nextProbe := some 125000000, learned := some 4 } Reset.span
    with osc := 125000000 }.mapPort (.line .east) (fun x => { x with queue := [own (.probe 5)] })

theorem witness_ProbeClockAndReplyWait_stale :
    ((stale 1 .up).port (.line .east)).queue.any isProbeFrame = true ∧
      ((stale 1 .up).span .east).nextProbe = some 125000000 ∧ 125000000 ≤ (stale 1 .up).osc ∧
      (withdrawStale profile .east (stale 1 .up)).spans.east.timeoutRun = 2 ∧
      (withdrawStale profile .east (stale 1 .up)).spans.east.state = .up ∧
      ((withdrawStale profile .east (stale 2 .up)).port (.line .east)).insertDrops = 1 ∧
      (withdrawStale profile .east (stale 2 .up)).spans.east.state = .down ∧
      (withdrawStale profile .east (stale 2 .up)).spans.east.learned = none ∧
      (withdrawStale profile .east (stale 2 .probing)).spans.east.downs = 1 ∧
      (withdrawStale profile .east (stale 2 .down)).spans.east.timeoutRun = 3 := by
  decide +kernel

theorem witness_RollClockAndTimeoutDriveTheCycle_down :
    (let v := headLive .down .down none (atTime 0 100000000)
     v.roll.cycle = none ∧ (v.span .east).state = .down ∧ (v.span .west).state = .down ∧
       (rollTick primaryTables v).roll.status = .loopbackBoth ∧ (rollTick primaryTables v).roll.cycle = none) ∧
      (let v := headLive .up .down (some cycle2041) (atTime 0 20000000)
       v.roll.cycle = some cycle2041 ∧ cycle2041.fwd = none ∧ (v.span .west).state = .down ∧
         (cycle2041.timeout : Int) * 100000000 ≤ interval Reset.stamp v.now ∧
         (rollTimedOut primaryTables v).roll.status = .loopbackRev) := by
  decide +kernel

/-- A head whose entry 5 was IN-SYNC with generation 7, having completed a cycle or not. -/
def judgingHead (completed : Bool) : Live :=
  let v := headLive .up .up none (atTime 0 1310000)
  { v with roll := { v.roll with
      map := mapWith { entry 7 0 false with config := if completed then some .inSync else none } Reset.mapEntry
      cycleTime := if completed then some 1310 else none
      heads := [{ id := 6, rank := 1, heardAt := Reset.stamp }] } }

theorem witness_RollClockAndTimeoutDriveTheCycle_losses :
    let v := headLive .up .up (some cycle2041) (atTime 0 20000000)
    let w := { v with losses := [.roll 2041 false] }
    (settle primaryTables v).losses = [] ∧ (settle primaryTables w).losses = [.roll 2041 false] ∧
      (finish primaryTables w).roll.rollTimeouts = 1 ∧ (finish primaryTables w).losses = [] ∧
      (takeLoss primaryTables (.roll 2041 true) v).roll.rollTimeouts = 0 ∧
      (v.span .east).timeoutRun < 2 ∧ (takeLoss primaryTables (.probe .east) v).spans.east.timeouts = 1 ∧
      (takeLoss primaryTables (.probe .east) (stale 2 .up)).spans.east.state = .down := by
  decide +kernel

theorem witness_StandbyTakesOverAndReverts_head :
    let v := judgingHead true
    (becomeHead primaryTables v).roll.status = .unknown ∧ (becomeHead primaryTables v).roll.seq = 2041 ∧
      (ceaseHead { v with epoch := { v.epoch with active := false } }).roll.status = v.roll.status ∧
      (ceaseHead { (judgingHead false) with epoch := Reset.epoch, roll := Reset.roll }).roll.status = .unknown := by
  decide +kernel

theorem witness_OwnClassFollowsTheServo_settles :
    let v := refQualified none 0
    let w := { v with cands := { v.cands with ref := { v.cands.ref with state := .available, qual := none } } }
    deriveClass profile (evaluate profile w) = .q4 ∧ (evaluate profile w).ownClass = .q4 ∧
      deriveClass profile (estimate 0) = .q2 ∧ (estimate 0).ownClass ≠ .q2 ∧
      (settleSelection profile 4 w).selection = some .ref := by
  decide +kernel

theorem witness_MemberCopiesTheView_preferred :
    let head (id rank : Nat) : HeadHeard := { id := id, rank := rank, heardAt := Reset.stamp }
    let v (l : List HeadHeard) := running (fun v => { v with roll := { v.roll with heads := l } })
    preferredHead (v []) = none ∧ preferredHead (v [head 0 1, head 6 0]) = some 6 ∧
      preferredHead (v [head 6 1, head 0 1]) = some 0 ∧
      (v [head 6 1, head 0 1]).roll.heads = [head 6 1] ++ head 0 1 :: [] := by
  decide

theorem witness_ConfigIsJudged_roles :
    memberChecks ringTables.node ringTables.ring = true ∧
      memberChecks { ringTables.node with id := 6 } ringTables.ring = false ∧
      memberChecks { ringTables.node with id := 12 } ringTables.ring = false ∧
      memberChecks standbyTables.node ringTables.ring = true ∧ memberChecks primaryTables.node ringTables.ring = true ∧
      memberChecks { primaryTables.node with id := 1 } ringTables.ring = false := by
  decide

theorem witness_ConfigIsJudged_markers :
    let e := { entry 6 0 false with config := some .pending, marker := true }
    let f := { entry 6 0 false with config := some .inSync, marker := true }
    let w (changed : Bool) (x : MapEntry) := (deriveConfig primaryTables changed
      (running (fun v => { v with roll := { v.roll with map := mapWith x (entry 6 0 false) } }))).roll.map
    (w false e)[5]? = some e ∧ (w true e)[5]? = some { e with marker := false } ∧
      (w false f)[5]? = some { f with config := some .pending, marker := false } ∧
      (w true e)[20]? = some { entry 6 0 false with config := none } ∧
      (w false (entry 7 0 true))[5]? = some { entry 7 0 true with config := some .mismatch } := by
  decide +kernel

/-! ## Reading and writing, byte by byte (R178, section 12.2) -/

theorem test_time_record :
    tableEntries served 16 = some [record [some (List.replicate 10 0), some (num 0), some (num 0), some (num 0),
      some (num 0), some [0], some (num 0), some (num 0), some (num 0), some (num 0), some (num 0), some [0]]] ∧
      num (-2) = [255, 255, 255, 255, 255, 255, 255, 254] ∧ record [none, some [7, 8]] = [0, 1, 7, 8] := by
  decide +kernel

theorem witness_ReadServesTheTable_tables :
    served.tables.thermal.grads.length = 16 ∧ served.tables.alarm.length = 16 ∧ served.live.roll.map.length = 32 ∧
      served.live.alarms.points.length = 21 ∧ (tableEntries served 9).isNone = true ∧
      (tableEntries served 15).isNone = true ∧ (tableEntries served 26).isNone = true ∧
      originRole served.tables ≠ .standby ∧ originRole standbyTables = .standby ∧
      posOf 3 ringTables.ring.members = some 3 ∧ posOf 20 ringTables.ring.members = none := by
  decide +kernel

/-- A value of eight bytes below 256. -/
def small (x : Byte) : List Byte := [0, 0, 0, 0, 0, 0, 0, x]

theorem witness_RefusedWriteChangesNothing_records :
    (setPort profile.port 1 ([1] ++ small 9 ++ [0, 0, 1] ++ small 0)).map (fun p => (p.line.west, p.line.east)) =
        some ({ Config.line with neighbour := some 9, errThreshold := 1 }, profile.port.line.east) ∧
      (setPort profile.port 3 ([1, 3] ++ List.replicate 5 0)).map (·.access.a1) =
        some { profile.port.access.a1 with mode := .both } ∧
      setPort profile.port 2 [2, 0, 0, 0, 0, 0] = none ∧ setPort profile.port 2 [0, 0, 0, 0, 0] = none ∧
      setPort profile.port 2 [0, 0, 0, 0, 0, 0, 0] = none ∧
      (setCand profile.cand 0 ([0, 1] ++ small 9 ++ [0, 1] ++ small 5)).map (fun c => (c.ref.priority, c.ref.cable)) =
        some (7, 5) ∧
      setCand profile.cand 1 ([0, 0, 0, 1] ++ small 5) = none ∧
      (setAlarm profile.alarm 15 ([1, 2, 0, 0, 1] ++ small 7)).map (fun l => l[15]?.map (·.clearSoak)) =
        some (some 7) ∧
      setAlarm profile.alarm 16 [0, 0, 0, 0] = none ∧ readIds [2, 4, 5] = some [4, 5] ∧ readIds [2, 4] = none ∧
      readGroup [1, 0, 0, 0, 0, 5] = some 0x010000000005#48 ∧ readGroup [2, 0, 0, 0, 0, 5] = none := by
  decide +kernel

/-! ## The effects of a RING write, and of a reload, on the roll engine (R142, R144, R151) -/

/-- The tables of the primary after a RING write that makes generation 8 and names no standby. -/
def regenerated : Tables :=
  { primaryTables with ring := { primaryTables.ring with gen := 8, standby := none } }

/-- R151: before its first completed cycle a head keeps every config state absent; R144: after it, each change of
generation derives them. -/
theorem test_config_states_after_a_ring_write :
    let state (completed : Bool) :=
      ((ringEffects regenerated primaryTables.ring .primary (judgingHead completed)).roll.map[5]?).map (·.config)
    state false = some none ∧ state true = some (some .pending) := by
  decide +kernel

theorem witness_TakenWriteReplacesTheTable_lists :
    let w := dropUnnamed regenerated (judgingHead true)
    w.roll.heads = [] ∧ namesOrigin regenerated.ring 0 = true ∧ namesOrigin regenerated.ring 6 = false ∧
      (judgingHead true).epoch.active = true ∧ (judgingHead true).roll.cycleTime ≠ none ∧
      primaryTables.ring.gen ≠ regenerated.ring.gen ∧
      (let o (i : Nat) : OriginHeard :=
         { id := i, rank := 0, cls := .q1, hops := 3, heardAt := Reset.stamp, gapSince := Reset.stamp }
       let v := { atTime 2 0 with cands := ⟨Reset.cand false, { hearing .selected .q1 with origins := [o 6, o 0] },
         { hearing .available .q1 with origins := [o 6] }⟩ }
       let x := dropUnnamed regenerated v
       x.cands.fwd.origins = [o 0] ∧ x.cands.fwd.preferred = some 0 ∧ x.cands.fwd.state = .selected ∧
         x.cands.rev.origins = [] ∧ x.cands.rev.state = .unavailable ∧
         (rateEffects primaryTables v).cands.fwd.origins.map (·.gapSince) = [v.now, v.now]) := by
  decide +kernel

theorem witness_TakenWriteReplacesTheTable_interval :
    let v := headLive .up .up (some cycle2041) (atTime 0 100000000)
    let t := { primaryTables with ring := { primaryTables.ring with interval := 50 } }
    v.roll.clock = some 0 ∧ 125000 * t.ring.interval ≤ v.osc - 0 ∧ primaryTables.ring.interval ≠ t.ring.interval ∧
      (ringEffects t primaryTables.ring .primary v).roll.clock = some 12500000 ∧
      v.osc - 0 < 125000 * (primaryTables.ring.interval + 1) := by
  decide +kernel

/-- R151: a reload replaces the RING table as an adoption does, and the rejected generation goes with it; a LOCKED-DOWN
RING table is not replaced, and keeps it. -/
theorem test_reload_clears_the_rejected_generation :
    let s := { served with
      store := { State.reset.store with image := some image }
      live := { quiet with roll := { quiet.roll with rejectedGen := some 9 } } }
    (after (.reloadProfile 0 request) s).live.roll.rejectedGen = none ∧
      (after (.reloadProfile 0 request) { s with locks := { s.locks with ring := .lockedDown } }).live.roll.rejectedGen =
        some 9 := by
  decide +kernel

/-- A part whose ring write guard is set, and a request that comes to it along the ring. -/
def guardedState : State := { served with tables := { profile with node := { profile.node with ringGuard := true } } }

theorem witness_ClearHistoryEmptiesTheHistory_guarded :
    let env : ReqEnv := { request with via := .line .east, relay := some relayFields }
    heardRequest env guardedState = true ∧ guardedState.tables.node.ringGuard = true ∧ env.via = .line .east := by
  decide

theorem witness_LockStatesFollowTheTable_during_a_commit :
    let s := { served with locks := image.locks, store := { State.reset.store with commit := some image } }
    s.live.guard = false ∧ s.store.commit ≠ none ∧ s.locks.get .servo = .lockedDown ∧
      lockLevel [{ index := 0, value := [1] }] ≠ some .locked ∧
      answered (after (.lockTable 0 request 5 [{ index := 0, value := [1] }]) s) = some (.busy, []) := by
  decide +kernel

theorem witness_LoadingEndEntersRunning_blocks :
    let t := { profile with port := { profile.port with access := { profile.port.access with
      a0 := { Config.access with mode := .off }
      a1 := { Config.access with mode := .both, loss := .squelch, rate := 2 }
      a2 := { Config.access with mode := .frames, loss := .mark } } } }
    let u := takeConditions t (atTime 3 0)
    u.access.a0.state = .off ∧ u.access.a1.state = .squelched ∧ u.access.a1.jp = 3500000000 ∧
      u.access.a2.state = .degraded ∧ originRole primaryTables = .primary ∧ originRole standbyTables = .standby ∧
      originRole profile = .none ∧ (takeUp standbyTables (atTime 3 0)).epoch.takeover =
        some { since := (atTime 3 0).now, base := 0 } := by
  decide +kernel

theorem witness_SoftRestartKeepsWhatItMust_blocks :
    let v := { headLive .up .up (some cycle2041) (atTime 3 0) with
      cands := ⟨Reset.cand false, hearing .selected .q1, Reset.cand true⟩, selection := some .fwd, ownClass := .q1 }
    let r := softReset primaryTables v
    r.cands.fwd = Reset.cand true ∧ r.refIn.watch = v.now ∧ r.ownClass = .q4 ∧ r.epoch.active = false ∧
      r.roll.cycle = none ∧ r.roll.seq = 0 := by
  decide

theorem witness_CandidatesQualifyAndExpire_two_origins :
    let o (id rank hops : Nat) (at_ : Stamp) : OriginHeard :=
      { id := id, rank := rank, cls := .q0, hops := hops, heardAt := at_, gapSince := at_ }
    let now := (atTime 0 375000000).now
    let rec_ (st : CandState) (off : QClass) : CandRec := { hearing st off with
      origins := [o 0 0 3 Reset.stamp, o 6 1 5 now], preferred := some 0 }
    let v (st : CandState) : Live := { atTime 0 375000000 with
      cands := ⟨Reset.cand false, rec_ st .q1, Reset.cand true⟩, selection := some .fwd
      servo := { Reset.servo with state := .acquire, queue := [⟨5, true⟩] } }
    let w := reviseRing ringTables .fwd ((v .selected).mapCand .fwd (fun r => { r with origins := [o 6 1 5 now] }))
    3 * (1000000000 / ringTables.ring.rate : Nat) * 1000 ≤ interval Reset.stamp now ∧
      w.cands.fwd.preferred = some 6 ∧ w.cands.fwd.hops = some 5 ∧ w.cands.fwd.offered = .q1 ∧
      w.servo.queue = [] ∧
      (reviseRing ringTables .fwd (v .selected)).servo.queue = [⟨5, true⟩] ∧
      (after (.originEntryExpiry 0 .west 0) (stateOf ringTables (v .available))).live.cands.fwd.preferred = some 6 := by
  decide +kernel

theorem witness_CandidatesQualifyAndExpire_revision :
    let at_ (sec : Nat) (st : CandState) (c : QClass) : Live :=
      { atTime sec 0 with cands := ⟨Reset.cand false, hearing st c, Reset.cand true⟩ }
    let state (v : Live) : CandState := (reviseRing profile .fwd v).cands.fwd.state
    state (at_ 2 .qualifying .q1) = .available ∧ state (at_ 1 .qualifying .q1) = .qualifying ∧
      state (at_ 2 .qualifying .q4) = .qualifying ∧ state (at_ 2 .available .q4) = .qualifying ∧
      state (at_ 2 .available .q1) = .available ∧ state (at_ 2 .unavailable .q1) = .unavailable := by
  decide

theorem witness_SensorReadingIsJudged_first_interval :
    let v := { running id with osc := 125000000 }
    v.thermal.next ≤ v.osc ∧ v.thermal.next < 250000000 ∧
      (after (.sensorReading 0 none) (stateOf profile v)).live.thermal.sensor = .starting ∧
      (after (.sensorReading 0 none) (stateOf profile v)).live.thermal.next = 250000000 := by
  decide +kernel

theorem witness_FullQueueShedsTheLessUrgent_noted :
    let p := Port.line .east
    let e := own (.epoch epochBody)
    let full (last : QFrame) : Live :=
      running (fun v => v.mapPort p (fun _ => busy (List.replicate 7 e ++ [last])))
    let gives (last : QFrame) : Live := hand p e (full last)
    ((full (own (.probe 5))).port p).queue.length = capacity p ∧
      (gives { own (.probe 5) with note := .probe }).losses = [.probe .east] ∧
      (gives { own (.probe 5) with note := .roll 4 true }).losses = [.roll 4 true] ∧
      (gives { own (.response responseBody) with note := .restart }).restartDue = true ∧
      (gives (own (.probe 5))).losses = [] ∧ (gives (own (.probe 5))).restartDue = false ∧
      ((gives (own (.probe 5))).port p).insertDrops = 1 := by
  decide

theorem witness_RollClockAndTimeoutDriveTheCycle_work :
    let v := { headLive .up .up (some cycle2041) (atTime 0 20000000) with
      losses := [.probe .west, .roll 2041 false] }
    let w := workLosses primaryTables 2 v
    w.losses = [] ∧ (w.span .west).timeouts = 1 ∧ w.roll.rollTimeouts = 1 ∧
      (workLosses primaryTables 1 v).losses = [.roll 2041 false] := by
  decide +kernel

theorem witness_StandbyTakesOverAndReverts_within_a_command :
    let v := standbyAt 5 (fun v => { v with
      servo := { v.servo with state := .locked }, selection := some .ref
      epoch := { v.epoch with takeover := some { since := Reset.stamp, base := 0 } } })
    (takeoverCheck standbyTables v).epoch.active = true ∧ (takeoverCheck standbyTables v).epoch.takeovers = 1 ∧
      (0 : Nat) + interval Reset.stamp (standbyAt 4 id).now < (standbyTables.ring.takeover : Int) * 1000000000000 ∧
      (∀ w ∈ [{ v with part := .loading }, { v with selection := some .fwd },
        { v with servo := { v.servo with state := .acquire } }], takeoverCheck standbyTables w = w) := by
  decide +kernel

theorem witness_TakenWriteReplacesTheTable_port_and_ref_input :
    let t := { profile with
      node := { profile.node with refFitted := true }
      cand := { profile.cand with ref := { profile.cand.ref with enabled := true } } }
    let held := { refLive .available (some (announced 14 true 0)) (some 14) 2 with ts := (atTime 9 0).ts }
    let hot := { westSpan with fcsCount := 16 }
    candEnabled t .ref = true ∧ candEnabled profile .ref = false ∧
      (candEffects profile held).refIn = { held.refIn with pending := none, expected := none, unusable := 0 } ∧
      (candEffects t held).refIn = held.refIn ∧
      (candEffects t (refLive .disabled none none 0)).refIn.watch = (refLive .disabled none none 0).now ∧
      ((lineEffects frozenTables Config.line (frozenTables.port.line.get .west) .west
        (spanned Reset.span (westOf .up (some 14) 9))).span .west).mismatch = true ∧
      ((portEffects spanTables spanTables (spanned Reset.span hot)).span .west).state = .down := by
  decide +kernel

theorem witness_RefusedWriteChangesNothing_lengths :
    let l : List Byte := [0, 0, 0, 0, 0, 0, 8]
    l.length ≠ 8 ∧ setServo Config.servo 0 l = none ∧ setRing ringTables.ring 0 l = none ∧
      setNode profile.node 8 l = none ∧ setThermal profile.thermal 16 l = none := by
  decide

theorem witness_LinkDownEmptiesThePort_losses :
    let p := Port.line .west
    let v := { headLive .up .up (some cycle2041) (atTime 0 20000000) with servo := Reset.servo }.mapPort p (fun _ =>
      busy [{ own (.probe 5) with note := .roll 2041 false },
        { own (.response responseBody) with note := .restart }])
    let w := takeLinkDown primaryTables p v
    (v.port p).link = true ∧ w.losses = [.roll 2041 false] ∧ w.restartDue = true ∧ (w.span .west).state = .down ∧
      ((running id).port p).link = false := by
  decide +kernel

theorem witness_ResetPinKeepsLockedDownTables_frame_type :
    let s := { served with locks := { served.locks with node := .lockedDown } }
    (after (.resetn 0) s).live.nodeKept = true ∧ (after (.resetn 0) served).live.nodeKept = false ∧
      (after (.powerOn 0) s).live.nodeKept = false := by
  decide +kernel

theorem witness_CommandsActOnTheBlocks_not_served :
    let env : ReqEnv := { request with via := .line .east }
    State.reset.live.part = .loading ∧ served.live.part = .running ∧ env.via = .line .east ∧ env.relay = none ∧
      (after (.clearHistory 0 env) served).live.mgmt.discards = 1 ∧
      (after (.clearHistory 0 env) served).live.mgmt.executed = 0 := by
  decide +kernel

/-! ## Bytes, written out from chapter 12 -/

/-- Section 12.1: version 1, kind 2, ring 0, flags REV, origin 4, sender 4, target 255, hops 0, sequence 0x004D, body
length 2, and the probe sequence. -/
theorem test_bytes_of_a_probe :
    encodeFrame { hdr := probeHeader, body := .probe 77 } =
      [1, 2, 0, 1, 4, 4, 255, 0, 0x00, 0x4D, 0, 2, 0x00, 0x4D] ∧
      parseFrame [1, 2, 0, 1, 4, 4, 255, 0, 0x00, 0x4D, 0, 2, 0x00, 0x4D, 0, 0] =
        some { hdr := probeHeader, body := .probe 77 } := by
  decide

/-- R192: a flag bit above 1, a kind 9 and a version 2 are malformed; R193: a body of another length is. -/
theorem test_malformed_frames :
    parseFrame [1, 2, 0, 4, 4, 4, 255, 0, 0, 77, 0, 2, 0, 77] = none ∧
      parseFrame [1, 9, 0, 1, 4, 4, 255, 0, 0, 77, 0, 2, 0, 77] = none ∧
      parseFrame [2, 2, 0, 1, 4, 4, 255, 0, 0, 77, 0, 2, 0, 77] = none ∧
      parseFrame [1, 2, 0, 1, 4, 4, 255, 0, 0, 77, 0, 3, 0, 77, 0] = none := by
  decide

/-- Section 5.6's full queue: the EPOCH takes the place of the younger MGMT-RESPONSE f. -/
theorem test_drop_rule_of_section_5_6 :
    let r (k : BitVec 16) : QFrame := own (.response { responseBody with tag := k })
    let roll : QFrame := own (.probe 1)
    let q := [r 1, roll, own (.config (configFor 4)), own (.request requestBody), roll, r 6, roll,
      own (.config (configFor 5))]
    let v := running (fun v => v.mapPort (.line .east) (fun _ => busy q))
    ((hand (.line .east) (own (.epoch epochBody)) v).port (.line .east)).queue =
      [r 1, roll, own (.config (configFor 4)), own (.request requestBody), roll, roll, own (.config (configFor 5)),
        own (.epoch epochBody)] := by
  decide

end Sys2Proof.Tests
end

section
/-! The update of a closed window (R16 to R22): one equation of `servoUpdate` for each of its three outcomes, what the
judgement of the runs leaves alone, and the statements about skipped and PI updates that follow from them. -/

namespace Sys2Proof.Machine

/-! ## What a step of the time scale and the closing of a window leave -/

@[simp] theorem Live.stepTime_servo (t : Tables) (d : Int) (v : Live) : (v.stepTime t d).servo = v.servo := rfl

@[simp] theorem Live.recomputeF_servo (v : Live) : v.recomputeF.servo = v.servo := rfl

@[simp] theorem Servo.closeWindow_queue (s : Servo) : s.closeWindow.queue = [] := rfl
@[simp] theorem Servo.closeWindow_ungated (s : Servo) : s.closeWindow.ungated = false := rfl
@[simp] theorem Servo.closeWindow_state (s : Servo) : s.closeWindow.state = s.state := rfl
@[simp] theorem Servo.closeWindow_integ (s : Servo) : s.closeWindow.integ = s.integ := rfl
@[simp] theorem Servo.closeWindow_fServo (s : Servo) : s.closeWindow.fServo = s.fServo := rfl
@[simp] theorem Servo.closeWindow_lockRun (s : Servo) : s.closeWindow.lockRun = s.lockRun := rfl
@[simp] theorem Servo.closeWindow_unlockRun (s : Servo) : s.closeWindow.unlockRun = s.unlockRun := rfl
@[simp] theorem Servo.closeWindow_skipRun (s : Servo) : s.closeWindow.skipRun = s.skipRun := rfl
@[simp] theorem Servo.closeWindow_lastTheta (s : Servo) : s.closeWindow.lastTheta = s.lastTheta := rfl
@[simp] theorem Servo.closeWindow_phaseUnstable (s : Servo) : s.closeWindow.phaseUnstable = s.phaseUnstable := rfl
@[simp] theorem Servo.closeWindow_history (s : Servo) : s.closeWindow.history = s.history := rfl
@[simp] theorem Servo.closeWindow_skipped (s : Servo) : s.closeWindow.skipped = s.skipped := rfl

/-! ## The skipped update (R17) -/

theorem updateSkipped_iff (c : ServoTable) (s : Servo) :
    updateSkipped c s = true ↔ (acceptedOffsets s.queue).length < (c.n + 1) / 2 := decide_eq_true_iff

/-- An update is taken where it is not skipped: half the N samples or more are accepted (R17). -/
theorem updateSkipped_eq_false_iff (c : ServoTable) (s : Servo) :
    updateSkipped c s = false ↔ ¬ (acceptedOffsets s.queue).length < (c.n + 1) / 2 := decide_eq_false_iff_not

theorem servoUpdate_of_skipped {t : Tables} {v : Live} (h : updateSkipped t.servo v.servo = true) :
    servoUpdate t v = { v with servo := skipUpdate v.servo } := by
  rw [updateSkipped_iff] at h
  simp only [servoUpdate, if_pos h]

/-- What a skipped update leaves, and the runs, the window and the counter that it sets, in every servo state. -/
theorem skipUpdate_keeps (s : Servo) :
    (skipUpdate s).integ = s.integ ∧ (skipUpdate s).fServo = s.fServo ∧ (skipUpdate s).lastTheta = s.lastTheta ∧
    (skipUpdate s).history = s.history ∧ (skipUpdate s).queue = [] ∧ (skipUpdate s).ungated = false ∧
    (skipUpdate s).lockRun = 0 ∧ (skipUpdate s).unlockRun = 0 ∧ (skipUpdate s).skipped = bump s.skipped ∧
    (skipUpdate s).phaseUnstable = s.phaseUnstable := by
  unfold skipUpdate
  dsimp only
  split
  · split <;> simp
  · simp

/-- Below the third skip in a row LOCKED is kept. -/
theorem skipUpdate_stays_locked {s : Servo} (hs : s.state = .locked) (h : s.skipRun + 1 < 3) :
    (skipUpdate s).state = .locked ∧ (skipUpdate s).skipRun = s.skipRun + 1 := by
  simp [skipUpdate, hs, Nat.not_le.mpr h]

/-- The third skip in a row ends LOCKED. -/
theorem skipUpdate_leaves_locked {s : Servo} (hs : s.state = .locked) (h : 3 ≤ s.skipRun + 1) :
    (skipUpdate s).state = .acquire ∧ (skipUpdate s).skipRun = 0 := by
  simp [skipUpdate, hs, h]

theorem skipUpdate_not_locked {s : Servo} (hs : s.state ≠ .locked) :
    (skipUpdate s).state = s.state ∧ (skipUpdate s).skipRun = s.skipRun := by
  unfold skipUpdate
  dsimp only
  split
  case h_1 h => exact absurd h hs
  case h_2 => simp

/-! ## The PI update (R18 to R22) -/

/-- Whether a PI update steps the time scale and steers nothing (R18). -/
def updateSteps (c : ServoTable) (s : Servo) : Prop :=
  s.state = .acquire ∧ c.stepThr < (filteredOffset s).natAbs

/-- The frequency error that a PI update takes (R19, step 1). -/
def updateError (t : Tables) (v : Live) : Int :=
  frequencyError (filteredOffset v.servo) (sampleRate t v) t.servo.n

/-- The servo after the PI computation alone, for a frequency error `r` (R19). -/
def Servo.steered (c : ServoTable) (r : Int) (s : Servo) : Servo :=
  { s with skipRun := 0, integ := nextInteg c s.integ r, fServo := nextFServo c (nextInteg c s.integ r) r }

/-- The runs as the servo's state judges them: toward lock in ACQUIRE, toward unlock otherwise (R20, R21). -/
def Servo.judged (c : ServoTable) (theta : Int) (s : Servo) : Servo :=
  match s.state with
  | .acquire => judgeLock c theta s
  | _ => judgeUnlock c theta s

/-- The servo after a PI update that steers (R19 to R22). -/
def steeredServo (t : Tables) (v : Live) : Servo :=
  { (v.servo.steered t.servo (updateError t v)).judged t.servo (filteredOffset v.servo) with
      lastTheta := filteredOffset v.servo }.closeWindow

theorem servoUpdate_of_steps {t : Tables} {v : Live} (h : updateSkipped t.servo v.servo = false)
    (hs : updateSteps t.servo v.servo) :
    servoUpdate t v = Live.stepTime t (-(filteredOffset v.servo)) { v with servo := { v.servo with
      queue := [], ungated := false, skipRun := 0, lockRun := 0, phaseSteps := bump v.servo.phaseSteps
      lastTheta := filteredOffset v.servo } } := by
  rw [updateSkipped_eq_false_iff] at h
  unfold servoUpdate
  exact (if_neg h).trans (if_pos hs)

theorem servoUpdate_of_steers {t : Tables} {v : Live} (h : updateSkipped t.servo v.servo = false)
    (hs : ¬ updateSteps t.servo v.servo) :
    servoUpdate t v = ({ v with servo := steeredServo t v } : Live).recomputeF := by
  rw [updateSkipped_eq_false_iff] at h
  unfold servoUpdate
  exact (if_neg h).trans (if_neg hs)

/-! ## The judgement of the runs -/

theorem judgeLock_above {c : ServoTable} {theta : Int} (h : c.lockThr < theta.natAbs) (s : Servo) :
    judgeLock c theta s = { s with lockRun := 0 } := if_neg (Nat.not_le.mpr h)

theorem judgeLock_counts {c : ServoTable} {theta : Int} {s : Servo} (h : theta.natAbs ≤ c.lockThr)
    (hr : s.lockRun + 1 < 4) : judgeLock c theta s = { s with lockRun := s.lockRun + 1 } :=
  (if_pos h).trans (if_neg (Nat.not_le.mpr hr))

theorem judgeLock_locks {c : ServoTable} {theta : Int} {s : Servo} (h : theta.natAbs ≤ c.lockThr)
    (hr : 4 ≤ s.lockRun + 1) :
    judgeLock c theta s = { s with state := .locked, phaseUnstable := false }.clearRuns :=
  (if_pos h).trans (if_pos hr)

/-- The judgement toward lock leaves the steering and the history, and no skip run where there was none. -/
theorem judgeLock_keeps (c : ServoTable) (theta : Int) (s : Servo) :
    (judgeLock c theta s).integ = s.integ ∧ (judgeLock c theta s).fServo = s.fServo ∧
    (judgeLock c theta s).history = s.history ∧ (s.skipRun = 0 → (judgeLock c theta s).skipRun = 0) := by
  rcases Nat.lt_or_ge c.lockThr theta.natAbs with h | h
  · simp [judgeLock_above h]
  · rcases Nat.lt_or_ge (s.lockRun + 1) 4 with hr | hr
    · simp [judgeLock_counts h hr]
    · simp [judgeLock_locks h hr, Servo.clearRuns]

/-- The judgement toward unlock leaves the steering, and no skip run where there was none. -/
theorem judgeUnlock_keeps (c : ServoTable) (theta : Int) (s : Servo) :
    (judgeUnlock c theta s).integ = s.integ ∧ (judgeUnlock c theta s).fServo = s.fServo ∧
    (s.skipRun = 0 → (judgeUnlock c theta s).skipRun = 0) := by
  unfold judgeUnlock
  split
  · split <;> simp [Servo.clearRuns]
  · simp

theorem Servo.judged_of_acquire {s : Servo} (hs : s.state = .acquire) (c : ServoTable) (theta : Int) :
    s.judged c theta = judgeLock c theta s := by
  simp only [Servo.judged, hs]

/-- The judgement leaves the steering, and no skip run where there was none, in every servo state. -/
theorem Servo.judged_keeps (c : ServoTable) (theta : Int) (s : Servo) :
    (s.judged c theta).integ = s.integ ∧ (s.judged c theta).fServo = s.fServo ∧
    (s.skipRun = 0 → (s.judged c theta).skipRun = 0) := by
  unfold Servo.judged
  split
  · obtain ⟨hi, hf, _, hk⟩ := judgeLock_keeps c theta s
    exact ⟨hi, hf, hk⟩
  · exact judgeUnlock_keeps c theta s

@[simp] theorem Servo.steered_state (c : ServoTable) (r : Int) (s : Servo) : (s.steered c r).state = s.state := rfl
@[simp] theorem Servo.steered_lockRun (c : ServoTable) (r : Int) (s : Servo) :
    (s.steered c r).lockRun = s.lockRun := rfl

/-! ## The servo after an update that steers -/

section
variable (t : Tables) (v : Live)

@[simp] theorem steeredServo_queue : (steeredServo t v).queue = [] := rfl
@[simp] theorem steeredServo_ungated : (steeredServo t v).ungated = false := rfl
@[simp] theorem steeredServo_lastTheta : (steeredServo t v).lastTheta = filteredOffset v.servo := rfl

/-- The steering is that of the PI computation (R19), whatever becomes of the runs. -/
theorem steeredServo_steering :
    (steeredServo t v).integ = nextInteg t.servo v.servo.integ (updateError t v) ∧
    (steeredServo t v).fServo =
      nextFServo t.servo (nextInteg t.servo v.servo.integ (updateError t v)) (updateError t v) := by
  obtain ⟨hinteg, hfServo, _⟩ :=
    Servo.judged_keeps t.servo (filteredOffset v.servo) (v.servo.steered t.servo (updateError t v))
  exact ⟨hinteg, hfServo⟩

@[simp] theorem steeredServo_skipRun : (steeredServo t v).skipRun = 0 := by
  obtain ⟨_, _, hskip⟩ :=
    Servo.judged_keeps t.servo (filteredOffset v.servo) (v.servo.steered t.servo (updateError t v))
  exact hskip rfl

/-- In ACQUIRE the runs are judged toward lock (R20). -/
theorem steeredServo_of_acquire (hs : v.servo.state = .acquire) :
    steeredServo t v = { judgeLock t.servo (filteredOffset v.servo) (v.servo.steered t.servo (updateError t v)) with
      lastTheta := filteredOffset v.servo }.closeWindow := by
  simp only [steeredServo, Servo.judged_of_acquire (s := v.servo.steered t.servo (updateError t v)) hs]

end

/-! ## The five steps in integers (R19) -/

theorem nextInteg_eq (c : ServoTable) (integ r : Int) :
    nextInteg c integ r = max (-(c.limit : Int)) (min c.limit (integ - Int.tdiv r (2 ^ c.ki))) := by
  rw [nextInteg, clampSym_eq, shiftZero_eq]

theorem nextFServo_eq (c : ServoTable) (iNew r : Int) :
    nextFServo c iNew r = max (-(c.limit : Int)) (min c.limit (iNew + -(Int.tdiv r (2 ^ c.kp)))) := by
  rw [nextFServo, clampSym_eq, shiftZero_eq]

/-- F_total after a recomputation (R2). -/
theorem Live.recomputeF_fTotal (v : Live) :
    v.recomputeF.ts.fTotal = max (-100000000) (min 100000000 (v.servo.fServo + v.thermal.fTemp)) :=
  clampSym_eq 100000000 _

/-! ## The statements -/

/-- Settles O12: an update that is not skipped is the step's equation or the steering one. -/
theorem piUpdateSteers : Obligations.PiUpdateSteers := by
  unfold Obligations.PiUpdateSteers
  intro t v theta hk htheta
  subst htheta
  refine ⟨fun hs hthr => servoUpdate_of_steps hk ⟨hs, by omega⟩, fun hsel => by simp [sampleRate, hsel], ?_, ?_⟩
  · rintro (hsel | hsel) <;> simp [sampleRate, hsel]
  · intro r p iNew hstate hr hp hi
    have hsteer : ¬ updateSteps t.servo v.servo := by
      rintro ⟨hacq, habove⟩
      rcases hstate with hlocked | ⟨_, hbelow⟩
      · simp [hlocked] at hacq
      · omega
    obtain ⟨hinteg, hfServo⟩ := steeredServo_steering t v
    have herr : updateError t v = r := hr.symm
    rw [herr, nextInteg_eq, ← hi] at hinteg
    rw [herr, nextInteg_eq, ← hi, nextFServo_eq, ← hp] at hfServo
    rw [servoUpdate_of_steers hk hsteer]
    exact ⟨hinteg, hfServo, steeredServo_lastTheta t v, steeredServo_queue t v, steeredServo_ungated t v,
      steeredServo_skipRun t v, rfl, rfl, Live.recomputeF_fTotal _⟩

/-- Settles O13: above the step threshold the update steps, and at or below it the run is judged toward lock. -/
theorem lockRunReachesLocked : Obligations.LockRunReachesLocked := by
  unfold Obligations.LockRunReachesLocked
  intro t v theta hs hk htheta
  subst htheta
  rcases Nat.lt_or_ge t.servo.stepThr (filteredOffset v.servo).natAbs with hthr | hthr
  · rw [servoUpdate_of_steps hk ⟨hs, hthr⟩]
    exact ⟨rfl, rfl, fun _ => ⟨rfl, hs⟩, fun h => absurd hthr (Nat.not_lt.mpr h),
      fun h => absurd hthr (Nat.not_lt.mpr h), fun h => absurd hthr (Nat.not_lt.mpr h)⟩
  · rw [servoUpdate_of_steers hk (fun h => absurd h.2 (Nat.not_lt.mpr hthr))]
    obtain ⟨_, _, hhist, _⟩ :=
      judgeLock_keeps t.servo (filteredOffset v.servo) (v.servo.steered t.servo (updateError t v))
    rw [Live.recomputeF_servo, steeredServo_of_acquire t v hs]
    refine ⟨hhist, rfl, fun h => absurd h (Nat.not_lt.mpr hthr), fun _ habove => ?_,
      fun _ hbelow hlow => ?_, fun _ hbelow hfour => ?_⟩
    · simp [judgeLock_above habove, hs]
    · simp [judgeLock_counts (s := v.servo.steered _ _) hbelow hlow, hs]
    · simp [judgeLock_locks (s := v.servo.steered _ _) hbelow hfour, Servo.clearRuns]

/-- Settles O15: a skipped update is `skipUpdate` and nothing else, and each PI update ends the run of skips. -/
theorem skippedUpdateLeavesTheSteering : Obligations.SkippedUpdateLeavesTheSteering := by
  unfold Obligations.SkippedUpdateLeavesTheSteering
  intro t v
  refine ⟨updateSkipped_iff _ _, fun hk => ?_, fun hk => ?_⟩
  · by_cases hs : updateSteps t.servo v.servo
    · rw [servoUpdate_of_steps hk hs]; rfl
    · rw [servoUpdate_of_steers hk hs]; exact steeredServo_skipRun t v
  · obtain ⟨hinteg, hfServo, htheta, hhist, hqueue, hungated, hlock, hunlock, hskipped, hphase⟩ :=
      skipUpdate_keeps v.servo
    rw [servoUpdate_of_skipped hk]
    exact ⟨rfl, hinteg, hfServo, htheta, hhist, hqueue, hungated, hlock, hunlock, hskipped, hphase,
      skipUpdate_stays_locked, skipUpdate_leaves_locked, skipUpdate_not_locked⟩

end Sys2Proof.Machine
end

section
/-! What an operation on the blocks keeps, as three relations between the blocks before it and after it, and one lemma
for each operation of the ports, the alarm unit and the roll engine. `EveryStepKeepsTheRanges` and
`TimeMovesOnlyBySamples` both rest on them. -/

namespace Sys2Proof.Machine

/-! ## The relations -/

/-- The ranges that `EveryStepKeepsTheRanges` names, of one state's blocks. -/
structure Live.InRange (v : Live) : Prop where
  ts : v.ts.sound = true
  ports : v.portsSound = true
  histories : v.historiesSound = true
  counts : v.countsSound = true

/-- The ranges are kept, and the time scale moves neither on nor by a step. -/
structure Live.Steady (v w : Live) : Prop where
  value : w.ts.value = v.ts.value
  rem : w.ts.rem = v.ts.rem
  steps : w.ts.steps = v.ts.steps
  range : v.InRange → w.InRange

/-- A steady change that leaves the selection, and the state and the class of each candidate but those that become
UNAVAILABLE. -/
structure Live.Calm (v w : Live) : Prop extends Live.Steady v w where
  selection : w.selection = v.selection
  cands : ∀ c, ((w.cands.get c).state = (v.cands.get c).state ∧ (w.cands.get c).offered = (v.cands.get c).offered) ∨
    (w.cands.get c).state = .unavailable

/-- A steady change that leaves the selection and the candidates. -/
structure Live.Still (v w : Live) : Prop extends Live.Steady v w where
  selection : w.selection = v.selection
  cands : w.cands = v.cands

theorem Live.Steady.refl (v : Live) : v.Steady v := ⟨rfl, rfl, rfl, id⟩

theorem Live.Steady.trans {u v w : Live} (h : u.Steady v) (k : v.Steady w) : u.Steady w :=
  ⟨k.value.trans h.value, k.rem.trans h.rem, k.steps.trans h.steps, fun r => k.range (h.range r)⟩

theorem Live.Calm.trans {u v w : Live} (h : u.Calm v) (k : v.Calm w) : u.Calm w where
  toSteady := h.toSteady.trans k.toSteady
  selection := k.selection.trans h.selection
  cands c := by
    rcases k.cands c with ⟨hs, ho⟩ | hk
    · rw [hs, ho]; exact h.cands c
    · exact .inr hk

theorem Live.Calm.after {u v w : Live} (k : v.Calm w) (h : u.Calm v) : u.Calm w := h.trans k

theorem Live.Steady.after {u v w : Live} (k : v.Steady w) (h : u.Steady v) : u.Steady w := h.trans k

theorem Live.Still.refl (v : Live) : v.Still v := ⟨.refl v, rfl, rfl⟩

theorem Live.Still.trans {u v w : Live} (h : u.Still v) (k : v.Still w) : u.Still w :=
  ⟨h.toSteady.trans k.toSteady, k.selection.trans h.selection, k.cands.trans h.cands⟩

/-- `trans` with the later change first, which then says what the state between the two is. -/
theorem Live.Still.after {u v w : Live} (k : v.Still w) (h : u.Still v) : u.Still w := h.trans k

theorem Live.Still.calm {v w : Live} (h : v.Still w) : v.Calm w :=
  ⟨h.toSteady, h.selection, fun c => .inl (by rw [h.cands]; exact ⟨rfl, rfl⟩)⟩

/-! ## Changes of fields that the relations see -/

/-- What the relations see of the blocks. -/
def Live.gauge (v : Live) :
    TimeScale × Ports × Nat × Nat × Nat × Nat × Nat × Trio CandRec × Option Cand :=
  (v.ts, v.io, v.servo.history.length, v.alarms.history.length, v.alarms.points.length, v.roll.map.length,
    v.mgmt.relays.length, v.cands, v.selection)

theorem Live.portsSound_iff (v : Live) : v.portsSound = true ↔ ∀ p, PortIO.sound p (v.port p) = true := by
  simp only [Live.portsSound, List.all_eq_true]
  refine ⟨fun h p => h p ?_, fun h p _ => h p⟩
  cases p with
  | line d => cases d <;> simp [allPorts]
  | site d => cases d <;> simp [allPorts]
  | access i => fin_cases i <;> simp [allPorts]

theorem Live.historiesSound_iff (v : Live) :
    v.historiesSound = true ↔ v.servo.history.length ≤ 64 ∧ v.alarms.history.length ≤ 64 := by
  simp [Live.historiesSound]

theorem Live.countsSound_iff (v : Live) : v.countsSound = true ↔
    v.alarms.points.length = 21 ∧ v.roll.map.length = 32 ∧ v.mgmt.relays.length = 8 := by
  simp [Live.countsSound, and_assoc]

/-- A change that the gauge does not see is a still one. -/
theorem Live.Still.of_gauge {v w : Live} (h : w.gauge = v.gauge) : v.Still w := by
  simp only [Live.gauge, Prod.mk.injEq] at h
  obtain ⟨hts, hio, hsh, hah, hp, hm, hr, hc, hs⟩ := h
  refine ⟨⟨by rw [hts], by rw [hts], by rw [hts], fun r => ⟨?_, ?_, ?_, ?_⟩⟩, hs, hc⟩
  · rw [hts]; exact r.ts
  · rw [Live.portsSound_iff]
    intro p
    have := (Live.portsSound_iff v).mp r.ports p
    rwa [Live.port, hio]
  · rw [Live.historiesSound_iff, hsh, hah]; exact (Live.historiesSound_iff v).mp r.histories
  · rw [Live.countsSound_iff, hp, hm, hr]; exact (Live.countsSound_iff v).mp r.counts

/-- A change of one port that keeps the port within its capacities. -/
theorem Live.mapPort_still (v : Live) (p : Port) (f : PortIO → PortIO)
    (h : PortIO.sound p (v.port p) = true → PortIO.sound p (f (v.port p)) = true) : v.Still (v.mapPort p f) := by
  refine ⟨⟨rfl, rfl, rfl, fun r => ⟨r.ts, ?_, r.histories, r.counts⟩⟩, rfl, rfl⟩
  have hv := (Live.portsSound_iff v).mp r.ports
  rw [Live.portsSound_iff]
  intro q
  simp only [Live.mapPort, Live.port]
  by_cases hq : p = q
  · subst hq
    rw [Ports.get_set_same]
    exact h (hv p)
  · rw [Ports.get_set_other _ hq]
    exact hv q

/-- A change of the alarm unit that keeps its history within 64 entries and the number of its points. -/
theorem Live.alarms_still (v : Live) (a : Alarms) (hh : v.alarms.history.length ≤ 64 → a.history.length ≤ 64)
    (hp : a.points.length = v.alarms.points.length) : v.Still { v with alarms := a } := by
  refine ⟨⟨rfl, rfl, rfl, fun r => ⟨r.ts, r.ports, ?_, ?_⟩⟩, rfl, rfl⟩
  · have := (Live.historiesSound_iff v).mp r.histories
    exact (Live.historiesSound_iff _).mpr ⟨this.1, hh this.2⟩
  · have := (Live.countsSound_iff v).mp r.counts
    exact (Live.countsSound_iff _).mpr ⟨hp.trans this.1, this.2⟩

/-- A change of the servo that keeps its history within 64 entries. -/
theorem Live.servo_still (v : Live) (s : Servo) (hh : v.servo.history.length ≤ 64 → s.history.length ≤ 64) :
    v.Still { v with servo := s } := by
  refine ⟨⟨rfl, rfl, rfl, fun r => ⟨r.ts, r.ports, ?_, r.counts⟩⟩, rfl, rfl⟩
  have := (Live.historiesSound_iff v).mp r.histories
  exact (Live.historiesSound_iff _).mpr ⟨hh this.1, this.2⟩

/-- A change of the roll engine that keeps the number of its ring map entries. -/
theorem Live.roll_still (v : Live) (x : Roll) (h : x.map.length = v.roll.map.length) :
    v.Still { v with roll := x } := .of_gauge (by simp only [Live.gauge, h])

/-- A change of the management unit that keeps the number of its relay handles. -/
theorem Live.mgmt_still (v : Live) (m : Mgmt) (h : m.relays.length = v.mgmt.relays.length) :
    v.Still { v with mgmt := m } := .of_gauge (by simp only [Live.gauge, h])

theorem Live.mapSpan_still (v : Live) (d : Side) (f : Span → Span) : v.Still (v.mapSpan d f) := .of_gauge rfl

theorem Live.mapAccess_still (v : Live) (i : Fin 4) (f : AccessPort → AccessPort) : v.Still (v.mapAccess i f) :=
  .of_gauge rfl

theorem Live.epoch_still (v : Live) (e : Epoch) : v.Still { v with epoch := e } := .of_gauge rfl

/-- F_total is clamped to its range (R2). -/
theorem Live.recomputeF_still (v : Live) : v.Still v.recomputeF := by
  refine ⟨⟨rfl, rfl, rfl, fun r => ⟨?_, r.ports, r.histories, r.counts⟩⟩, rfl, rfl⟩
  have hv := r.ts
  have hf : v.recomputeF.ts.fTotal = _ := clampSym_eq 100000000 _
  simp only [TimeScale.sound, Bool.and_eq_true, decide_eq_true_eq] at hv ⊢
  obtain ⟨⟨⟨hwf, hrem⟩, _⟩, _⟩ := hv
  exact ⟨⟨⟨hwf, hrem⟩, by rw [hf]; omega⟩, by rw [hf]; omega⟩

/-- What an egress changes is still where the ports stay within their capacities. -/
theorem Live.EgressOf.still {v w : Live} (h : v.EgressOf w) (hp : v.portsSound = true → w.portsSound = true) :
    v.Still w := by
  refine ⟨⟨by rw [h.ts], by rw [h.ts], by rw [h.ts], fun r => ⟨?_, hp r.ports, ?_, ?_⟩⟩, h.selection, h.cands⟩
  · rw [h.ts]; exact r.ts
  · have := r.histories
    rwa [Live.historiesSound, h.servo, h.alarms]
  · have := r.counts
    rwa [Live.countsSound, h.alarms, h.roll, h.mgmt]

/-! ## Lists -/

@[simp] theorem modifyAt_length {α : Type} (i : Nat) (f : α → α) (l : List α) : (modifyAt i f l).length = l.length := by
  induction l generalizing i with
  | nil => cases i <;> rfl
  | cons x xs ih => cases i <;> simp [modifyAt, ih]

theorem appendCapped_length_le {α : Type} {l : List α} (x : α) (h : l.length ≤ 64) : (appendCapped l x).length ≤ 64 := by
  unfold appendCapped
  split
  · simp; omega
  · simp; omega

theorem splitFirst_length {α : Type} {f : α → Bool} {l : List α} {x : α} {r : List α}
    (h : splitFirst f l = some (x, r)) : l.length = r.length + 1 := by
  induction l generalizing r with
  | nil => simp [splitFirst] at h
  | cons y ys ih =>
    unfold splitFirst at h
    split at h
    · cases h; rfl
    · simp only [Option.map_eq_some_iff, Prod.mk.injEq] at h
      obtain ⟨⟨a, b⟩, hs, rfl, rfl⟩ := h
      simp [ih hs]

theorem splitLast_length {α : Type} {f : α → Bool} {l : List α} {x : α} {r : List α}
    (h : splitLast f l = some (x, r)) : l.length = r.length + 1 := by
  simp only [splitLast, Option.map_eq_some_iff, Prod.mk.injEq] at h
  obtain ⟨⟨a, b⟩, hs, rfl, rfl⟩ := h
  simpa using splitFirst_length hs

/-! ## The ports (sections 5.1 and 5.3) -/

theorem PortIO.sound_iff (p : Port) (x : PortIO) :
    PortIO.sound p x = true ↔ x.queue.length ≤ capacity p ∧ throughUsed x ≤ throughCapacity := by
  simp [PortIO.sound]

/-- A port whose queue and whose through path hold no more than before stays within its capacities. -/
theorem PortIO.sound_of_le {p : Port} {x y : PortIO} (hq : y.queue.length ≤ x.queue.length)
    (ht : throughUsed y ≤ throughUsed x) (h : PortIO.sound p x = true) : PortIO.sound p y = true := by
  rw [PortIO.sound_iff] at h ⊢
  exact ⟨hq.trans h.1, ht.trans h.2⟩

theorem onTransmit_still (p : Port) (q : QFrame) (v : Live) : v.Still (onTransmit p q v) := by
  refine (onTransmit_egress p q v).still fun h => ?_
  have hio : (onTransmit p q v).io = v.io := by
    unfold onTransmit probeSent rollSent
    split <;> (try split) <;> (try split) <;> rfl
  rw [Live.portsSound_iff] at h ⊢
  intro r
  rw [Live.port, hio]
  exact h r

theorem foldl_frameLength (l : List RawFrame) (n : Nat) :
    l.foldl (fun a f => a + frameLength f) n = n + l.foldl (fun a f => a + frameLength f) 0 := by
  induction l generalizing n with
  | nil => rfl
  | cons x xs ih => simp only [List.foldl_cons]; rw [ih (n + _), ih (0 + _)]; omega

/-- A grant takes one frame from where it waits, and the through buffer holds the frame it sends (R80, R87). -/
theorem grant_still (p : Port) (v : Live) : v.Still (grant p v) := by
  unfold grant
  dsimp only
  split
  · exact .refl v
  · next hidle =>
    have hs : (v.port p).sending = none := by
      simp only [not_or, Option.isSome_iff_ne_none, not_not] at hidle
      exact hidle.2
    split
    · next q rest hsplit =>
      refine .trans (Live.mapPort_still v p _ (PortIO.sound_of_le ?_ ?_)) (onTransmit_still p _ _)
      · have := splitFirst_length hsplit
        simp; omega
      · simp [throughUsed, hs]
    · split
      · next f fs hthrough =>
        refine Live.mapPort_still v p _ (PortIO.sound_of_le le_rfl ?_)
        simp only [throughUsed, hs, hthrough, List.foldl_cons]
        rw [foldl_frameLength fs (0 + _)]
        omega
      · exact .refl v

theorem noteLost_still (r : Bool) (p : Port) (q : QFrame) (v : Live) : v.Still (noteLost r p q v) := by
  unfold noteLost
  split
  · split
    · exact .of_gauge rfl
    · exact .refl v
  all_goals exact .of_gauge rfl

theorem insertDrop_still (p : Port) (v : Live) : v.Still (insertDrop p v) := Live.mapPort_still v p _ id

theorem withdraw_still (p : Port) (f : QFrame → Bool) (v : Live) : v.Still (withdraw p f v) :=
  Live.mapPort_still v p _ (PortIO.sound_of_le (List.length_filter_le _ _) le_rfl)

/-- A frame handed to a port leaves it within its capacities: it joins where there is room, takes the place of one that
is shed, or is dropped (R81, R88, R90). -/
theorem hand_still (p : Port) (q : QFrame) (v : Live) : v.Still (hand p q v) := by
  have dropped : v.Still (noteLost false p q (insertDrop p v)) := .trans (insertDrop_still p v) (noteLost_still _ _ _ _)
  unfold hand
  dsimp only
  split
  · exact dropped
  · split
    · next hroom =>
      refine .trans (Live.mapPort_still v p _ fun h => ?_) (grant_still p _)
      rw [PortIO.sound_iff] at h ⊢
      exact ⟨by simp; omega, h.2⟩
    · split
      · exact dropped
      · split
        · exact dropped
        · split
          · next old rest hsplit =>
            have hlen := splitLast_length hsplit
            exact .trans (.trans (.trans (Live.mapPort_still v p _ (PortIO.sound_of_le (by simp; omega) le_rfl))
              (insertDrop_still p _)) (noteLost_still _ _ _ _)) (grant_still p _)
          · exact .refl v

theorem passThrough_still (p : Port) (f : RawFrame) (v : Live) : v.Still (passThrough p f v) := by
  unfold passThrough
  split
  · exact .refl v
  · next q _ =>
    dsimp only
    split
    · next hfit =>
      refine .trans (Live.mapPort_still v q _ fun h => ?_) (grant_still q _)
      rw [PortIO.sound_iff] at h ⊢
      refine ⟨h.1, ?_⟩
      have := hfit.2
      simp only [throughUsed, List.foldl_append, List.foldl_cons, List.foldl_nil] at this ⊢
      omega
    · exact Live.mapPort_still v q _ id

/-! ## The alarm unit (chapter 10) -/

theorem mapPoint_still (i : Nat) (f : Point → Point) (v : Live) : v.Still (mapPoint i f v) :=
  Live.alarms_still v _ id (modifyAt_length _ _ _)

theorem sendNotice_still (t : Tables) (r : AlarmRecord) (d : Side) (v : Live) : v.Still (sendNotice t r d v) :=
  (hand_still _ _ _).after (Live.alarms_still v _ id rfl)

theorem sendNotices_still (t : Tables) (r : AlarmRecord) (v : Live) : v.Still (sendNotices t r v) := by
  unfold sendNotices
  split
  · exact .refl v
  · exact sendNotice_still _ _ _ _
  · exact sendNotice_still _ _ _ _
  · exact .trans (sendNotice_still _ _ _ _) (sendNotice_still _ _ _ _)

theorem alarmEvent_still (t : Tables) (i : Nat) (c : Bool) (sev : Severity) (v : Live) :
    v.Still (alarmEvent t i c sev v) := by
  have summarised (w : Live) (h : v.Still w) :
      v.Still { w with alarms := { w.alarms with summary := severitySummary w.alarms.points } } :=
    h.trans (Live.alarms_still w _ id rfl)
  unfold alarmEvent
  refine summarised _ ?_
  dsimp only
  split
  · exact (sendNotices_still _ _ _).after (Live.alarms_still v _ (appendCapped_length_le _) rfl)
  · exact Live.alarms_still v _ (appendCapped_length_le _) rfl

theorem raisePoint_still (t : Tables) (i : Nat) (v : Live) : v.Still (raisePoint t i v) :=
  .trans (mapPoint_still _ _ _) (alarmEvent_still _ _ _ _ _)

theorem clearPoint_still (t : Tables) (i : Nat) (v : Live) : v.Still (clearPoint t i v) := by
  unfold clearPoint
  split
  · exact .trans (mapPoint_still _ _ _) (alarmEvent_still _ _ _ _ _)
  · exact .refl v

theorem soakCheck_still (t : Tables) (i : Nat) (v : Live) : v.Still (soakCheck t i v) := by
  unfold soakCheck
  split
  · split
    · split
      · exact raisePoint_still _ _ _
      · exact .refl v
    · split
      · exact clearPoint_still _ _ _
      · exact .refl v
    · exact .refl v
  · exact .refl v

theorem handCondition_still (t : Tables) (i : Nat) (b : Bool) (v : Live) : v.Still (handCondition t i b v) := by
  unfold handCondition
  split
  · split
    · exact .refl v
    · split
      · exact .trans (mapPoint_still _ _ _) (soakCheck_still _ _ _)
      · exact mapPoint_still _ _ _
      · exact .trans (mapPoint_still _ _ _) (soakCheck_still _ _ _)
      · exact mapPoint_still _ _ _
      · exact mapPoint_still _ _ _
  · exact .refl v

theorem handConditions_still (t : Tables) (bs : List Bool) : ∀ (i : Nat) (v : Live),
    v.Still (handConditions t i bs v) := by
  induction bs with
  | nil => exact fun _ v => .refl v
  | cons b bs ih => exact fun i v => .trans (handCondition_still t i b v) (ih _ _)

theorem refreshAlarms_still (t : Tables) (v : Live) : v.Still (refreshAlarms t v) := by
  unfold refreshAlarms
  split
  · exact .refl v
  · exact handConditions_still _ _ _ _

theorem soakChecks_still (t : Tables) (l : List Nat) : ∀ v : Live, v.Still (soakChecks t l v) := by
  induction l with
  | nil => exact fun v => .refl v
  | cons i l ih => exact fun v => .trans (soakCheck_still t i v) (ih _)

/-! ## The roll engine (chapters 7 and 8) -/

@[simp] theorem deriveEntries_length (t : Tables) (g : Bool) (l : List MapEntry) :
    ∀ i, (deriveEntries t g i l).length = l.length := by
  induction l with
  | nil => exact fun _ => rfl
  | cons e l ih => intro i; simp [deriveEntries, ih]

@[simp] theorem judgeSilences_length (c : Cycle) (self : Nat) (l : List MapEntry) :
    ∀ i, (judgeSilences c self i l).length = l.length := by
  induction l with
  | nil => exact fun _ => rfl
  | cons e l ih => intro i; simp [judgeSilences, ih]

@[simp] theorem copyEntries_length (silent : BitVec 32) (l : List MapEntry) :
    ∀ (i : Nat) (ss : List (Option Slot)), (copyEntries silent i ss l).length = l.length := by
  induction l with
  | nil => exact fun _ _ => rfl
  | cons e l ih => intro i ss; simp [copyEntries, ih]

@[simp] theorem mergeSlots_length (seq : Seq16) (rev : Bool) (gen : Nat) (l : List MapEntry) :
    ∀ (i : Nat) (ss : List (Option Slot)), (mergeSlots seq rev gen i ss l).2.length = l.length := by
  induction l with
  | nil => intro i ss; cases ss <;> rfl
  | cons e l ih =>
    intro i ss
    cases ss with
    | nil => rfl
    | cons s ss =>
      rw [mergeSlots]
      cases s with
      | none => simp [ih]
      | some x => dsimp only; split <;> simp [ih]

theorem mapEntryAt_still (i : Nat) (f : MapEntry → MapEntry) (v : Live) : v.Still (mapEntryAt i f v) :=
  Live.roll_still v _ (modifyAt_length _ _ _)

theorem sendRoll_still (t : Tables) (rev : Bool) (seq : Seq16) (v : Live) : v.Still (sendRoll t rev seq v) :=
  ((hand_still _ _ _).after (mapEntryAt_still _ _ _)).after (refreshAlarms_still t v)

theorem deriveConfig_still (t : Tables) (g : Bool) (v : Live) : v.Still (deriveConfig t g v) :=
  Live.roll_still v _ (deriveEntries_length _ _ _ _)

theorem sendConfig_still {t : Tables} {i : Nat} {v w : Live} (h : sendConfig t i v = some w) : v.Still w := by
  unfold sendConfig at h
  split at h
  · cases h
  · cases h
    exact ((hand_still _ _ _).after (mapEntryAt_still _ _ _)).after (Live.roll_still v _ rfl)

theorem sendConfigs_still (t : Tables) (l : List Nat) : ∀ (n : Nat) (v : Live), v.Still (sendConfigs t n l v).2 := by
  induction l with
  | nil => intro n v; cases n <;> exact .refl v
  | cons i l ih =>
    intro n v
    cases n with
    | zero => exact .refl v
    | succ n =>
      rw [sendConfigs]
      split
      · next v' h => exact .trans (sendConfig_still h) (ih _ _)
      · exact ih _ _

theorem configScan_still (t : Tables) (v : Live) : v.Still (configScan t v) := by
  unfold configScan
  split
  · exact .refl v
  · exact .trans (sendConfigs_still _ _ _ _) (sendConfigs_still _ _ _ _)

theorem endCycle_still (t : Tables) (c : Cycle) (f : RollResult) (r : Option RollResult) (v : Live) :
    v.Still (endCycle t c f r v) :=
  ((configScan_still _ _).after (deriveConfig_still _ _ _)).after
    (Live.roll_still v _ (judgeSilences_length _ _ _ _))

theorem startReverse_still (t : Tables) (c : Cycle) (f : RollResult) (v : Live) : v.Still (startReverse t c f v) := by
  unfold startReverse
  dsimp only
  split
  · exact endCycle_still _ _ _ _ _
  · exact (sendRoll_still _ _ _ _).after (Live.roll_still v _ rfl)

theorem rollOutcome_still (t : Tables) (o : RollResult) (v : Live) : v.Still (rollOutcome t o v) := by
  unfold rollOutcome
  split
  · exact .refl v
  · split
    · split
      · exact endCycle_still _ _ _ _ _
      · exact startReverse_still _ _ _ _
    · exact endCycle_still _ _ _ _ _

theorem beginCycle_still (t : Tables) (v : Live) : v.Still (beginCycle t v) := by
  unfold beginCycle
  dsimp only
  split
  · exact (startReverse_still _ _ _ _).after (Live.roll_still v _ rfl)
  · exact (sendRoll_still _ _ _ _).after (Live.roll_still v _ rfl)

theorem rollTick_still (t : Tables) (v : Live) : v.Still (rollTick t v) := by
  unfold rollTick
  dsimp only
  split
  · exact (beginCycle_still _ _).after (Live.roll_still v _ rfl)
  · exact Live.roll_still v _ rfl

theorem becomeHead_still (t : Tables) (v : Live) : v.Still (becomeHead t v) :=
  (beginCycle_still _ _).after (Live.roll_still v _ (List.length_map _))

theorem statusWithoutHead_still (v : Live) : v.Still (statusWithoutHead v) := by
  unfold statusWithoutHead
  split
  · exact Live.roll_still v _ rfl
  · exact .refl v

theorem ceaseHead_still (v : Live) : v.Still (ceaseHead v) :=
  (statusWithoutHead_still _).after (Live.roll_still v _ (List.length_map _))

theorem rollTimedOut_still (t : Tables) (v : Live) : v.Still (rollTimedOut t v) :=
  (rollOutcome_still _ _ _).after (Live.roll_still v _ rfl)

theorem rollLost_still (t : Tables) (seq : Seq16) (rev : Bool) (v : Live) : v.Still (rollLost t seq rev v) := by
  unfold rollLost
  split
  · split
    · exact rollTimedOut_still _ _
    · exact .refl v
  · exact .refl v

theorem rollReturn_still (t : Tables) (d : Side) (h : Header) (b : RollBody) (v : Live) :
    v.Still (rollReturn t d h b v) := by
  have late : v.Still (lateRoll v) := Live.roll_still v _ rfl
  unfold rollReturn
  split
  · exact late
  · split
    · exact late
    · split
      · exact late
      · exact (rollOutcome_still _ _ _).after (Live.roll_still v _ (mergeSlots_length _ _ _ _ _ _))

theorem fillSlot_still (t : Tables) (b : RollBody) (v : Live) : v.Still (fillSlot t b v).2 := by
  unfold fillSlot
  dsimp only
  split
  · exact (refreshAlarms_still _ _).after (Live.roll_still v _ rfl)
  · exact .refl v

theorem copyView_still (b : RollBody) (v : Live) : v.Still (copyView b v) :=
  Live.roll_still v _ (copyEntries_length _ _ _ _)

theorem sendRollOn_still (t : Tables) (d : Side) (h : Header) (b : RollBody) (v : Live) :
    v.Still (sendRollOn t d h b v) := by
  unfold sendRollOn
  dsimp only
  split
  · exact hand_still _ _ _
  · split
    · exact Live.roll_still v _ rfl
    · split
      · exact Live.roll_still v _ rfl
      · exact hand_still _ _ _

theorem rollPasses_still (t : Tables) (d : Side) (h : Header) (b : RollBody) (v : Live) :
    v.Still (rollPasses t d h b v) := by
  unfold rollPasses
  dsimp only
  have filled : v.Still (fillSlot t b (hearHead h.origin b.rank v)).2 :=
    (fillSlot_still _ _ _).after (Live.roll_still v _ rfl)
  refine (sendRollOn_still _ _ _ _ _).after (filled.trans ?_)
  split
  · exact copyView_still _ _
  · exact .refl _

theorem takeRoll_still (t : Tables) (d : Side) (h : Header) (b : RollBody) (v : Live) : v.Still (takeRoll t d h b v) := by
  unfold takeRoll
  split
  · exact Live.roll_still v _ rfl
  · split
    · exact Live.roll_still v _ rfl
    · split
      · split
        · exact rollReturn_still _ _ _ _ _
        · exact Live.roll_still v _ rfl
      · split
        · exact Live.roll_still v _ rfl
        · exact rollPasses_still _ _ _ _ _

theorem expireHead_still (t : Tables) (id : Nat) (v : Live) : v.Still (expireHead t id v) :=
  (statusWithoutHead_still _).after (Live.roll_still v _ rfl)

theorem dropUnnamedHeads_still (t : Tables) (v : Live) : v.Still (dropUnnamedHeads t v) :=
  (statusWithoutHead_still _).after (Live.roll_still v _ rfl)

theorem clearDuplicate_still (v : Live) : v.Still (clearDuplicate v) := Live.roll_still v _ rfl

theorem forwardConfig_still (t : Tables) (d : Side) (h : Header) (b : ConfigBody) (v : Live) :
    v.Still (forwardConfig t d h b v) := by
  unfold forwardConfig
  split
  · exact Live.roll_still v _ rfl
  · exact hand_still _ _ _

end Sys2Proof.Machine
end

section
/-! What the operations of the access unit, the servo, the selector, the epoch engine and the span unit keep, and how the
selection stands after each: a candidate may lose its state within an event, and the evaluation that follows brings the
selection and the candidates together again (R42, R43). -/

namespace Sys2Proof.Machine

/-! ## The selection and the candidates -/

/-- The candidate is SELECTED exactly where the selection names it. -/
def Live.SettledAt (v : Live) (c : Cand) : Prop := (v.cands.get c).state = .selected ↔ v.selection = some c

/-- An available candidate is SELECTED exactly where the selection names it; one that has just lost its input need not
have lost the selection yet. -/
def Live.MarkedAt (v : Live) (c : Cand) : Prop :=
  (v.cands.get c).isAvailable = true → ((v.cands.get c).state = .selected ↔ v.selection = some c)

/-- A marked candidate that cannot become available again while the selection still names it (R30). -/
def Live.HeldAt (v : Live) (c : Cand) : Prop :=
  v.MarkedAt c ∧ ((v.cands.get c).state = .qualifying → v.selection = some c → (v.cands.get c).offered = .q4)

theorem CandRec.isAvailable_iff (r : CandRec) : r.isAvailable = true ↔ r.state = .available ∨ r.state = .selected := by
  simp [CandRec.isAvailable]

theorem Live.SettledAt.held {v : Live} {c : Cand} (h : v.SettledAt c) : v.HeldAt c := by
  refine ⟨fun _ => h, fun hq hs => ?_⟩
  have := h.mpr hs
  rw [hq] at this
  cases this

theorem Live.selectionSound_iff (v : Live) : v.selectionSound = true ↔ ∀ c, v.SettledAt c := by
  simp only [Live.selectionSound, List.all_cons, List.all_nil, Bool.and_true, Bool.and_eq_true, decide_eq_true_eq]
  refine ⟨fun ⟨h0, h1, h2⟩ c => ?_, fun h => ⟨h .ref, h .fwd, h .rev⟩⟩
  cases c
  · exact h0
  · exact h1
  · exact h2

/-- A candidate whose state and class stand as they were, or that has become UNAVAILABLE, is marked or held as before. -/
theorem Live.Calm.marked {v w : Live} (k : v.Calm w) {c : Cand} (h : v.MarkedAt c) : w.MarkedAt c := by
  intro ha
  rcases k.cands c with ⟨hs, _⟩ | hu
  · rw [CandRec.isAvailable_iff, hs] at ha
    rw [hs, k.selection]
    exact h ((CandRec.isAvailable_iff _).mpr ha)
  · rw [CandRec.isAvailable_iff, hu] at ha
    rcases ha with ha | ha <;> cases ha

theorem Live.Calm.held {v w : Live} (k : v.Calm w) {c : Cand} (h : v.HeldAt c) : w.HeldAt c := by
  refine ⟨k.marked h.1, fun hq hs => ?_⟩
  rcases k.cands c with ⟨hst, ho⟩ | hu
  · rw [ho]
    exact h.2 (hst ▸ hq) (k.selection ▸ hs)
  · rw [hu] at hq; cases hq

theorem Live.Still.settled {v w : Live} (k : v.Still w) {c : Cand} (h : v.SettledAt c) : w.SettledAt c := by
  rw [Live.SettledAt, k.cands, k.selection]; exact h

/-- A steady change of one candidate's record: the other records and the selection stand. -/
structure Live.Alters (c : Cand) (v w : Live) : Prop extends Live.Steady v w where
  selection : w.selection = v.selection
  others : ∀ e, e ≠ c → w.cands.get e = v.cands.get e

theorem Live.Alters.trans {c : Cand} {u v w : Live} (h : u.Alters c v) (k : v.Alters c w) : u.Alters c w :=
  ⟨h.toSteady.trans k.toSteady, k.selection.trans h.selection, fun e he => (k.others e he).trans (h.others e he)⟩

theorem Live.Alters.after {c : Cand} {u v w : Live} (k : v.Alters c w) (h : u.Alters c v) : u.Alters c w := h.trans k

theorem Live.Still.alters {v w : Live} (h : v.Still w) (c : Cand) : v.Alters c w :=
  ⟨h.toSteady, h.selection, fun _ _ => by rw [h.cands]⟩

theorem Live.Alters.settled {c e : Cand} {v w : Live} (k : v.Alters c w) (he : e ≠ c) (h : v.SettledAt e) :
    w.SettledAt e := by
  rw [Live.SettledAt, k.others e he, k.selection]; exact h

theorem Live.Alters.held {c e : Cand} {v w : Live} (k : v.Alters c w) (he : e ≠ c) (h : v.HeldAt e) : w.HeldAt e := by
  rw [Live.HeldAt, Live.MarkedAt, k.others e he, k.selection]; exact h

theorem Live.cands_steady (v : Live) (x : Trio CandRec) : v.Steady { v with cands := x } :=
  ⟨rfl, rfl, rfl, fun r => ⟨r.ts, r.ports, r.histories, r.counts⟩⟩

theorem Live.selection_steady (v : Live) (x : Option Cand) : v.Steady { v with selection := x } :=
  ⟨rfl, rfl, rfl, fun r => ⟨r.ts, r.ports, r.histories, r.counts⟩⟩

theorem Live.mapCand_alters (v : Live) (c : Cand) (f : CandRec → CandRec) : v.Alters c (v.mapCand c f) :=
  ⟨Live.cands_steady v _, rfl, fun _ he => Trio.get_set_other _ (Ne.symm he) _⟩

@[simp] theorem Live.mapCand_cands_same (v : Live) (c : Cand) (f : CandRec → CandRec) :
    (v.mapCand c f).cands.get c = f (v.cands.get c) := Trio.get_set_same _ _ _

@[simp] theorem Live.mapCand_selection (v : Live) (c : Cand) (f : CandRec → CandRec) :
    (v.mapCand c f).selection = v.selection := rfl

/-- A change of one record that leaves its state and its class, or makes it UNAVAILABLE. -/
theorem Live.mapCand_calm (v : Live) (c : Cand) (f : CandRec → CandRec)
    (h : ∀ r, ((f r).state = r.state ∧ (f r).offered = r.offered) ∨ (f r).state = .unavailable) :
    v.Calm (v.mapCand c f) := by
  refine ⟨Live.cands_steady v _, rfl, fun e => ?_⟩
  by_cases he : e = c
  · subst he
    rw [Live.mapCand_cands_same]
    exact h _
  · rw [(Live.mapCand_alters v c f).others e he]
    exact .inl ⟨rfl, rfl⟩

theorem Live.refIn_still (v : Live) (x : RefInput) : v.Still { v with refIn := x } := .of_gauge rfl

/-! ## The access unit (chapter 9) -/

/-- K is no part of the ranges. -/
theorem Live.k_still (v : Live) (k : Quad Nat) : v.Still { v with ts := { v.ts with k := k } } :=
  ⟨⟨rfl, rfl, rfl, fun r => ⟨r.ts, r.ports, r.histories, r.counts⟩⟩, rfl, rfl⟩

theorem withdrawOnEntry_still (c : AccessCfg) (i : Fin 4) (st : AccessState) (v : Live) :
    v.Still (withdrawOnEntry c i st v) := by
  unfold withdrawOnEntry
  split
  · exact withdraw_still _ _ _
  · exact withdraw_still _ _ _
  · split
    · exact withdraw_still _ _ _
    · exact .refl v
  · exact .refl v

theorem enterAccess_still (c : AccessCfg) (i : Fin 4) (st : AccessState) (tm : Option Timer) (v : Live) :
    v.Still (enterAccess c i st tm v) := (withdrawOnEntry_still _ _ _ _).after (Live.mapAccess_still v i _)

theorem judgeAccess_still (t : Tables) (old new : QClass) (i : Fin 4) (v : Live) :
    v.Still (judgeAccess t old new i v) := by
  unfold judgeAccess
  dsimp only
  split
  · exact .refl v
  · split
    · exact enterAccess_still _ _ _ _ _
    · exact .refl v
  · split
    · exact Live.mapAccess_still v i _
    · split
      · exact Live.mapAccess_still v i _
      · split
        · exact Live.mapAccess_still v i _
        · exact .refl v

theorem judgeAll_still (t : Tables) (old new : QClass) (v : Live) : v.Still (judgeAll t old new v) :=
  (judgeAccess_still _ _ _ _ _).after <| (judgeAccess_still _ _ _ _ _).after <|
    (judgeAccess_still _ _ _ _ _).after (judgeAccess_still _ _ _ _ _)

theorem restoreCheck_still (t : Tables) (i : Fin 4) (v : Live) : v.Still (restoreCheck t i v) := by
  unfold restoreCheck
  split
  · exact enterAccess_still _ _ _ _ _
  · exact .refl v

theorem startAccess_still (t : Tables) (i : Fin 4) (v : Live) : v.Still (startAccess t i v) := .of_gauge rfl

theorem applyAdvance_still (c : AccessCfg) (i : Fin 4) (v : Live) : v.Still (applyAdvance c i v) := by
  unfold applyAdvance
  dsimp only
  split
  · exact .refl v
  · exact Live.k_still v _

theorem applyMode_still (old new : AccessCfg) (i : Fin 4) (v : Live) : v.Still (applyMode old new i v) := by
  have withdrawn : v.Still (if new.mode = .pulse then withdraw (.access i) isEpochFrame v else v) := by
    split
    · exact withdraw_still _ _ _
    · exact .refl v
  unfold applyMode
  split
  · exact .refl v
  · split
    · exact enterAccess_still _ _ _ _ _
    · dsimp only
      split
      · exact .trans withdrawn (enterAccess_still _ _ _ _ _)
      · exact withdrawn

theorem applyFloor_still (old mid : AccessCfg) (i : Fin 4) (v : Live) : v.Still (applyFloor old mid i v) := by
  unfold applyFloor
  split
  · exact .refl v
  · dsimp only
    split
    · exact .refl v
    · split
      · exact enterAccess_still _ _ _ _ _
      · exact .refl v
    · split
      · exact Live.mapAccess_still v i _
      · split
        · exact Live.mapAccess_still v i _
        · exact .refl v

theorem applyLoss_still (old new : AccessCfg) (i : Fin 4) (v : Live) : v.Still (applyLoss old new i v) := by
  unfold applyLoss
  split
  · exact .refl v
  · dsimp only
    split
    · exact enterAccess_still _ _ _ _ _
    · exact enterAccess_still _ _ _ _ _
    · exact .refl v

theorem accessEffects_still (t : Tables) (old new : AccessCfg) (i : Fin 4) (v : Live) :
    v.Still (accessEffects t old new i v) := by
  unfold accessEffects
  extract_lets v1 v2 v3 v4 v5
  have h1 : v.Still v1 := (refreshAlarms_still _ _).after (applyMode_still _ _ _ _)
  have h2 : v1.Still v2 := by
    unfold v2
    split
    · exact .refl _
    · exact .of_gauge rfl
  have h3 : v2.Still v3 := (refreshAlarms_still _ _).after (applyFloor_still _ _ _ _)
  have h4 : v3.Still v4 := (refreshAlarms_still _ _).after (applyLoss_still _ _ _ _)
  have h5 : v4.Still v5 := by
    unfold v5
    split
    · exact .refl _
    · exact (refreshAlarms_still _ _).after (restoreCheck_still _ _ _)
  refine h1.trans (h2.trans (h3.trans (h4.trans (h5.trans ?_))))
  split
  · exact .refl _
  · exact applyAdvance_still _ _ _

theorem formAccessEpoch_still (t : Tables) (i : Fin 4) (v : Live) : v.Still (formAccessEpoch t i v) :=
  (hand_still _ _ _).after (Live.mapAccess_still v i _)

theorem crossAccessEpoch_still (t : Tables) (i : Fin 4) (v : Live) : v.Still (crossAccessEpoch t i v) := by
  unfold crossAccessEpoch
  dsimp only
  split
  · exact (Live.mapAccess_still _ i _).after (formAccessEpoch_still t i v)
  · exact Live.mapAccess_still v i _

theorem crossPulse_still (t : Tables) (i : Fin 4) (v : Live) : v.Still (crossPulse t i v) := by
  unfold crossPulse
  dsimp only
  split
  · exact (Live.k_still _ _).after (Live.mapAccess_still v i _)
  · exact Live.k_still v _

theorem answerAccessProbe_still (t : Tables) (i : Fin 4) (rx : Stamp) (h : Header) (seq : Seq16) (v : Live) :
    v.Still (answerAccessProbe t i rx h seq v) := by
  unfold answerAccessProbe
  split
  · exact Live.mapAccess_still v i _
  · exact Live.mapAccess_still v i _
  · exact (Live.mapAccess_still _ i _).after (hand_still _ _ _)

/-! ## The servo (chapter 1) -/

theorem enterAcquire_still (t : Tables) (v : Live) : v.Still (enterAcquire t v) := by
  unfold enterAcquire
  dsimp only
  split
  · exact (Live.recomputeF_still _).after (.of_gauge rfl)
  · exact .of_gauge rfl

theorem loseSelection_still (t : Tables) (v : Live) : v.Still (loseSelection t v) := by
  unfold loseSelection
  dsimp only
  split
  · exact (Live.recomputeF_still _).after (.of_gauge rfl)
  · exact (Live.recomputeF_still _).after (.of_gauge rfl)

theorem rearm_still (v : Live) : v.Still (rearm v) := by
  unfold rearm
  split
  · exact .of_gauge rfl
  · exact .of_gauge rfl
  · exact .refl v

/-- The blocks in range after a step of the time scale, which moves the time value within its range. -/
theorem Live.stepTime_inRange (t : Tables) (d : Int) {v : Live} (h : v.InRange) : (v.stepTime t d).InRange := by
  have hts := h.ts
  simp only [TimeScale.sound, Bool.and_eq_true] at hts
  obtain ⟨⟨⟨_, hrem⟩, hlo⟩, hhi⟩ := hts
  refine ⟨?_, h.ports, h.histories, h.counts⟩
  simp only [TimeScale.sound, Bool.and_eq_true]
  exact ⟨⟨⟨TimeValue.ofPs_wf _, hrem⟩, hlo⟩, hhi⟩

@[simp] theorem Live.stepTime_cands (t : Tables) (d : Int) (v : Live) : (v.stepTime t d).cands = v.cands := rfl
@[simp] theorem Live.stepTime_selection (t : Tables) (d : Int) (v : Live) : (v.stepTime t d).selection = v.selection :=
  rfl

theorem Servo.judged_history_length (c : ServoTable) (theta : Int) (s : Servo) (h : s.history.length ≤ 64) :
    (s.judged c theta).history.length ≤ 64 := by
  unfold Servo.judged
  split
  · rw [(judgeLock_keeps c theta s).2.2.1]; exact h
  · unfold judgeUnlock
    split
    · split
      · exact h
      · exact appendCapped_length_le _ h
    · exact appendCapped_length_le _ h

theorem steeredServo_history_length (t : Tables) {v : Live} (h : v.servo.history.length ≤ 64) :
    (steeredServo t v).history.length ≤ 64 :=
  Servo.judged_history_length t.servo (filteredOffset v.servo) (v.servo.steered t.servo (updateError t v)) h

/-- What a sample may do: the ranges are kept, and the selection and the candidates stand; the time scale may step. -/
structure Live.Sampled (v w : Live) : Prop where
  range : v.InRange → w.InRange
  selection : w.selection = v.selection
  cands : w.cands = v.cands

theorem Live.Still.sampled {v w : Live} (h : v.Still w) : v.Sampled w := ⟨h.range, h.selection, h.cands⟩

/-- A change of the servo that keeps its history within 64 entries. -/
theorem Live.servo_sampled (v : Live) (s : Servo) (h : v.servo.history.length ≤ 64 → s.history.length ≤ 64) :
    v.Sampled { v with servo := s } := (Live.servo_still v s h).sampled

theorem Live.Sampled.trans {u v w : Live} (h : u.Sampled v) (k : v.Sampled w) : u.Sampled w :=
  ⟨fun r => k.range (h.range r), k.selection.trans h.selection, k.cands.trans h.cands⟩

theorem Live.Sampled.after {u v w : Live} (k : v.Sampled w) (h : u.Sampled v) : u.Sampled w := h.trans k

theorem Live.stepTime_sampled (t : Tables) (d : Int) (v : Live) : v.Sampled (v.stepTime t d) :=
  ⟨Live.stepTime_inRange t d, rfl, rfl⟩

theorem servoUpdate_sampled (t : Tables) (v : Live) : v.Sampled (servoUpdate t v) := by
  cases hk : updateSkipped t.servo v.servo
  · by_cases hs : updateSteps t.servo v.servo
    · rw [servoUpdate_of_steps hk hs]
      exact (Live.stepTime_sampled _ _ _).after (Live.servo_sampled v _ id)
    · rw [servoUpdate_of_steers hk hs]
      exact ((Live.recomputeF_still _).after (Live.servo_still v _ (steeredServo_history_length t))).sampled
  · rw [servoUpdate_of_skipped hk]
    refine (Live.servo_still v _ fun h => ?_).sampled
    rw [(skipUpdate_keeps v.servo).2.2.2.1]; exact h

theorem queueSample_sampled (t : Tables) (x : Sample) (v : Live) : v.Sampled (queueSample t x v) := by
  unfold queueSample
  dsimp only
  split
  · exact (servoUpdate_sampled _ _).after (Live.servo_sampled v _ id)
  · exact Live.servo_sampled v _ id

theorem servoSample_sampled (t : Tables) (theta : Int) (v : Live) : v.Sampled (servoSample t theta v) := by
  unfold servoSample
  split
  · split
    · exact (Live.stepTime_sampled _ _ _).after (Live.servo_sampled v _ id)
    · exact queueSample_sampled _ _ _
  · dsimp only
    split
    · exact queueSample_sampled _ _ _
    · exact (queueSample_sampled _ _ _).after (Live.servo_sampled v _ id)
  · exact (Live.Still.refl v).sampled

/-! ## The selector (chapter 2) -/

theorem promote_alters (t : Tables) (c : Cand) (v : Live) : v.Alters c (promote t c v) := by
  unfold promote
  dsimp only
  split
  · exact Live.mapCand_alters v c _
  · exact (Live.Still.refl v).alters c

/-- A candidate that the selection still names cannot be promoted. -/
theorem promote_held (t : Tables) (c : Cand) {v : Live} (h : v.HeldAt c) : (promote t c v).HeldAt c := by
  unfold promote
  dsimp only
  split
  · next hp =>
    obtain ⟨hq, ho, _⟩ := hp
    have hsel : v.selection ≠ some c := fun hs => ho (h.2 hq hs)
    simp [Live.HeldAt, Live.MarkedAt, hsel]
  · exact h

theorem demoteQ4_alters (t : Tables) (c : Cand) (v : Live) : v.Alters c (demoteQ4 t c v) := by
  unfold demoteQ4
  dsimp only
  split
  · exact Live.mapCand_alters v c _
  · exact (Live.Still.refl v).alters c

theorem demoteQ4_held (t : Tables) (c : Cand) {v : Live} (h : v.HeldAt c) : (demoteQ4 t c v).HeldAt c := by
  unfold demoteQ4
  dsimp only
  split
  · next hd => simp [Live.HeldAt, Live.MarkedAt, CandRec.isAvailable, hd.2]
  · exact h

theorem loseInput_calm (c : Cand) (v : Live) : v.Calm (loseInput c v) := by
  unfold loseInput
  split
  · exact (Live.Still.refl v).calm
  · exact (Live.Still.refl v).calm
  · exact Live.mapCand_calm v c _ fun _ => .inr rfl

theorem loseInput_alters (c : Cand) (v : Live) : v.Alters c (loseInput c v) := by
  unfold loseInput
  split
  · exact (Live.Still.refl v).alters c
  · exact (Live.Still.refl v).alters c
  · exact Live.mapCand_alters v c _

theorem reviseRing_alters (t : Tables) (c : Cand) (v : Live) : v.Alters c (reviseRing t c v) := by
  unfold reviseRing
  dsimp only
  split
  · exact loseInput_alters c v
  · refine ((promote_alters _ _ _).after (demoteQ4_alters _ _ _)).after ?_
    split
    · exact ((rearm_still _).alters c).after (Live.mapCand_alters v c _)
    · exact Live.mapCand_alters v c _

theorem reviseRing_held (t : Tables) (c : Cand) {v : Live} (h : v.SettledAt c) : (reviseRing t c v).HeldAt c := by
  unfold reviseRing
  dsimp only
  split
  · exact (loseInput_calm c v).held h.held
  · refine promote_held _ _ (demoteQ4_held _ _ (Live.SettledAt.held ?_))
    split
    · refine (rearm_still _).settled ?_
      simpa [Live.SettledAt] using h
    · simpa [Live.SettledAt] using h

theorem cancelManual_still (v : Live) : v.Still (cancelManual v) := by
  unfold cancelManual
  split
  · split
    · exact .refl v
    · exact .of_gauge rfl
  · exact .refl v

theorem leaveSelected_steady (o : Option Cand) (v : Live) : v.Steady (leaveSelected o v) := by
  cases o
  · exact .refl v
  · exact Live.cands_steady v _

theorem enterSelected_steady (n : Option Cand) (v : Live) : v.Steady (enterSelected n v) := by
  cases n with
  | none => exact Live.selection_steady v _
  | some c => exact .trans (Live.cands_steady v _) (Live.selection_steady (v.mapCand c _) _)

theorem handSelection_still (t : Tables) (o n : Option Cand) (v : Live) : v.Still (handSelection t o n v) := by
  cases o <;> cases n
  · exact .refl v
  · exact enterAcquire_still _ _
  · exact loseSelection_still _ _
  · exact rearm_still _

theorem evaluate_steady (t : Tables) (v : Live) : v.Steady (evaluate t v) := by
  unfold evaluate
  dsimp only
  split
  · exact (cancelManual_still v).toSteady
  · exact (handSelection_still _ _ _ _).toSteady.after <| (enterSelected_steady _ _).after <|
      (leaveSelected_steady _ _).after (cancelManual_still v).toSteady

/-- The better of two candidates is one of them. -/
theorem betterOf_mem {t : Tables} {v : Live} {a b : Option Cand} {c : Cand} (h : betterOf t v a b = some c) :
    a = some c ∨ b = some c := by
  cases a with
  | none => cases b <;> simp_all [betterOf]
  | some x =>
    cases b with
    | none => exact .inl h
    | some y =>
      simp only [betterOf] at h
      split at h
      · exact .inr h
      · exact .inl h

theorem bestEligible_eligible {t : Tables} {v : Live} {c : Cand} (h : bestEligible t v = some c) :
    eligible v c = true := by
  have pick {x : Cand} (hx : (if eligible v x = true then some x else none) = some c) : eligible v c = true := by
    split at hx
    · next he => cases hx; exact he
    · cases hx
  rcases betterOf_mem h with h | h
  · rcases betterOf_mem h with h | h <;> exact pick h
  · exact pick h

/-- The candidate to be selected is an available one. -/
theorem target_available {t : Tables} {v : Live} {c : Cand} (h : target t (cancelManual v) = some c) :
    ((cancelManual v).cands.get c).isAvailable = true := by
  cases hm : (cancelManual v).manual with
  | none =>
    simp only [target, hm] at h
    have := bestEligible_eligible h
    simp only [eligible, Bool.and_eq_true] at this
    exact this.1
  | some x =>
    simp only [target, hm, Option.some.injEq] at h
    subst h
    unfold cancelManual at hm ⊢
    split at hm
    · next c' hv =>
      split at hm
      · next ha =>
        rw [hv] at hm
        cases hm
        rwa [if_pos ha]
      · cases hm
    · next hv =>
      rw [hv] at hm
      cases hm

/-- After the candidate selected before has left, an available one that is still SELECTED is another. -/
theorem leaveSelected_not_selected (v : Live) (h : ∀ c, v.MarkedAt c) (c : Cand) :
    ((leaveSelected v.selection v).cands.get c).state ≠ .selected := by
  intro hc
  cases ho : v.selection with
  | none =>
    rw [ho] at hc
    have := (h c ((CandRec.isAvailable_iff _).mpr (.inr hc))).mp hc
    rw [ho] at this; cases this
  | some x =>
    rw [ho] at hc
    by_cases hx : c = x
    · subst hx
      simp only [leaveSelected, deselect, Live.mapCand_cands_same] at hc
      split at hc
      · cases hc
      · contradiction
    · simp only [leaveSelected, deselect, (Live.mapCand_alters v x _).others c hx] at hc
      have := (h c ((CandRec.isAvailable_iff _).mpr (.inr hc))).mp hc
      rw [ho] at this
      exact hx (Option.some.inj this).symm

/-- An evaluation brings the selection and the candidates together (R42, R43). -/
theorem evaluate_settled (t : Tables) {v : Live} (h : ∀ c, v.MarkedAt c) (c : Cand) : (evaluate t v).SettledAt c := by
  have hm : ∀ c, (cancelManual v).MarkedAt c := fun c => (cancelManual_still v).calm.marked (h c)
  unfold evaluate
  dsimp only
  split
  · next hsame =>
    refine ⟨fun hs => (hm c ((CandRec.isAvailable_iff _).mpr (.inr hs))).mp hs, fun hs => ?_⟩
    exact (hm c (target_available (hsame.trans hs))).mpr hs
  · refine (handSelection_still _ _ _ _).settled ?_
    have hleft := leaveSelected_not_selected _ hm
    generalize leaveSelected (cancelManual v).selection (cancelManual v) = w at hleft
    cases target t (cancelManual v) with
    | none =>
      refine ⟨fun hs => absurd hs (hleft c), fun hs => ?_⟩
      cases hs
    | some x =>
      by_cases hx : c = x
      · subst hx
        simp [Live.SettledAt, enterSelected]
      · simp only [Live.SettledAt, enterSelected, (Live.mapCand_alters w x _).others c hx, Option.some.injEq]
        exact ⟨fun hs => absurd hs (hleft c), fun hs => absurd hs.symm hx⟩

theorem setClass_still (t : Tables) (c : QClass) (v : Live) : v.Still (setClass t c v) :=
  ((refreshAlarms_still _ _).after (judgeAll_still _ _ _ _)).after (.of_gauge rfl)

theorem settleSelection_steady (t : Tables) (n : Nat) : ∀ v : Live, v.Steady (settleSelection t n v) := by
  induction n with
  | zero => exact .refl
  | succ n ih =>
    intro v
    rw [settleSelection]
    split
    · exact .trans (evaluate_steady t v) (refreshAlarms_still _ _).toSteady
    · exact .trans (evaluate_steady t v) (.trans (setClass_still _ _ _).toSteady (ih _))

/-- The selection is settled by its first evaluation, and stays so. -/
theorem settleSelection_settled (t : Tables) (n : Nat) : ∀ v : Live, (∀ c, v.MarkedAt c) →
    ∀ c, (settleSelection t (n + 1) v).SettledAt c := by
  induction n with
  | zero =>
    intro v h c
    rw [settleSelection]
    split
    · exact (refreshAlarms_still _ _).settled (evaluate_settled t h c)
    · exact (setClass_still _ _ _).settled (evaluate_settled t h c)
  | succ n ih =>
    intro v h c
    rw [settleSelection]
    split
    · exact (refreshAlarms_still _ _).settled (evaluate_settled t h c)
    · exact ih _ (fun c => ((setClass_still _ _ _).settled (evaluate_settled t h c)).held.1) c

theorem followEnable_alters (t : Tables) (c : Cand) (v : Live) : v.Alters c (followEnable t c v) := by
  unfold followEnable
  dsimp only
  split
  · exact (Live.Still.refl v).alters c
  · split
    · exact ((Live.refIn_still _ _).alters c).after (Live.mapCand_alters v c _)
    · exact Live.mapCand_alters v c _
  · split
    · exact ((Live.refIn_still _ _).alters c).after (Live.mapCand_alters v c _)
    · exact Live.mapCand_alters v c _
  · exact (Live.Still.refl v).alters c

/-- A candidate that becomes DISABLED, or UNAVAILABLE from DISABLED, is no longer available. -/
theorem followEnable_held (t : Tables) (c : Cand) {v : Live} (h : v.HeldAt c) : (followEnable t c v).HeldAt c := by
  have disabled : (v.mapCand c CandRec.disable).HeldAt c := by
    simp [Live.HeldAt, Live.MarkedAt, CandRec.isAvailable, CandRec.disable]
  have enabled : (v.mapCand c fun r => { r with state := .unavailable }).HeldAt c := by
    simp [Live.HeldAt, Live.MarkedAt, CandRec.isAvailable]
  unfold followEnable
  dsimp only
  split
  · exact h
  · split
    · exact (Live.refIn_still _ _).calm.held disabled
    · exact disabled
  · split
    · exact (Live.refIn_still _ _).calm.held enabled
    · exact enabled
  · exact h

theorem Live.Alters.held_all {c : Cand} {v w : Live} (k : v.Alters c w) (hc : v.HeldAt c → w.HeldAt c)
    (h : ∀ e, v.HeldAt e) (e : Cand) : w.HeldAt e := by
  by_cases he : e = c
  · subst he; exact hc (h e)
  · exact k.held he (h e)

theorem candEffects_steady (t : Tables) (v : Live) : v.Steady (candEffects t v) :=
  (promote_alters _ _ _).toSteady.after <| (promote_alters _ _ _).toSteady.after <|
    (promote_alters _ _ _).toSteady.after <| (followEnable_alters _ _ _).toSteady.after <|
    (followEnable_alters _ _ _).toSteady.after (followEnable_alters _ _ _).toSteady

theorem candEffects_held (t : Tables) {v : Live} (h : ∀ c, v.HeldAt c) : ∀ c, (candEffects t v).HeldAt c :=
  (promote_alters _ _ _).held_all (promote_held t _) <| (promote_alters _ _ _).held_all (promote_held t _) <|
    (promote_alters _ _ _).held_all (promote_held t _) <|
    (followEnable_alters _ _ _).held_all (followEnable_held t _) <|
    (followEnable_alters _ _ _).held_all (followEnable_held t _) <|
    (followEnable_alters _ _ _).held_all (followEnable_held t _) h

/-! ## The epoch engine (chapter 6) -/

theorem becomeActive_still (t : Tables) (v : Live) : v.Still (becomeActive t v) :=
  (becomeHead_still _ _).after (Live.epoch_still v _)

theorem ceaseActive_still (v : Live) : v.Still (ceaseActive v) := (ceaseHead_still _).after (Live.epoch_still v _)

theorem startTakeover_still (v : Live) : v.Still (startTakeover v) := Live.epoch_still v _

theorem takeoverCheck_still (t : Tables) (v : Live) : v.Still (takeoverCheck t v) := by
  unfold takeoverCheck
  split
  · exact (becomeActive_still _ _).after (Live.epoch_still v _)
  · exact .refl v

theorem revertCheck_still (t : Tables) (v : Live) : v.Still (revertCheck t v) := by
  unfold revertCheck
  split
  · exact ((startTakeover_still _).after (ceaseActive_still _)).after (Live.epoch_still v _)
  · exact .refl v

theorem roleEffects_still (old new : OriginRole) (t : Tables) (v : Live) : v.Still (roleEffects old new t v) := by
  unfold roleEffects
  split
  · exact .refl v
  · have ceased : v.Still (if v.epoch.active then ceaseActive v else v) := by
      split
      · exact ceaseActive_still v
      · exact .refl v
    dsimp only
    generalize (if v.epoch.active then ceaseActive v else v) = w at ceased ⊢
    have cleared := (Live.epoch_still w { w.epoch with takeover := none, revert := none }).after ceased
    split
    · exact (becomeActive_still _ _).after cleared
    · exact (startTakeover_still _).after cleared
    · exact cleared

theorem originateOn_still (t : Tables) (d : Side) (seq : Seq16) (v : Live) : v.Still (originateOn t d seq v) := by
  unfold originateOn
  split
  · exact .refl v
  · exact hand_still _ _ _

theorem originate_still (t : Tables) (v : Live) : v.Still (originate t v) :=
  ((originateOn_still _ _ _ _).after (originateOn_still _ _ _ _)).after (Live.epoch_still v _)

theorem crossEpoch_still (t : Tables) (v : Live) : v.Still (crossEpoch t v) := by
  unfold crossEpoch
  dsimp only
  split
  · exact (originate_still t v).trans (Live.epoch_still _ _)
  · exact Live.epoch_still v _

theorem watchPrimary_still (t : Tables) (h : Header) (b : EpochBody) (v : Live) : v.Still (watchPrimary t h b v) := by
  unfold watchPrimary
  split
  · split
    · split
      · exact Live.epoch_still v _
      · exact .refl v
    · split
      · exact startTakeover_still v
      · exact .refl v
  · exact .refl v

theorem forwardEpoch_still (t : Tables) (d : Side) (rx : Stamp) (df : Int) (h : Header) (b : EpochBody) (v : Live) :
    v.Still (forwardEpoch t d rx df h b v) := by
  unfold forwardEpoch
  split
  · exact Live.epoch_still v _
  · exact hand_still _ _ _

theorem rateEffects_calm (t : Tables) (v : Live) : v.Calm (rateEffects t v) := by
  unfold rateEffects
  extract_lets restart v1 v2 _ v3
  have h1 : v.Calm v1 := Live.mapCand_calm v .fwd restart fun _ => .inl ⟨rfl, rfl⟩
  have h2 : v1.Calm v2 := Live.mapCand_calm v1 .rev restart fun _ => .inl ⟨rfl, rfl⟩
  have h3 : v2.Still (Live.resetJ t v3) := .of_gauge rfl
  exact h1.trans (h2.trans h3.calm)

theorem dropUnnamedOrigins_alters (t : Tables) (c : Cand) (v : Live) : v.Alters c (dropUnnamedOrigins t c v) := by
  unfold dropUnnamedOrigins
  split
  · exact (Live.Still.refl v).alters c
  · exact (reviseRing_alters _ _ _).after (Live.mapCand_alters v c _)

theorem dropUnnamedOrigins_held (t : Tables) (c : Cand) {v : Live} (h : v.SettledAt c) :
    (dropUnnamedOrigins t c v).HeldAt c := by
  unfold dropUnnamedOrigins
  split
  · exact h.held
  · refine reviseRing_held _ _ ?_
    simpa [Live.SettledAt] using h

theorem dropUnnamed_steady (t : Tables) (v : Live) : v.Steady (dropUnnamed t v) :=
  (dropUnnamedHeads_still _ _).toSteady.after <| (dropUnnamedOrigins_alters _ _ _).toSteady.after
    (dropUnnamedOrigins_alters _ _ _).toSteady

/-- Each ring candidate is revised from a settled record, and REF's is left. -/
theorem dropUnnamed_held (t : Tables) {v : Live} (h : ∀ c, v.SettledAt c) (c : Cand) : (dropUnnamed t v).HeldAt c := by
  have hf := dropUnnamedOrigins_alters t .fwd v
  have hr := dropUnnamedOrigins_alters t .rev (dropUnnamedOrigins t .fwd v)
  refine (dropUnnamedHeads_still _ _).calm.held ?_
  cases c with
  | ref => exact hr.held (by decide) (hf.held (by decide) (h _).held)
  | fwd => exact hr.held (by decide) (dropUnnamedOrigins_held t _ (h _))
  | rev => exact dropUnnamedOrigins_held t _ (hf.settled (by decide) (h _))

theorem ringConfigs_still (t : Tables) (old : RingTable) (v : Live) : v.Still (ringConfigs t old v) := by
  unfold ringConfigs
  split
  · exact deriveConfig_still _ _ _
  · exact .refl v

/-- What a change of the RING table does once the lists are revised is calm. -/
theorem ringEffects_calm (t : Tables) (old : RingTable) (role : OriginRole) (v : Live) :
    (dropUnnamed t v).Calm (ringEffects t old role v) := by
  unfold ringEffects
  extract_lets v1 v2 v3 v4
  have h1 : (dropUnnamed t v).Calm v1 := ((refreshAlarms_still _ _).after (ringConfigs_still _ _ _)).calm
  have h2 : v1.Calm v2 := (roleEffects_still _ _ _ _).calm
  have h3 : v2.Calm v3 := by
    unfold v3
    split
    · exact (Live.Still.refl _).calm
    · exact rateEffects_calm _ _
  have h4 : v3.Calm v4 := (revertCheck_still _ _).calm
  refine h1.trans (h2.trans (h3.trans (h4.trans ?_)))
  split
  · exact (rollTick_still _ _).calm
  · exact (Live.Still.refl _).calm

/-! ## The span unit (section 5.5) -/

theorem setSpanState_calm (d : Side) (st : SpanState) (v : Live) : v.Calm (setSpanState d st v) := by
  unfold setSpanState
  dsimp only
  split
  · exact (loseInput_calm _ _).after (Live.mapSpan_still v d _).calm
  · exact (Live.mapSpan_still v d _).calm

theorem enterDown_calm (t : Tables) (d : Side) (v : Live) : v.Calm (enterDown t d v) := by
  unfold enterDown
  split
  · exact (Live.Still.refl v).calm
  · exact ((refreshAlarms_still _ _).calm.after (setSpanState_calm _ _ _)).after (Live.mapSpan_still v d _).calm

theorem probeTimeout_calm (t : Tables) (d : Side) (v : Live) : v.Calm (probeTimeout t d v) := by
  unfold probeTimeout
  dsimp only
  split
  · exact (enterDown_calm _ _ _).after (Live.mapSpan_still v d _).calm
  · exact (Live.mapSpan_still v d _).calm

theorem replyTimedOut_calm (t : Tables) (d : Side) (v : Live) : v.Calm (replyTimedOut t d v) :=
  (probeTimeout_calm _ _ _).after (Live.mapSpan_still v d _).calm

theorem withdrawStale_calm (t : Tables) (d : Side) (v : Live) : v.Calm (withdrawStale t d v) := by
  unfold withdrawStale
  split
  · exact (probeTimeout_calm _ _ _).after ((insertDrop_still _ _).after (withdraw_still _ _ _)).calm
  · exact (Live.Still.refl v).calm

theorem beginInterval_calm (t : Tables) (d : Side) (v : Live) : v.Calm (beginInterval t d v) := by
  unfold beginInterval
  extract_lets v1 v2 v3 seq
  have h2 : v.Calm v2 := (withdrawStale_calm _ _ _).after (Live.mapSpan_still v d _).calm
  have h3 : v2.Calm v3 := by
    unfold v3
    split
    · exact (refreshAlarms_still _ _).calm.after (setSpanState_calm _ _ _)
    · exact (Live.Still.refl _).calm
  split
  · exact h2
  · exact h2.trans (h3.trans ((hand_still _ _ _).after (Live.mapSpan_still v3 d _)).calm)

theorem startProbeClock_calm (t : Tables) (d : Side) (v : Live) : v.Calm (startProbeClock t d v) :=
  (beginInterval_calm _ _ _).after (Live.mapSpan_still v d _).calm

theorem nextInterval_calm (t : Tables) (d : Side) (v : Live) : v.Calm (nextInterval t d v) :=
  (beginInterval_calm _ _ _).after (Live.mapSpan_still v d _).calm

theorem answerProbe_still (t : Tables) (d : Side) (rx : Stamp) (seq : Seq16) (v : Live) :
    v.Still (answerProbe t d rx seq v) := hand_still _ _ _

theorem learnNeighbour_calm (d : Side) (id : Nat) (v : Live) : v.Calm (learnNeighbour d id v) := by
  unfold learnNeighbour
  split
  · exact (Live.mapSpan_still v d _).calm
  · split
    · exact (Live.Still.refl v).calm
    · dsimp only
      split
      · exact (setSpanState_calm _ _ _).after (Live.mapSpan_still v d _).calm
      · exact (Live.mapSpan_still v d _).calm

theorem tryUp_calm (c : LineCfg) (d : Side) (v : Live) : v.Calm (tryUp c d v) := by
  unfold tryUp
  dsimp only
  split
  · exact setSpanState_calm _ _ _
  · exact (Live.Still.refl v).calm

theorem neighbourCheck_calm (t : Tables) (d : Side) (v : Live) : v.Calm (neighbourCheck t d v) := by
  have judged := (Live.mapSpan_still v d fun s =>
    { s with mismatch := neighbourFails (t.port.line.get d) (v.span d) }).calm
  unfold neighbourCheck
  dsimp only
  refine (refreshAlarms_still _ _).calm.after ?_
  split
  · split
    · exact (setSpanState_calm _ _ _).after judged
    · exact judged
  · exact (tryUp_calm _ _ _).after judged

theorem spanSample_calm (t : Tables) (d : Side) (rt : Int) (v : Live) : v.Calm (spanSample t d rt v) := by
  unfold spanSample
  dsimp only
  split
  · exact (Live.mapSpan_still v d _).calm
  · exact ((refreshAlarms_still _ _).calm.after (tryUp_calm _ _ _)).after (Live.mapSpan_still v d _).calm

theorem takeReply_calm (t : Tables) (d : Side) (rx : Stamp) (sender : Nat) (seq : Seq16) (t2 t3 : NsTime) (v : Live) :
    v.Calm (takeReply t d rx sender seq t2 t3 v) := by
  unfold takeReply
  split
  · split
    · exact (((spanSample_calm _ _ _ _).after (neighbourCheck_calm _ _ _)).after (learnNeighbour_calm _ _ _)).after
        (Live.mapSpan_still v d _).calm
    · exact (Live.mapSpan_still v d _).calm
  · exact (Live.mapSpan_still v d _).calm

theorem fcsCheck_calm (t : Tables) (d : Side) (v : Live) : v.Calm (fcsCheck t d v) := by
  unfold fcsCheck
  split
  · exact enterDown_calm _ _ _
  · exact (Live.Still.refl v).calm

theorem spanFcsError_calm (t : Tables) (d : Side) (v : Live) : v.Calm (spanFcsError t d v) :=
  (fcsCheck_calm _ _ _).after (Live.mapSpan_still v d _).calm

theorem lineEffects_calm (t : Tables) (old new : LineCfg) (d : Side) (v : Live) : v.Calm (lineEffects t old new d v) :=
  ((neighbourCheck_calm _ _ _).after (fcsCheck_calm _ _ _)).after (Live.mapSpan_still v d _).calm

/-! ## What follows from an event -/

theorem settle_steady (t : Tables) (v : Live) : v.Steady (settle t v) :=
  (refreshAlarms_still _ _).toSteady.after <| (takeoverCheck_still _ _).toSteady.after (settleSelection_steady _ _ v)

theorem settle_settled (t : Tables) {v : Live} (h : ∀ c, v.MarkedAt c) (c : Cand) : (settle t v).SettledAt c :=
  ((refreshAlarms_still _ _).after (takeoverCheck_still _ _)).settled (settleSelection_settled t 3 v h c)

theorem takeLoss_calm (t : Tables) (l : Loss) (v : Live) : v.Calm (takeLoss t l v) := by
  cases l
  · exact probeTimeout_calm _ _ _
  · exact (rollLost_still _ _ _ _).calm

theorem workLosses_steady (t : Tables) (n : Nat) : ∀ v : Live, v.Steady (workLosses t n v) := by
  induction n with
  | zero => exact .refl
  | succ n ih =>
    intro v
    rw [workLosses]
    split
    · exact .refl v
    · next l ls _ =>
      have taken : v.Still { v with losses := ls } := .of_gauge rfl
      exact (ih _).after <| (settle_steady _ _).after <| (takeLoss_calm _ _ _).toSteady.after taken.toSteady

theorem workLosses_settled (t : Tables) (n : Nat) : ∀ v : Live, (∀ c, v.SettledAt c) →
    ∀ c, (workLosses t n v).SettledAt c := by
  induction n with
  | zero => exact fun _ h => h
  | succ n ih =>
    intro v h
    rw [workLosses]
    split
    · exact h
    · next l ls _ =>
      exact ih _ (settle_settled t fun c =>
        (takeLoss_calm t l { v with losses := ls }).marked (c := c) (h c).held.1)

theorem finish_steady (t : Tables) (v : Live) : v.Steady (finish t v) :=
  (workLosses_steady _ _ _).after (settle_steady t v)

/-- Whatever an event leaves marked is settled once what follows has followed. -/
theorem finish_settled (t : Tables) {v : Live} (h : ∀ c, v.MarkedAt c) (c : Cand) : (finish t v).SettledAt c :=
  workLosses_settled t _ _ (settle_settled t h) c

end Sys2Proof.Machine
end

section
/-! What an event keeps, from the links and the REF input to the requests and the resets: the events in the terms of
`Live.Steady`, and then the commands in those of `State.Keeps`, with the statements that rest on them. -/

namespace Sys2Proof.Machine

/-! ## Events on the blocks -/

/-- What every event does on the blocks, before what follows from it: the ranges are kept, and every available candidate
stays marked. -/
structure Live.Event (v w : Live) : Prop where
  range : v.InRange → w.InRange
  marked : (∀ c, v.SettledAt c) → ∀ c, w.MarkedAt c

/-- An event that leaves the time scale where it stands. -/
structure Live.QuietEvent (v w : Live) : Prop extends Live.Steady v w where
  marked : (∀ c, v.SettledAt c) → ∀ c, w.MarkedAt c

theorem Live.QuietEvent.event {v w : Live} (h : v.QuietEvent w) : v.Event w := ⟨h.range, h.marked⟩

theorem Live.Calm.quiet {v w : Live} (h : v.Calm w) : v.QuietEvent w :=
  ⟨h.toSteady, fun hs c => h.marked (hs c).held.1⟩

theorem Live.Still.quiet {v w : Live} (h : v.Still w) : v.QuietEvent w := h.calm.quiet

theorem Live.Alters.quiet {v w : Live} {c : Cand} (h : v.Alters c w) (hc : v.SettledAt c → w.HeldAt c) :
    v.QuietEvent w := by
  refine ⟨h.toSteady, fun hs e => ?_⟩
  by_cases he : e = c
  · subst he; exact (hc (hs e)).1
  · exact (h.settled he (hs e)).held.1

theorem Live.Sampled.settled {v w : Live} (k : v.Sampled w) {c : Cand} (h : v.SettledAt c) : w.SettledAt c := by
  rw [Live.SettledAt, k.cands, k.selection]; exact h

/-! ## Links, discards and the end of a transmission (chapter 5) -/

theorem noteLostAll_still (p : Port) (l : List QFrame) : ∀ v : Live, v.Still (noteLostAll p l v) := by
  induction l with
  | nil => exact fun v => .refl v
  | cons q l ih => exact fun v => (ih _).after (noteLost_still _ _ _ _)

theorem noteCut_still (p : Port) (x : Option Sending) (v : Live) : v.Still (noteCut p x v) := by
  unfold noteCut
  split
  · split
    · exact noteLost_still _ _ _ _
    · exact .refl v
  · exact .refl v
  · exact .refl v

/-- A port whose link goes down is empty. -/
theorem PortIO.cut_sound (p : Port) (x : PortIO) : PortIO.sound p (PortIO.cut p x) = true := by
  rw [PortIO.sound_iff]
  exact ⟨Nat.zero_le _, Nat.zero_le _⟩

theorem takeLinkDown_calm (t : Tables) (p : Port) (v : Live) : v.Calm (takeLinkDown t p v) := by
  unfold takeLinkDown
  dsimp only
  split
  · exact (Live.Still.refl v).calm
  · have emptied := ((noteCut_still p (v.port p).sending _).after (noteLostAll_still p (v.port p).queue _)).after
      (Live.mapPort_still v p (PortIO.cut p) fun _ => PortIO.cut_sound p _)
    split
    · exact (enterDown_calm _ _ _).after emptied.calm
    · exact emptied.calm

theorem takeLinkUp_still (p : Port) (v : Live) : v.Still (takeLinkUp p v) :=
  (grant_still _ _).after (Live.mapPort_still v p _ id)

theorem discardFrame_calm (t : Tables) (p : Port) (d : Verdict) (v : Live) : v.Calm (discardFrame t p d v) := by
  unfold discardFrame
  split
  · split
    · exact (Live.mapPort_still v p _ id).calm
    · exact (Live.Still.refl v).calm
  · split
    · exact (Live.mapPort_still v p _ id).calm
    · exact (Live.Still.refl v).calm
  · split
    · exact (spanFcsError_calm _ _ _).after (Live.mapPort_still v _ _ id).calm
    · exact (Live.Still.refl v).calm
  · exact (Live.mapPort_still v p _ id).calm
  · exact (Live.mapPort_still v p _ id).calm
  · exact (Live.Still.refl v).calm

theorem countEpochSent_still (p : Port) (b : Body) (v : Live) : v.Still (countEpochSent p b v) := by
  unfold countEpochSent
  split
  · split
    · exact Live.mapAccess_still v _ _
    · exact .refl v
  · exact .refl v
  · exact .refl v

theorem ownSent_still (p : Port) (q : QFrame) (v : Live) : v.Still (ownSent p q v) := by
  unfold ownSent
  split
  · exact .of_gauge rfl
  · exact countEpochSent_still _ _ _

theorem takeSent_still (p : Port) (v : Live) : v.Still (takeSent p v) := by
  unfold takeSent
  split
  · exact .refl v
  · dsimp only
    refine (grant_still _ _).after ((Live.mapPort_still _ p _ (PortIO.sound_of_le le_rfl ?_)).after ?_)
    · simp [throughUsed]
    · split
      · exact ownSent_still _ _ _
      · exact .refl v

/-! ## Samples, the REF input and the ring candidates (chapters 1 and 2) -/

/-- What hands a sample on evaluates the selection first (R44). -/
theorem deliverSample_range (t : Tables) (c : Cand) (theta : Int) {v : Live} (h : v.InRange) :
    (deliverSample t c theta v).InRange := by
  have hv := (settleSelection_steady t 4 v).range h
  unfold deliverSample
  dsimp only
  split
  · exact (servoSample_sampled _ _ _).range hv
  · exact hv

theorem deliverSample_settled (t : Tables) (e : Cand) (theta : Int) {v : Live} (h : ∀ c, v.MarkedAt c) (c : Cand) :
    (deliverSample t e theta v).SettledAt c := by
  have hv := settleSelection_settled t 3 v h c
  unfold deliverSample
  dsimp only
  split
  · exact (servoSample_sampled _ _ _).settled hv
  · exact hv

theorem takeQualified_steady (t : Tables) (v : Live) : v.Steady (takeQualified t v) := by
  unfold takeQualified
  split
  · exact (settle_steady _ _).after (promote_alters _ _ _).toSteady
  · exact .refl v

theorem takeQualified_settled (t : Tables) {v : Live} (h : ∀ c, v.SettledAt c) (c : Cand) :
    (takeQualified t v).SettledAt c := by
  unfold takeQualified
  split
  · exact settle_settled t ((promote_alters t .ref v).quiet (fun hr => promote_held t _ hr.held) |>.marked h) c
  · exact h c

/-- A candidate that enters QUALIFYING from UNAVAILABLE is settled as before. -/
theorem Live.mapCand_settled (v : Live) (c : Cand) (f : CandRec → CandRec)
    (hf : ∀ r, (f r).state = .selected ↔ r.state = .selected) (h : ∀ e, v.SettledAt e) (e : Cand) :
    (v.mapCand c f).SettledAt e := by
  by_cases he : e = c
  · subst he
    rw [Live.SettledAt, Live.mapCand_cands_same, hf]
    exact h e
  · exact (Live.mapCand_alters v c f).settled he (h e)

theorem usableSecond_event (t : Tables) (a : Announcement) (v : Live) : v.Event (usableSecond t a v) := by
  have hq := takeQualified_steady t v
  unfold usableSecond
  refine ⟨fun h => deliverSample_range _ _ _ ?_, fun h c => (deliverSample_settled _ _ _ (fun e => ?_) c).held.1⟩
  · exact (Live.mapCand_alters _ .ref _).range ((Live.refIn_still _ _).range (hq.range h))
  · refine (Live.mapCand_settled _ .ref _ (fun r => ?_)
      (fun e => (Live.refIn_still _ _).settled (takeQualified_settled t h e)) e).held.1
    dsimp only
    split
    · next hu => simp [hu]
    · rfl

theorem unusableSecond_calm (v : Live) : v.Calm (unusableSecond v) := by
  unfold unusableSecond
  extract_lets run _ v1 v2
  have h1 : v.Calm v1 := (Live.refIn_still v _).calm
  have h2 : v1.Calm v2 := Live.mapCand_calm v1 .ref _ fun r => by split <;> exact .inl ⟨rfl, rfl⟩
  split
  · exact ((Live.refIn_still _ _).calm.after (loseInput_calm _ _)).after (h1.trans h2)
  · exact h1.trans h2

theorem jumpSecond_quiet (a : Announcement) (v : Live) : v.QuietEvent (jumpSecond a v) := by
  have jumped : v.Alters .ref (jumpSecond a v) := by
    unfold jumpSecond
    exact (Live.mapCand_alters _ .ref _).after ((Live.refIn_still v _).alters .ref)
  refine ⟨jumped.toSteady, fun h c => ?_⟩
  by_cases hc : c = .ref
  · subst hc
    simp [Live.MarkedAt, jumpSecond, CandRec.isAvailable]
  · exact (jumped.settled hc (h c)).held.1

theorem takeAnnouncement_still (a : Announcement) (v : Live) : v.Still (takeAnnouncement a v) := by
  unfold takeAnnouncement
  split
  · exact Live.refIn_still v _
  · exact .refl v

theorem takePulse_event (t : Tables) (v : Live) : v.Event (takePulse t v) := by
  have paired := Live.refIn_still v { v.refIn with pending := none, watch := v.now }
  have from_paired {w : Live} (k : Live.Event { v with refIn := { v.refIn with pending := none, watch := v.now } } w) :
      v.Event w := ⟨fun h => k.range (paired.range h), fun h => k.marked fun c => paired.settled (h c)⟩
  unfold takePulse
  split
  · dsimp only
    split
    · exact from_paired (usableSecond_event _ _ _)
    · exact from_paired (unusableSecond_calm _).quiet.event
    · exact from_paired (jumpSecond_quiet _ _).event
  · exact (Live.Still.refl v).quiet.event

theorem declareMissing_calm (v : Live) : v.Calm (declareMissing v) :=
  (unusableSecond_calm _).after (Live.refIn_still v _).calm

theorem expireOrigin_alters (t : Tables) (c : Cand) (id : Nat) (v : Live) : v.Alters c (expireOrigin t c id v) :=
  (reviseRing_alters _ _ _).after (Live.mapCand_alters v c _)

theorem expireOrigin_held (t : Tables) (c : Cand) (id : Nat) {v : Live} (h : v.SettledAt c) :
    (expireOrigin t c id v).HeldAt c := by
  refine reviseRing_held _ _ ?_
  simpa [Live.SettledAt] using h

theorem hearEpoch_alters (t : Tables) (c : Cand) (h : Header) (b : EpochBody) (theta : Int) (v : Live) :
    v.Alters c (hearEpoch t c h b theta v).2 := by
  have revised := fun o => (reviseRing_alters t c (v.mapCand c fun r => { r with
    origins := hearOrigin o r.origins
    state := if r.state = .unavailable then .qualifying else r.state
    qual := if r.state = .unavailable then some (Timer.start v.now) else r.qual })).after (Live.mapCand_alters v c _)
  unfold hearEpoch
  dsimp only
  split
  · dsimp only
    exact (Live.mapCand_alters _ c _).after (revised _)
  · exact revised _

theorem hearEpoch_held (t : Tables) (c : Cand) (h : Header) (b : EpochBody) (theta : Int) {v : Live}
    (hv : v.SettledAt c) : (hearEpoch t c h b theta v).2.HeldAt c := by
  have revised := fun o => reviseRing_held t c (v := v.mapCand c fun r => { r with
    origins := hearOrigin o r.origins
    state := if r.state = .unavailable then .qualifying else r.state
    qual := if r.state = .unavailable then some (Timer.start v.now) else r.qual }) (by
      rw [Live.SettledAt, Live.mapCand_cands_same, Live.mapCand_selection]
      dsimp only
      split
      · next hu =>
        rw [← show _ ↔ v.selection = some c from hv, hu]
        decide
      · exact hv)
  unfold hearEpoch
  dsimp only
  split
  · dsimp only
    refine (Live.mapCand_calm _ c _ fun _ => ?_).held (revised _)
    exact .inl ⟨rfl, rfl⟩
  · exact revised _

theorem epochPasses_event (t : Tables) (d : Side) (rx : Stamp) (h : Header) (b : EpochBody) (v : Live) :
    v.Event (epochPasses t d rx h b v) := by
  unfold epochPasses
  dsimp only
  split
  · exact ((forwardEpoch_still _ _ _ _ _ _ _).after (Live.epoch_still v _)).quiet.event
  · have sent := (forwardEpoch_still t d rx (((v.span d).df).getD 0) h b _).after (watchPrimary_still t h b v)
    split
    · exact sent.quiet.event
    · have heard := hearEpoch_alters t d.cand h b (epochOffset rx b (((v.span d).df).getD 0))
        (forwardEpoch t d rx (((v.span d).df).getD 0) h b (watchPrimary t h b v))
      have quiet := heard.quiet (hearEpoch_held t d.cand h b _)
      have marked (hv : ∀ c, v.SettledAt c) := quiet.marked fun c => sent.settled (hv c)
      split
      · exact ⟨fun hv => deliverSample_range _ _ _ (heard.range (sent.range hv)),
          fun hv c => (deliverSample_settled _ _ _ (marked hv) c).held.1⟩
      · exact ⟨fun hv => heard.range (sent.range hv), marked⟩

theorem takeEpoch_event (t : Tables) (d : Side) (rx : Stamp) (h : Header) (b : EpochBody) (v : Live) :
    v.Event (takeEpoch t d rx h b v) := by
  have counted (e : Epoch) : v.Event { v with epoch := e } := (Live.epoch_still v e).quiet.event
  unfold takeEpoch
  dsimp only
  split
  · exact counted _
  · split
    · exact counted _
    · split
      · exact counted _
      · split
        · exact counted _
        · exact epochPasses_event _ _ _ _ _ _

theorem takeReading_still (t : Tables) (answer : Option Int) (v : Live) : v.Still (takeReading t answer v) :=
  (Live.recomputeF_still _).after (.of_gauge rfl)

theorem holdTick_still (t : Tables) (v : Live) : v.Still (holdTick t v) := .of_gauge rfl

/-! ## Management frames (sections 11.2 and 11.4) -/

theorem siteResponse_still (t : Tables) (d : Side) (b : RespBody) (n : Note) (v : Live) :
    v.Still (siteResponse t d b n v) := (hand_still _ _ _).after (Live.mgmt_still v _ rfl)

theorem ringResponse_still (t : Tables) (arrival : Side) (requester : Nat) (b : RespBody) (n : Note) (v : Live) :
    v.Still (ringResponse t arrival requester b n v) := by
  unfold ringResponse
  split
  · dsimp only
    split
    · exact .of_gauge rfl
    · exact Live.mgmt_still v _ rfl
  · exact (hand_still _ _ _).after (Live.mgmt_still v _ rfl)

theorem respond_still (t : Tables) (env : ReqEnv) (st : Status) (es : List Entry) (n : Note) (v : Live) :
    v.Still (respond t env st es n v) := by
  unfold respond
  dsimp only
  split
  · exact siteResponse_still _ _ _ _ _
  · exact ringResponse_still _ _ _ _ _ _
  · exact .refl v

theorem mapRelay_still (i : Nat) (f : RelaySlot → RelaySlot) (v : Live) : v.Still (mapRelay i f v) :=
  Live.mgmt_still v _ (modifyAt_length _ _ _)

theorem relayRequest_still (t : Tables) (d : Side) (target : Nat) (b : ReqBody) (v : Live) :
    v.Still (relayRequest t d target b v) := by
  unfold relayRequest
  extract_lets env
  split
  · exact respond_still _ _ _ _ _ _
  · split
    · exact respond_still _ _ _ _ _ _
    · split
      · exact respond_still _ _ _ _ _ _
      · extract_lets v1 _ v2 rel
        have h1 : v.Still v1 := mapRelay_still _ _ _
        have h2 : v1.Still v2 := Live.mgmt_still v1 _ rfl
        exact (hand_still _ _ _).after (h2.after h1)

theorem relayCheck_still (t : Tables) (h : Nat) (v : Live) : v.Still (relayCheck t h v) := by
  unfold relayCheck
  split
  · split
    · split
      · exact (siteResponse_still _ _ _ _ _).after (mapRelay_still _ _ _)
      · exact .refl v
    · exact .refl v
  · exact .refl v

theorem relayChecks_still (t : Tables) (l : List Nat) : ∀ v : Live, v.Still (relayChecks t l v) := by
  induction l with
  | nil => exact fun v => .refl v
  | cons h l ih => exact fun v => (ih _).after (relayCheck_still _ _ _)

theorem forwardMgmt_still (t : Tables) (d : Side) (h : Header) (b : Body) (v : Live) :
    v.Still (forwardMgmt t d h b v) := by
  unfold forwardMgmt
  split
  · exact Live.mgmt_still v _ rfl
  · exact hand_still _ _ _

theorem takeResponse_still (t : Tables) (h : Header) (b : RespBody) (v : Live) : v.Still (takeResponse t h b v) := by
  unfold takeResponse
  split
  · exact (hand_still _ _ _).after (mapRelay_still _ _ _)
  · exact Live.mgmt_still v _ rfl

theorem responseArrives_still (t : Tables) (d : Side) (h : Header) (b : RespBody) (v : Live) :
    v.Still (responseArrives t d h b v) := by
  unfold responseArrives
  split
  · exact Live.mgmt_still v _ rfl
  · split
    · exact takeResponse_still _ _ _ _
    · exact forwardMgmt_still _ _ _ _ _

/-! ## New tables taken by the blocks -/

theorem nodeEffects_still (old new : Tables) (v : Live) : v.Still (nodeEffects old new v) := by
  unfold nodeEffects
  dsimp only
  refine (relayChecks_still _ _ _).after ?_
  split
  · exact .refl v
  · exact (refreshAlarms_still _ _).after (clearDuplicate_still v)

theorem portEffects_calm (old new : Tables) (v : Live) : v.Calm (portEffects old new v) :=
  (((accessEffects_still _ _ _ _ _).after (accessEffects_still _ _ _ _ _)).after
    ((accessEffects_still _ _ _ _ _).after (accessEffects_still _ _ _ _ _))).calm.after
    ((lineEffects_calm _ _ _ _ _).after (lineEffects_calm _ _ _ _ _))

theorem servoEffects_still (old new : ServoTable) (v : Live) : v.Still (servoEffects old new v) := by
  unfold servoEffects
  extract_lets _ v1 f
  have h1 : v.Still v1 := by
    unfold v1
    split
    · exact .refl v
    · exact .of_gauge rfl
  split
  · refine ((Live.recomputeF_still _).after (Live.servo_still v1 _ fun h => ?_)).after h1
    exact h
  · exact h1

theorem emptyHistory_still (v : Live) : v.Still (emptyHistory v) := Live.servo_still v _ fun _ => Nat.zero_le _

theorem thermalEffects_still (old new : ThermalTable) (v : Live) : v.Still (thermalEffects old new v) := by
  unfold thermalEffects
  split
  · exact .refl v
  · exact emptyHistory_still v

theorem alarmEffects_still (old new : Tables) (v : Live) : v.Still (alarmEffects old new v) := by
  unfold alarmEffects
  split
  · exact .refl v
  · exact soakChecks_still _ _ _

theorem takeTables_quiet (old new : Tables) (v : Live) : v.QuietEvent (takeTables old new v) := by
  unfold takeTables
  extract_lets v1 v2 v3 v4 v5
  have h1 : v.Still v1 := (nodeEffects_still _ _ _).after (refreshAlarms_still _ _)
  have ring := ringEffects_calm new old.ring (originRole old) v1
  have h2 : Live.Steady v1 v2 :=
    (refreshAlarms_still _ _).toSteady.after (ring.toSteady.after (dropUnnamed_steady _ _))
  have h3 : Live.Steady v2 v3 :=
    (refreshAlarms_still _ _).toSteady.after ((candEffects_steady _ _).after (portEffects_calm _ _ _).toSteady)
  have h4 : Live.Still v3 (alarmEffects old new v5) :=
    (alarmEffects_still _ _ _).after ((thermalEffects_still _ _ _).after (servoEffects_still _ _ _))
  refine ⟨h1.toSteady.trans (h2.trans (h3.trans h4.toSteady)), fun h c => h4.calm.marked ?_⟩
  refine (refreshAlarms_still _ _).calm.marked (candEffects_held _ (fun e => ?_) c).1
  refine (portEffects_calm _ _ _).held ((refreshAlarms_still _ _).calm.held (ring.held ?_))
  exact dropUnnamed_held _ (fun e => h1.settled (h e)) e

end Sys2Proof.Machine
end

section
/-! The commands: what each keeps of the tables, the locks, the queue, the ranges and the selection, and which leave the
time scale to the oscillator. -/

namespace Sys2Proof.Machine

/-! ## What a command keeps -/

/-- What every command but the two hard resets keeps (R184, R188; the ranges and the selection as the blocks'
events keep them). -/
structure State.Keeps (s t : State) : Prop where
  pending : t.pending = s.pending
  down : ∀ m, s.locks.get m = .lockedDown → t.locks.get m = .lockedDown ∧ Tables.agreeOn m t.tables s.tables = true
  guard : s.live.guard = true → t.locks = s.locks
  commit : s.store.commit ≠ none → t.tables = s.tables ∧ t.locks = s.locks
  range : s.live.InRange → t.live.InRange
  settled : (∀ c, s.live.SettledAt c) → ∀ c, t.live.SettledAt c

/-- Such a command that leaves the time scale where the passing of time has brought it. -/
structure State.Quiet (s t : State) : Prop extends State.Keeps s t where
  value : t.live.ts.value = s.live.ts.value
  rem : t.live.ts.rem = s.live.ts.rem
  steps : t.live.ts.steps = s.live.ts.steps

@[simp] theorem Tables.agreeOn_refl (m : TableName) (t : Tables) : Tables.agreeOn m t t = true := by
  cases m <;> simp [Tables.agreeOn]

/-- A change of the blocks alone. -/
theorem State.Keeps.of_live (s : State) (v : Live) (hr : s.live.InRange → v.InRange)
    (hs : (∀ c, s.live.SettledAt c) → ∀ c, v.SettledAt c) : s.Keeps { s with live := v } :=
  ⟨rfl, fun m hm => ⟨hm, Tables.agreeOn_refl m _⟩, fun _ => rfl, fun _ => ⟨rfl, rfl⟩, hr, hs⟩

theorem State.Quiet.of_live (s : State) (v : Live) (h : s.live.Steady v)
    (hs : (∀ c, s.live.SettledAt c) → ∀ c, v.SettledAt c) : s.Quiet { s with live := v } :=
  ⟨.of_live s v h.range hs, h.value, h.rem, h.steps⟩

theorem State.Quiet.refl (s : State) : s.Quiet s := .of_live s s.live (.refl _) id

theorem State.Quiet.of_still (s : State) {v : Live} (h : s.live.Still v) : s.Quiet { s with live := v } :=
  .of_live s v h.toSteady fun hs c => h.settled (hs c)

/-- An event and what follows from it. -/
theorem State.Keeps.settled_of_event (s : State) {v : Live} (h : s.live.Event v) : s.Keeps (s.settled v) :=
  .of_live s _ (fun hr => (finish_steady _ _).range (h.range hr)) fun hs => finish_settled _ (h.marked hs)

theorem State.Quiet.settled_of_quiet (s : State) {v : Live} (h : s.live.QuietEvent v) : s.Quiet (s.settled v) :=
  .of_live s _ ((finish_steady _ _).after h.toSteady) fun hs => finish_settled _ (h.marked hs)

theorem State.act_keeps (s : State) (f : Tables → Live → Live) (h : s.live.Event (f s.tables s.live)) :
    s.Keeps (s.act f) := .settled_of_event s h

theorem State.act_quiet (s : State) (f : Tables → Live → Live) (h : s.live.QuietEvent (f s.tables s.live)) :
    s.Quiet (s.act f) := .settled_of_quiet s h

theorem State.timed_quiet (s : State) (due : Tables → Live → Bool) (f : Tables → Live → Live)
    (h : s.live.QuietEvent (f s.tables s.live)) : s.Quiet (s.timed due f) := by
  unfold State.timed
  split
  · exact s.act_quiet f h
  · exact .refl s

/-! ## Time -/

theorem TimeScale.advance_rem_lt (n : Nat) (x : TimeScale) : (x.advance n).rem < unitsPerPs :=
  Nat.mod_lt _ (by norm_num [unitsPerPs])

theorem TimeScale.advance_value_wf (n : Nat) (x : TimeScale) : (x.advance n).value.wf = true := TimeValue.ofPs_wf _

/-- The passing of time keeps the ranges: the time value is taken modulo 2^40 s, the remainder below a picosecond. -/
theorem Live.elapse_inRange (n : Nat) {v : Live} (h : v.InRange) : (v.elapse n).InRange := by
  have hts := h.ts
  simp only [TimeScale.sound, Bool.and_eq_true] at hts
  obtain ⟨⟨⟨_, _⟩, hlo⟩, hhi⟩ := hts
  refine ⟨?_, h.ports, h.histories, h.counts⟩
  simp only [TimeScale.sound, Bool.and_eq_true, Live.elapse_ts, TimeScale.advance_fTotal]
  exact ⟨⟨⟨TimeScale.advance_value_wf n v.ts, decide_eq_true (TimeScale.advance_rem_lt n v.ts)⟩, hlo⟩, hhi⟩

/-- What a command keeps after its time has passed, it keeps from before. -/
theorem State.Keeps.of_elapse {n : Nat} {s t : State} (h : (s.elapse n).Keeps t) : s.Keeps t :=
  ⟨h.pending, h.down, h.guard, h.commit, fun hr => h.range (Live.elapse_inRange n hr), h.settled⟩

/-! ## Tables and locks -/

/-- Everything but the tables, the locks and the store's commit is settled as an event leaves it: an installation of
new tables, which the LOCKED-DOWN tables and a commit forbid to differ. -/
theorem State.install_quiet (s : State) (new : Tables) (hcommit : s.store.commit = none)
    (hdown : ∀ m, s.locks.get m = .lockedDown → Tables.agreeOn m new s.tables = true) : s.Quiet (s.install new) where
  pending := rfl
  down m hm := ⟨hm, hdown m hm⟩
  guard _ := rfl
  commit h := absurd hcommit h
  range h := (finish_steady _ _).range ((takeTables_quiet s.tables new s.live).range h)
  settled h := finish_settled _ ((takeTables_quiet s.tables new s.live).marked h)
  value := (finish_steady _ _).value.trans (takeTables_quiet s.tables new s.live).value
  rem := (finish_steady _ _).rem.trans (takeTables_quiet s.tables new s.live).rem
  steps := (finish_steady _ _).steps.trans (takeTables_quiet s.tables new s.live).steps

/-- What a change of the blocks that leaves the GUARD level keeps beforehand. -/
theorem State.Keeps.of_still_first {s t : State} {v : Live} (h : s.live.Still v) (hg : v.guard = s.live.guard)
    (k : State.Keeps { s with live := v } t) : s.Keeps t where
  pending := k.pending
  down := k.down
  guard hs := k.guard (hg.trans hs)
  commit := k.commit
  range hr := k.range (h.range hr)
  settled hs := k.settled fun c => h.settled (hs c)

theorem State.Quiet.of_still_first {s t : State} {v : Live} (h : s.live.Still v) (hg : v.guard = s.live.guard)
    (k : State.Quiet { s with live := v } t) : s.Quiet t where
  toKeeps := k.toKeeps.of_still_first h hg
  value := k.value.trans h.value
  rem := k.rem.trans h.rem
  steps := k.steps.trans h.steps

/-- What a change of the blocks keeps afterwards. -/
theorem State.Quiet.then_live {s t : State} (k : s.Quiet t) (v : Live) (h : t.live.Steady v)
    (hs : (∀ c, t.live.SettledAt c) → ∀ c, v.SettledAt c) : s.Quiet { t with live := v } where
  pending := k.pending
  down := k.down
  guard := k.guard
  commit := k.commit
  range hr := h.range (k.range hr)
  settled hv := hs (k.settled hv)
  value := h.value.trans k.value
  rem := h.rem.trans k.rem
  steps := h.steps.trans k.steps

/-! ## Requests (sections 11.2 and 11.3) -/

theorem setEntry_agreeOn {n m : TableName} {t t' : Tables} {e : Entry} (h : setEntry n t e = some t') (hm : m ≠ n) :
    Tables.agreeOn m t' t = true := by
  cases n <;> simp only [setEntry, Option.map_eq_some_iff] at h <;> obtain ⟨x, _, rfl⟩ := h <;> cases m <;>
    first
      | exact absurd rfl hm
      | exact decide_eq_true rfl

theorem Tables.agreeOn_trans {m : TableName} {a b c : Tables} (h : Tables.agreeOn m a b = true)
    (k : Tables.agreeOn m b c = true) : Tables.agreeOn m a c = true := by
  cases m <;> simp only [Tables.agreeOn, decide_eq_true_eq] at h k ⊢ <;> exact h.trans k

theorem setEntries_agreeOn {n m : TableName} (hm : m ≠ n) (es : List Entry) : ∀ {t t' : Tables},
    setEntries n es t = some t' → Tables.agreeOn m t' t = true := by
  induction es with
  | nil =>
    intro t t' h
    cases h
    exact Tables.agreeOn_refl m _
  | cons e es ih =>
    intro t t' h
    rw [setEntries] at h
    split at h
    · next u hu => exact Tables.agreeOn_trans (ih h) (setEntry_agreeOn hu hm)
    · cases h

/-- A write leaves every table but its own (R182). -/
theorem writeTable_agreeOn {n m : TableName} {t t' : Tables} {es : List Entry} (h : writeTable n t es = some t')
    (hm : m ≠ n) : Tables.agreeOn m t' t = true := by
  unfold writeTable at h
  split at h
  · cases h
  · next u hu =>
    have hut := setEntries_agreeOn hm es hu
    split at h
    · split at h
      · cases h
        refine Tables.agreeOn_trans ?_ hut
        cases m <;> first | exact absurd rfl hm | exact decide_eq_true rfl
      · cases h
    · split at h
      · cases h; exact hut
      · cases h
    · split at h
      · cases h; exact hut
      · cases h
    · cases h; exact hut

theorem performRead_state (relay : Option RelayFields) (table first count : Nat) (s : State) :
    (performRead relay table first count s).state = s := by
  unfold performRead
  split
  · rfl
  · split
    · rfl
    · split
      · rfl
      · split <;> rfl

/-- A THERMAL write that names a gradient empties the holdover history (R60), and any other leaves the state. -/
theorem afterWrite_eq (n : TableName) (es : List Entry) (s : State) :
    ∃ v, afterWrite n es s = { s with live := v } ∧ s.live.Still v ∧ v.guard = s.live.guard := by
  unfold afterWrite
  split
  · split
    · exact ⟨_, rfl, emptyHistory_still _, rfl⟩
    · exact ⟨_, rfl, .refl _, rfl⟩
  · exact ⟨_, rfl, .refl _, rfl⟩

/-- A WRITE that is taken finds its table OPEN and no commit in progress (R181). -/
theorem performWrite_quiet (env : ReqEnv) (table : Nat) (w : WriteArgs) (s : State) :
    s.Quiet (performWrite env table w s).state := by
  unfold performWrite
  split
  · exact .refl s
  · split
    · exact .refl s
    · next n _ =>
      split
      · exact .refl s
      · split
        · exact .refl s
        · split
          · exact .refl s
          · next hlock =>
            split
            · exact .refl s
            · next hcommit =>
              split
              · exact .refl s
              · split
                · exact .refl s
                · next t ht =>
                  rw [Option.isSome_iff_ne_none, not_not] at hcommit
                  have hopen : ∀ m, s.locks.get m = .lockedDown → Tables.agreeOn m t s.tables = true := by
                    intro m hm
                    refine writeTable_agreeOn ht fun hmn => hlock fun ho => ?_
                    rw [hmn, ho] at hm
                    cases hm
                  obtain ⟨v, hv, hstill, hguard⟩ := afterWrite_eq n w.entries s
                  rw [hv]
                  exact .of_still_first hstill hguard (State.install_quiet { s with live := v } t hcommit hopen)

theorem command_quiet (env : ReqEnv) (f : State → Reply) (s : State) (h : s.Quiet (f s).state) :
    s.Quiet (command env f s).state := by
  unfold command
  split
  · exact .refl s
  · exact h

/-- A change of the ports that keeps each within its capacities. -/
theorem Live.io_still (v : Live) (x : Ports)
    (h : ∀ p, PortIO.sound p (v.io.get p) = true → PortIO.sound p (x.get p) = true) :
    v.Still { v with io := x } := by
  refine ⟨⟨rfl, rfl, rfl, fun r => ⟨r.ts, ?_, r.histories, r.counts⟩⟩, rfl, rfl⟩
  rw [Live.portsSound_iff]
  exact fun p => h p ((Live.portsSound_iff v).mp r.ports p)

theorem clearAllCounters_still (v : Live) : v.Still (clearAllCounters v) := by
  have cleared : v.Still { v with io := v.io.map PortIO.clearCounters } :=
    Live.io_still v _ fun p h => by rw [Ports.map_get]; exact h
  exact cleared.trans (.of_gauge (by simp [Live.gauge, clearAllCounters, Mgmt.clearCounters, Roll.clearCounters]))

theorem reloaded_agreeOn (locks : PerTable Lock) (old img : Tables) (m : TableName)
    (h : locks.get m = .lockedDown) : Tables.agreeOn m (reloaded locks old img) old = true := by
  cases m <;> exact decide_eq_true (if_pos h)

theorem dropRejected_still (l : Lock) (v : Live) : v.Still (dropRejected l v) := by
  unfold dropRejected
  split
  · exact .refl v
  · exact Live.roll_still v _ rfl

theorem dropRejected_guard (l : Lock) (v : Live) : (dropRejected l v).guard = v.guard := by
  unfold dropRejected
  split <;> rfl

theorem performReload_quiet (s : State) : s.Quiet (performReload s).state := by
  unfold performReload
  split
  · exact .refl s
  · next hcommit =>
    rw [Option.isSome_iff_ne_none, not_not] at hcommit
    split
    · exact .refl s
    · exact .of_still_first (dropRejected_still _ _) (dropRejected_guard _ _)
        (State.install_quiet _ _ hcommit (reloaded_agreeOn _ _ _))

/-- A change of the store alone. -/
theorem State.Quiet.of_store (s : State) (x : Store) : s.Quiet { s with store := x } :=
  ⟨⟨rfl, fun m hm => ⟨hm, Tables.agreeOn_refl m _⟩, fun _ => rfl, fun _ => ⟨rfl, rfl⟩, id, id⟩, rfl, rfl, rfl⟩

theorem performCommit_quiet (s : State) : s.Quiet (performCommit s).state := by
  unfold performCommit
  split
  · exact .refl s
  · exact .of_store s _

/-- A lock moved where GUARD is released and no commit is in progress; a LOCKED-DOWN one moves nowhere else. -/
theorem State.Quiet.of_lock {s : State} {n : TableName} {l : Lock} (hg : s.live.guard ≠ true)
    (hc : s.store.commit = none) (hl : s.locks.get n = .lockedDown → l = .lockedDown) :
    s.Quiet { s with locks := s.locks.set n l } := by
  refine ⟨⟨rfl, fun m hm => ⟨?_, Tables.agreeOn_refl m _⟩, fun h => absurd h hg, fun h => absurd hc h, id, id⟩,
    rfl, rfl, rfl⟩
  by_cases hn : n = m
  · subst hn
    rw [PerTable.get_set_same]
    exact hl hm
  · rw [PerTable.get_set_other _ hn]
    exact hm

theorem lockLevel_ne_opened (es : List Entry) : lockLevel es ≠ some .opened := by
  unfold lockLevel
  split
  · split <;> simp
  · simp

theorem performLock_quiet (table : Nat) (es : List Entry) (s : State) : s.Quiet (performLock table es s).state := by
  unfold performLock
  split
  · exact .refl s
  · split
    · exact .refl s
    · next hg =>
      split
      · exact .refl s
      · next hdown =>
        split
        · exact .refl s
        · next hcommit =>
          split
          · exact .refl s
          · next l hl =>
            rw [Option.isSome_iff_ne_none, not_not] at hcommit
            refine .of_lock hg hcommit fun hd => ?_
            cases l with
            | opened => exact absurd hl (lockLevel_ne_opened es)
            | locked => exact absurd ⟨hd, hl⟩ hdown
            | lockedDown => rfl

theorem performUnlock_quiet (table : Nat) (s : State) : s.Quiet (performUnlock table s).state := by
  unfold performUnlock
  split
  · exact .refl s
  · split
    · exact .refl s
    · next hg =>
      split
      · exact .refl s
      · next hdown =>
        split
        · exact .refl s
        · next hcommit =>
          rw [Option.isSome_iff_ne_none, not_not] at hcommit
          exact .of_lock hg hcommit fun hd => absurd hd hdown

theorem performSelect_quiet (i : Nat) (s : State) : s.Quiet (performSelect i s).state := by
  unfold performSelect
  split
  · exact .refl s
  · split
    · exact .of_still s (.of_gauge rfl)
    · exact .refl s

theorem performClearCounters_quiet (s : State) : s.Quiet (performClearCounters s).state :=
  .of_still s (clearAllCounters_still _)

theorem performClearHistory_quiet (s : State) : s.Quiet (performClearHistory s).state :=
  .of_still s (Live.alarms_still _ _ (fun _ => Nat.zero_le _) rfl)

theorem performClearSelect_quiet (s : State) : s.Quiet (performClearSelect s).state := .of_still s (.of_gauge rfl)

theorem lockCommand_quiet (env : ReqEnv) (table : Nat) (es : List Entry) (s : State) :
    s.Quiet (lockCommand env table es s).state := by
  unfold lockCommand
  split
  · exact .refl s
  · exact command_quiet _ _ _ (performLock_quiet _ _ _)

theorem unlockCommand_quiet (env : ReqEnv) (table : Nat) (s : State) :
    s.Quiet (unlockCommand env table s).state := by
  unfold unlockCommand
  split
  · exact .refl s
  · exact command_quiet _ _ _ (performUnlock_quiet _ _)

theorem performCommand_quiet (env : ReqEnv) (b : ReqBody) (s : State) : s.Quiet (performCommand env b s).state := by
  unfold performCommand
  split
  · exact command_quiet _ _ _ (performClearCounters_quiet _)
  · exact command_quiet _ _ _ (performClearHistory_quiet _)
  · exact command_quiet _ _ _ (.refl _)
  · exact command_quiet _ _ _ (performReload_quiet _)
  · exact command_quiet _ _ _ (performCommit_quiet _)
  · exact lockCommand_quiet _ _ _ _
  · exact unlockCommand_quiet _ _ _
  · exact command_quiet _ _ _ (performSelect_quiet _ _)
  · exact command_quiet _ _ _ (performClearSelect_quiet _)
  · exact .refl s

theorem performRequest_quiet (env : ReqEnv) (b : ReqBody) (s : State) : s.Quiet (performRequest env b s).state := by
  unfold performRequest
  split
  · rw [performRead_state]; exact .refl s
  · exact performWrite_quiet _ _ _ _
  · exact performCommand_quiet _ _ _
  · exact .refl s

/-- What follows from a request and its answer keep what the request kept. -/
theorem State.Quiet.answered {s t : State} (k : s.Quiet t) (env : ReqEnv) (st : Status) (es : List Entry) (n : Note) :
    s.Quiet (t.answer env st es n) := by
  have answered := respond_still t.tables env st es n (finish t.tables t.live)
  refine k.then_live _ ((finish_steady _ _).after (answered.toSteady.after (finish_steady _ _))) fun h => ?_
  exact finish_settled _ fun c => (answered.settled (finish_settled _ (fun c => (h c).held.1) c)).held.1

theorem State.counted_first {s t : State} (k : s.counted.Quiet t) : s.Quiet t :=
  .of_still_first (Live.mgmt_still s.live { s.live.mgmt with executed := bump s.live.mgmt.executed } rfl) rfl k

theorem serve_quiet (env : ReqEnv) (n : Note) (f : State → Reply) (s : State)
    (h : s.counted.Quiet (f s.counted).state) : s.Quiet (serve env n f s) := by
  unfold serve
  split
  · exact .refl s
  · exact .of_still s (Live.mgmt_still _ _ rfl)
  · exact State.counted_first (h.answered _ _ _ _)

theorem State.requestArrives_quiet (via : Via) (h : Header) (b : ReqBody) (s : State) :
    s.Quiet (s.requestArrives via h b) := by
  unfold State.requestArrives
  dsimp only
  split
  · split
    · exact serve_quiet _ _ _ _ (performRequest_quiet _ _ _)
    · exact .settled_of_quiet s (relayRequest_still _ _ _ _ _).quiet
  · split
    · exact .of_still s (Live.mgmt_still _ _ rfl)
    · split
      · exact serve_quiet _ _ _ _ (performRequest_quiet _ _ _)
      · exact .settled_of_quiet s (forwardMgmt_still _ _ _ _ _).quiet

/-! ## Arriving frames (section 5.2) -/

/-- A CONFIG is adopted only where RING is OPEN and no commit is in progress (R147). -/
theorem configVerdict_adopt {t : Tables} {l : Lock} {committing : Bool} {d : Side} {h : Header} {b : ConfigBody}
    (hv : configVerdict t l committing d h b = .adopt) : l = .opened ∧ committing = false := by
  unfold configVerdict at hv
  repeat' split at hv
  all_goals first | exact absurd hv (by decide) | skip
  next _ _ _ _ _ _ hcommit _ hadopt => exact ⟨hadopt.2, Bool.eq_false_iff.mpr hcommit⟩

theorem State.takeConfig_quiet (d : Side) (h : Header) (b : ConfigBody) (s : State) :
    s.Quiet (s.takeConfig d h b) := by
  unfold State.takeConfig
  dsimp only
  split
  · exact .of_still s (Live.roll_still _ _ rfl)
  · exact .of_still s (forwardConfig_still _ _ _ _ _)
  · exact .of_still s (Live.roll_still _ _ rfl)
  · exact .of_still s (Live.roll_still _ _ rfl)
  · next hv =>
    obtain ⟨hopen, hcommit⟩ := configVerdict_adopt hv
    refine .of_still_first (Live.roll_still s.live { s.live.roll with rejectedGen := none } rfl) rfl
      (State.install_quiet _ _ ?_ fun m hm => ?_)
    · simpa using hcommit
    · cases m
      case ring => rw [show s.locks.get .ring = .opened from hopen] at hm; cases hm
      all_goals exact decide_eq_true rfl

theorem State.claimLine_keeps (d : Side) (rx : Stamp) (f : Frame) (s : State) : s.Keeps (s.claimLine d rx f) := by
  unfold State.claimLine
  dsimp only
  split
  · exact .settled_of_event s (takeEpoch_event _ _ _ _ _ _)
  · exact (State.Quiet.settled_of_quiet s (answerProbe_still _ _ _ _ _).quiet).toKeeps
  · exact (State.Quiet.settled_of_quiet s (takeReply_calm _ _ _ _ _ _ _ _).quiet).toKeeps
  · exact (State.Quiet.settled_of_quiet s (takeRoll_still _ _ _ _ _).quiet).toKeeps
  · exact ((State.takeConfig_quiet _ _ _ s).then_live _ (finish_steady _ _)
      fun h => finish_settled _ fun c => (h c).held.1).toKeeps
  · exact (State.requestArrives_quiet _ _ _ s).toKeeps
  · exact (State.Quiet.settled_of_quiet s (responseArrives_still _ _ _ _ _).quiet).toKeeps
  · exact (State.Quiet.refl s).toKeeps

theorem State.claimSite_quiet (d : Side) (f : Frame) (s : State) : s.Quiet (s.claimSite d f) := by
  unfold State.claimSite
  split
  · exact State.requestArrives_quiet _ _ _ s
  · exact .refl s

theorem State.claimAccess_quiet (i : Fin 4) (rx : Stamp) (f : Frame) (s : State) : s.Quiet (s.claimAccess i rx f) := by
  unfold State.claimAccess
  split
  · exact .settled_of_quiet s (answerAccessProbe_still _ _ _ _ _ _).quiet
  · exact .refl s

theorem State.takeFrame_keeps (p : Port) (rx : Stamp) (f : RawFrame) (s : State) : s.Keeps (s.takeFrame p rx f) := by
  have discarded (d : Verdict) := (State.Quiet.settled_of_quiet s (discardFrame_calm s.tables p d s.live).quiet).toKeeps
  unfold State.takeFrame
  dsimp only
  split
  · exact (State.Quiet.settled_of_quiet s (passThrough_still _ _ _).quiet).toKeeps
  · unfold State.claim
    split
    · exact State.claimLine_keeps _ _ _ s
    · exact (State.claimSite_quiet _ _ s).toKeeps
    · exact (State.claimAccess_quiet _ _ _ s).toKeeps
  all_goals exact discarded _

theorem State.takeFrame_access_quiet (i : Fin 4) (rx : Stamp) (f : RawFrame) (s : State) :
    s.Quiet (s.takeFrame (.access i) rx f) := by
  have discarded (d : Verdict) :=
    State.Quiet.settled_of_quiet s (discardFrame_calm s.tables (.access i) d s.live).quiet
  unfold State.takeFrame
  dsimp only
  split
  · exact .settled_of_quiet s (passThrough_still _ _ _).quiet
  · exact State.claimAccess_quiet _ _ _ s
  all_goals exact discarded _

theorem State.receive_keeps (p : Port) (a : Arrival) (f : RawFrame) (s : State) : s.Keeps (s.receive p a f) := by
  unfold State.receive
  split
  · exact (State.Quiet.refl s).toKeeps
  · split
    · exact (State.Quiet.of_still s (Live.mapPort_still s.live p _ id)).toKeeps
    · exact .of_still_first (Live.mapPort_still s.live p PortIO.received id) rfl (State.takeFrame_keeps _ _ _ _)
    · exact (State.Quiet.refl s).toKeeps

/-- No frame at an access port is a sample. -/
theorem State.receive_access_quiet (i : Fin 4) (a : Arrival) (f : RawFrame) (s : State) :
    s.Quiet (s.receive (.access i) a f) := by
  unfold State.receive
  split
  · exact .refl s
  · split
    · exact .of_still s (Live.mapPort_still s.live (.access i) _ id)
    · exact .of_still_first (Live.mapPort_still s.live (.access i) PortIO.received id) rfl
        (State.takeFrame_access_quiet _ _ _ _)
    · exact .refl s

/-! ## Resets (chapter 11) -/

theorem Reset.cand_not_selected (b : Bool) : (Reset.cand b).state ≠ .selected := by cases b <;> simp [Reset.cand]

theorem takeUp_calm (t : Tables) (v : Live) : v.Calm (takeUp t v) := by
  unfold takeUp
  dsimp only
  have started := (startProbeClock_calm t .west _).after (startProbeClock_calm t .east v)
  have ready : v.Calm ((startProbeClock t .west (startProbeClock t .east v)).resetJ t) :=
    Live.Calm.after (Live.epoch_still _ _).calm started
  split
  · exact (becomeActive_still _ _).calm.after ready
  · exact (startTakeover_still _).calm.after ready
  · exact ready

theorem takeConditions_still (t : Tables) (v : Live) : v.Still (takeConditions t v) :=
  (refreshAlarms_still _ _).after <| ((startAccess_still _ _ _).after (startAccess_still _ _ _)).after
    ((startAccess_still _ _ _).after (startAccess_still _ _ _))

theorem enterRunning_calm (t : Tables) (v : Live) :
    v.Calm (takeUp t (takeConditions t { v with part := .running })) :=
  ((takeUp_calm _ _).after (takeConditions_still _ _).calm).after
    (Live.Still.of_gauge rfl : v.Still { v with part := .running }).calm

theorem State.endLoading_quiet (s : State) : s.Quiet s.endLoading := by
  unfold State.endLoading
  split
  · exact .of_still_first (Live.Still.of_gauge rfl : s.live.Still { s.live with nodeKept := false }) rfl
      (.settled_of_quiet _ (enterRunning_calm s.tables _).quiet)
  · exact .refl s

/-- A soft restart keeps the time scale and the ranges. -/
theorem softReset_steady (t : Tables) (v : Live) : v.Steady (softReset t v) := by
  refine (Live.recomputeF_still _).toSteady.after ⟨rfl, rfl, rfl, fun r => ⟨r.ts, ?_, r.histories, ?_⟩⟩
  · rw [Live.portsSound_iff]
    intro p
    have := (Live.portsSound_iff v).mp r.ports p
    simp only [Live.port, Ports.map_get]
    rw [PortIO.sound_iff] at this ⊢
    exact ⟨Nat.zero_le _, this.2⟩
  · have := (Live.countsSound_iff v).mp r.counts
    refine (Live.countsSound_iff _).mpr ⟨by simp [Alarms.softReset, Reset.alarms], by simp [Reset.roll], ?_⟩
    simpa [Mgmt.softReset] using this.2.2

/-- A soft restart leaves no candidate SELECTED and no selection. -/
theorem softReset_settled (t : Tables) (v : Live) (c : Cand) : (softReset t v).SettledAt c := by
  refine ⟨fun h => ?_, fun h => by cases h⟩
  cases c <;> exact absurd h (Reset.cand_not_selected _)

theorem State.restart_quiet (s : State) : s.Quiet s.restart := by
  unfold State.restart
  split
  · exact .refl s
  · split
    · have entered := enterRunning_calm s.tables (softReset s.tables s.live)
      exact .of_live s _ ((finish_steady _ _).after (entered.toSteady.after (softReset_steady _ _)))
        fun _ => finish_settled _ fun c => entered.marked (softReset_settled _ _ c).held.1
    · exact .refl s

theorem State.endCommit_quiet (verified : Bool) (s : State) : s.Quiet (s.endCommit verified) := by
  unfold State.endCommit
  split
  · exact .refl s
  · have faulted : s.live.Still { s.live with storeFault := !verified } := .of_gauge rfl
    refine State.Quiet.then_live (t := { s with store := { s.store with image := _, commit := none, lastCommit := _ } })
      (.of_store s _) _ ((finish_steady _ _).after faulted.toSteady) fun h => ?_
    exact finish_settled _ fun c => (faulted.settled (h c)).held.1

/-- The part right after a reset lies within the ranges. -/
theorem State.load_inRange (tables : Tables) (locks : PerTable Lock) (kept : Bool) (last : Option CommitResult)
    (s : State) : (s.load tables locks kept last).live.InRange where
  ts := by rw [show (s.load tables locks kept last).live.ts = Reset.ts from rfl]; decide
  ports := by
    rw [Live.portsSound_iff]
    intro p
    have : (s.load tables locks kept last).live.port p = freshPort (s.live.io.get p) := Ports.map_get _ _ _
    rw [this, PortIO.sound_iff]
    exact ⟨Nat.zero_le _, Nat.zero_le _⟩
  histories := (Live.historiesSound_iff _).mpr ⟨Nat.zero_le _, Nat.zero_le _⟩
  counts := (Live.countsSound_iff _).mpr ⟨rfl, rfl, rfl⟩

theorem State.load_settled (tables : Tables) (locks : PerTable Lock) (kept : Bool) (last : Option CommitResult)
    (s : State) (c : Cand) : (s.load tables locks kept last).live.SettledAt c := by
  refine ⟨fun h => ?_, fun h => by cases h⟩
  cases c <;> exact absurd h (Reset.cand_not_selected _)

/-! ## The commands -/

theorem Live.guard_still (v : Live) (b : Bool) : v.Still { v with guard := b } := .of_gauge rfl

/-- Every command but the hard resets and those that may bring a sample leaves the time scale to the oscillator. -/
theorem exec_quiet (c : Instr) (s : State) (hreset : isHardReset c = false) (hsample : mayBringSample c = false) :
    ∃ t, exec c s = .next t ∧ (s.elapse (periodsBefore c)).Quiet t := by
  cases c with
  | powerOn _ | resetn _ => cases hreset
  | refpPulse _ | throughFrameArrival _ _ _ _ | frameReceiveDiscard _ _ _ _ | epochArrival _ _ _ _
  | spanProbeArrival _ _ _ _ | spanReplyArrival _ _ _ _ | rollArrival _ _ _ _ | configArrival _ _ _ _
  | mgmtRequestArrival _ _ _ _ | mgmtResponseArrival _ _ _ _ => cases hsample
  | loadingEnd _ => exact ⟨_, rfl, State.endLoading_quiet _⟩
  | linkDown _ _ => exact ⟨_, rfl, State.act_quiet _ _ (takeLinkDown_calm _ _ _).quiet⟩
  | linkUp _ _ => exact ⟨_, rfl, State.act_quiet _ _ (takeLinkUp_still _ _).quiet⟩
  | guardChange _ _ => exact ⟨_, rfl, State.act_quiet _ _ (Live.guard_still _ _).quiet⟩
  | reftAnnouncement _ _ => exact ⟨_, rfl, State.act_quiet _ _ (takeAnnouncement_still _ _).quiet⟩
  | missingSecond _ => exact ⟨_, rfl, State.timed_quiet _ _ _ (declareMissing_calm _).quiet⟩
  | qualifyTimeReached _ c =>
    exact ⟨_, rfl, State.timed_quiet _ _ _ ((promote_alters _ c _).quiet fun h => promote_held _ _ h.held)⟩
  | originEntryExpiry _ d _ =>
    exact ⟨_, rfl, State.timed_quiet _ _ _ ((expireOrigin_alters _ d.cand _ _).quiet (expireOrigin_held _ _ _))⟩
  | sensorReading _ _ => exact ⟨_, rfl, State.timed_quiet _ _ _ (takeReading_still _ _ _).quiet⟩
  | holdoverTick _ => exact ⟨_, rfl, State.timed_quiet _ _ _ (holdTick_still _ _).quiet⟩
  | pulseCrossing _ _ => exact ⟨_, rfl, State.timed_quiet _ _ _ (crossPulse_still _ _ _).quiet⟩
  | epochInstantCrossing _ => exact ⟨_, rfl, State.timed_quiet _ _ _ (crossEpoch_still _ _).quiet⟩
  | accessEpochCrossing _ _ => exact ⟨_, rfl, State.timed_quiet _ _ _ (crossAccessEpoch_still _ _ _).quiet⟩
  | probeInterval _ _ => exact ⟨_, rfl, State.timed_quiet _ _ _ (nextInterval_calm _ _ _).quiet⟩
  | replyWaitTimeout _ _ => exact ⟨_, rfl, State.timed_quiet _ _ _ (replyTimedOut_calm _ _ _).quiet⟩
  | takeoverTimeReached _ => exact ⟨_, rfl, State.timed_quiet _ _ _ (takeoverCheck_still _ _).quiet⟩
  | revertWatchGapExpiry _ => exact ⟨_, rfl, State.timed_quiet _ _ _ (Live.epoch_still _ _).quiet⟩
  | revertHoldOffReached _ => exact ⟨_, rfl, State.timed_quiet _ _ _ (revertCheck_still _ _).quiet⟩
  | rollClockTick _ => exact ⟨_, rfl, State.timed_quiet _ _ _ (rollTick_still _ _).quiet⟩
  | rollTimeout _ => exact ⟨_, rfl, State.timed_quiet _ _ _ (rollTimedOut_still _ _).quiet⟩
  | headEntryExpiry _ _ => exact ⟨_, rfl, State.timed_quiet _ _ _ (expireHead_still _ _ _).quiet⟩
  | duplicateFlagExpiry _ => exact ⟨_, rfl, State.timed_quiet _ _ _ (clearDuplicate_still _).quiet⟩
  | restoreTimeReached _ _ => exact ⟨_, rfl, State.timed_quiet _ _ _ (restoreCheck_still _ _ _).quiet⟩
  | soakEnd _ _ => exact ⟨_, rfl, State.timed_quiet _ _ _ (soakCheck_still _ _ _).quiet⟩
  | relayTimeout _ _ => exact ⟨_, rfl, State.timed_quiet _ _ _ (relayCheck_still _ _ _).quiet⟩
  | commitEnd _ _ => exact ⟨_, rfl, State.endCommit_quiet _ _⟩
  | softRestartEffect _ => exact ⟨_, rfl, State.restart_quiet _⟩
  | accessSpanProbe _ _ _ _ => exact ⟨_, rfl, State.receive_access_quiet _ _ _ _⟩
  | transmissionEnd _ _ => exact ⟨_, rfl, State.act_quiet _ _ (takeSent_still _ _).quiet⟩
  | read _ _ _ _ _ =>
    exact ⟨_, rfl, serve_quiet _ _ _ _ (by rw [performRead_state]; exact .refl _)⟩
  | writeNode _ _ _ | writeRing _ _ _ | writePort _ _ _ | writeCandidate _ _ _ | writeServo _ _ _
  | writeThermal _ _ _ | writeQuality _ _ _ | writeAlarmProfile _ _ _ =>
    exact ⟨_, rfl, serve_quiet _ _ _ _ (performWrite_quiet _ _ _ _)⟩
  | clearCounters _ _ => exact ⟨_, rfl, serve_quiet _ _ _ _ (command_quiet _ _ _ (performClearCounters_quiet _))⟩
  | clearHistory _ _ => exact ⟨_, rfl, serve_quiet _ _ _ _ (command_quiet _ _ _ (performClearHistory_quiet _))⟩
  | softRestart _ _ => exact ⟨_, rfl, serve_quiet _ _ _ _ (command_quiet _ _ _ (.refl _))⟩
  | reloadProfile _ _ => exact ⟨_, rfl, serve_quiet _ _ _ _ (command_quiet _ _ _ (performReload_quiet _))⟩
  | commitProfile _ _ => exact ⟨_, rfl, serve_quiet _ _ _ _ (command_quiet _ _ _ (performCommit_quiet _))⟩
  | lockTable _ _ _ _ => exact ⟨_, rfl, serve_quiet _ _ _ _ (lockCommand_quiet _ _ _ _)⟩
  | unlockTable _ _ _ => exact ⟨_, rfl, serve_quiet _ _ _ _ (unlockCommand_quiet _ _ _)⟩
  | select _ _ _ => exact ⟨_, rfl, serve_quiet _ _ _ _ (command_quiet _ _ _ (performSelect_quiet _ _))⟩
  | clearSelect _ _ => exact ⟨_, rfl, serve_quiet _ _ _ _ (command_quiet _ _ _ (performClearSelect_quiet _))⟩

/-- A command that may bring a sample is a REFP pulse or the arrival of a frame. -/
theorem exec_of_mayBringSample {c : Instr} (s : State) (h : mayBringSample c = true) :
    exec c s = .next ((s.elapse (periodsBefore c)).act takePulse) ∨
      ∃ p a f, exec c s = .next ((s.elapse (periodsBefore c)).receive p a f) := by
  cases c with
  | refpPulse _ => exact .inl rfl
  | throughFrameArrival _ _ _ _ | frameReceiveDiscard _ _ _ _ | epochArrival _ _ _ _ | spanProbeArrival _ _ _ _
  | spanReplyArrival _ _ _ _ | rollArrival _ _ _ _ | configArrival _ _ _ _ | mgmtRequestArrival _ _ _ _
  | mgmtResponseArrival _ _ _ _ => exact .inr ⟨_, _, _, rfl⟩
  | _ => cases h

theorem exec_keeps (c : Instr) (s : State) (hreset : isHardReset c = false) :
    ∃ t, exec c s = .next t ∧ s.Keeps t := by
  cases hsample : mayBringSample c with
  | false =>
    obtain ⟨t, ht, hk⟩ := exec_quiet c s hreset hsample
    exact ⟨t, ht, hk.toKeeps.of_elapse⟩
  | true =>
    rcases exec_of_mayBringSample s hsample with h | ⟨p, a, f, h⟩
    · exact ⟨_, h, (State.act_keeps _ _ (takePulse_event _ _)).of_elapse⟩
    · exact ⟨_, h, (State.receive_keeps _ _ _ _).of_elapse⟩

/-- A command that is no hard reset, as one that reached a given state. -/
theorem State.Keeps.of_exec {c : Instr} {s t : State} (h : exec c s = .next t) (hreset : isHardReset c = false) :
    s.Keeps t := by
  obtain ⟨t', ht', hk⟩ := exec_keeps c s hreset
  rw [h] at ht'
  cases ht'
  exact hk

/-- A hard reset loads the part afresh. -/
theorem exec_of_isHardReset {c : Instr} (s : State) (h : isHardReset c = true) :
    ∃ tables locks kept last, exec c s = .next ((s.elapse (periodsBefore c)).load tables locks kept last) := by
  cases c with
  | powerOn _ | resetn _ => exact ⟨_, _, _, _, rfl⟩
  | _ => cases h

/-! ## The statements -/

/-- Settles O2: a hard reset loads the part afresh and leaves the queue; every other command keeps it. -/
theorem everyCommandLeavesTheQueue : Obligations.EveryCommandLeavesTheQueue := by
  unfold Obligations.EveryCommandLeavesTheQueue
  intro c s
  cases hreset : isHardReset c with
  | false =>
    obtain ⟨t, ht, hk⟩ := exec_keeps c s hreset
    exact ⟨t, ht, hk.pending⟩
  | true =>
    obtain ⟨_, _, _, _, h⟩ := exec_of_isHardReset s hreset
    exact ⟨_, h, rfl⟩

theorem keepDown_lockedDown (old new : PerTable Lock) (m : TableName) (h : old.get m = .lockedDown) :
    (keepDown old new).get m = .lockedDown := by
  cases m <;> exact if_pos h

/-- Settles O57: the reset pin keeps what is LOCKED-DOWN, and every other command but POWER_ON keeps all three. -/
theorem tablesStandWhileTheyMust : Obligations.TablesStandWhileTheyMust := by
  unfold Obligations.TablesStandWhileTheyMust
  intro c s t h hpower
  refine ⟨fun m hm => ?_, fun hreset => (State.Keeps.of_exec h hreset).guard,
    fun hreset => (State.Keeps.of_exec h hreset).commit⟩
  cases hreset : isHardReset c with
  | false => exact (State.Keeps.of_exec h hreset).down m hm
  | true =>
    cases c with
    | powerOn n => exact absurd rfl (hpower n)
    | resetn n =>
      cases h
      exact ⟨keepDown_lockedDown _ _ _ hm, reloaded_agreeOn _ _ _ m hm⟩
    | _ => cases hreset

/-- Every command keeps the ranges, and the selection with the candidate it names. -/
theorem exec_sound {c : Instr} {s t : State} (h : exec c s = .next t) :
    (s.live.InRange → t.live.InRange) ∧ ((∀ c, s.live.SettledAt c) → ∀ c, t.live.SettledAt c) := by
  cases hreset : isHardReset c with
  | false =>
    have hk := State.Keeps.of_exec h hreset
    exact ⟨hk.range, hk.settled⟩
  | true =>
    obtain ⟨_, _, _, _, hload⟩ := exec_of_isHardReset s hreset
    rw [h] at hload
    cases hload
    exact ⟨fun _ => State.load_inRange _ _ _ _ _, fun _ => State.load_settled _ _ _ _ _⟩

theorem step_sound {s t : State} (h : step s = .next t) :
    (s.live.InRange → t.live.InRange) ∧ ((∀ c, s.live.SettledAt c) → ∀ c, t.live.SettledAt c) := by
  unfold step at h
  split at h
  · obtain rfl := Host.Outcome.next.inj h
    unfold idle
    split
    · exact ⟨Live.elapse_inRange 1, id⟩
    · exact ⟨id, id⟩
  · next c rest _ => exact exec_sound (s := { s with pending := rest }) h

/-- Settles O58: an idle step lets time pass at most, and every command keeps the ranges and the selection. -/
theorem everyStepKeepsTheRanges : Obligations.EveryStepKeepsTheRanges := by
  unfold Obligations.EveryStepKeepsTheRanges
  refine ⟨fun s t hts hports hhist hcounts h => ?_, fun s t hsel h => ?_⟩
  · have ht := (step_sound h).1 ⟨hts, hports, hhist, hcounts⟩
    exact ⟨ht.ts, ht.ports, ht.histories, ht.counts⟩
  · rw [Live.selectionSound_iff] at hsel ⊢
    exact (step_sound h).2 hsel

/-- Settles O59. -/
theorem resetMeetsTheRanges : Obligations.ResetMeetsTheRanges := by
  unfold Obligations.ResetMeetsTheRanges
  decide

/-- Settles O60: a command that brings no sample is quiet on the state its own periods have reached. -/
theorem timeMovesOnlyBySamples : Obligations.TimeMovesOnlyBySamples := by
  unfold Obligations.TimeMovesOnlyBySamples
  intro c s t h hreset hsample
  obtain ⟨t', ht', hq⟩ := exec_quiet c s hreset hsample
  rw [h] at ht'
  cases ht'
  have hvalue := hq.value
  have hrem := hq.rem
  have hsteps := hq.steps
  rw [State.elapse_live] at hvalue hrem hsteps
  rw [Live.elapse_ts, TimeScale.advance_steps] at hsteps
  exact ⟨hvalue, hrem, hsteps⟩

end Sys2Proof.Machine
end

section
/-! The time scale and the thermal unit by their arithmetic: the units that an advance adds, a step, the bands of F_temp
and the zones (R1 to R6, R52 to R67). -/

namespace Sys2Proof.Machine

/-! ## The time scale in units of 1/125,000,000 ps (R1) -/

/-- The time value with its remainder, in units. -/
def TimeScale.units (x : TimeScale) : Nat := x.value.toPs * unitsPerPs + x.rem

/-- The units that one oscillator period adds. -/
def TimeScale.rate (x : TimeScale) : Nat := (1000000000000 + x.fTotal).toNat

theorem unitsPerPs_pos : 0 < unitsPerPs := by norm_num [unitsPerPs]

theorem TimeScale.advance_rem (n : Nat) (x : TimeScale) :
    (x.advance n).rem = (x.units + n * x.rate) % unitsPerPs := by
  show (x.rem + n * x.rate) % unitsPerPs = _
  rw [TimeScale.units, Nat.add_assoc, Nat.mul_comm x.value.toPs, Nat.mul_add_mod]

/-- Whole picoseconds are carried into the time value. -/
theorem TimeScale.advance_value (n : Nat) (x : TimeScale) :
    (x.advance n).value = TimeValue.ofPs ((x.units + n * x.rate) / unitsPerPs) := by
  show TimeValue.ofPs (x.value.toPs + (x.rem + n * x.rate) / unitsPerPs) = _
  rw [TimeScale.units, Nat.add_assoc, Nat.mul_comm x.value.toPs, Nat.mul_add_div unitsPerPs_pos]

/-- An advance adds its units exactly, modulo 2^40 s. -/
theorem TimeScale.advance_units (n : Nat) (x : TimeScale) :
    (x.advance n).units = (x.units + n * x.rate) % (unitsPerPs * wrapPs) := by
  rw [TimeScale.units, TimeScale.advance_rem, TimeScale.advance_value, TimeValue.toPs_ofPs, Nat.mod_mul,
    Nat.mul_comm, Nat.add_comm]

/-- A time value reads a count of picoseconds modulo 2^40 s only. -/
theorem TimeValue.ofPs_congr {a b : Nat} (h : a % wrapPs = b % wrapPs) : TimeValue.ofPs a = TimeValue.ofPs b :=
  congrArg (fun m : Nat => TimeValue.mk (m / 1000000000000) (m / 1000 % 1000000000) (m % 1000)) h

@[simp] theorem TimeScale.advance_rate (n : Nat) (x : TimeScale) : (x.advance n).rate = x.rate := by
  rw [TimeScale.rate, TimeScale.advance_fTotal, TimeScale.rate]

theorem TimeScale.ext {x y : TimeScale} (hvalue : x.value = y.value) (hrem : x.rem = y.rem) (hsteps : x.steps = y.steps)
    (hf : x.fTotal = y.fTotal) (hk : x.k = y.k) : x = y := by
  cases x
  cases y
  simp_all

/-- Time taken in parts is the time taken whole. -/
theorem TimeScale.advance_advance (m n : Nat) (x : TimeScale) : (x.advance m).advance n = x.advance (m + n) := by
  have hsum : ((x.advance m).units + n * x.rate) % (unitsPerPs * wrapPs) =
      (x.units + (m + n) * x.rate) % (unitsPerPs * wrapPs) := by
    rw [TimeScale.advance_units, Nat.mod_add_mod, Nat.add_mul, Nat.add_assoc]
  have hvalue : ((x.advance m).advance n).value = (x.advance (m + n)).value := by
    rw [TimeScale.advance_value n, TimeScale.advance_value (m + n), TimeScale.advance_rate]
    refine TimeValue.ofPs_congr ?_
    rw [← Nat.mod_mul_right_div_self, hsum, Nat.mod_mul_right_div_self]
  have hrem : ((x.advance m).advance n).rem = (x.advance (m + n)).rem := by
    rw [TimeScale.advance_rem n, TimeScale.advance_rem (m + n), TimeScale.advance_rate,
      ← Nat.mod_mul_right_mod _ unitsPerPs wrapPs, hsum, Nat.mod_mul_right_mod]
  exact TimeScale.ext hvalue hrem (by simp) (by simp) (by simp)

/-- Settles O8: an advance adds its units exactly, and advances compose. -/
theorem advanceIsExact : Obligations.AdvanceIsExact := by
  unfold Obligations.AdvanceIsExact
  intro m n x hf
  refine ⟨TimeScale.advance_value_wf n x, TimeScale.advance_rem_lt n x, ?_, TimeScale.advance_advance m n x⟩
  have hrate : ((x.rate : Nat) : Int) = 1000000000000 + x.fTotal := Int.toNat_of_nonneg hf
  have h := congrArg (fun k : Nat => (k : Int)) (TimeScale.advance_units n x)
  rw [TimeScale.units, TimeScale.units, Nat.mul_comm unitsPerPs wrapPs] at h
  push_cast [hrate] at h
  push_cast
  exact h

/-! ## Steps (R3, R4) -/

theorem wrapPs_pos : (0 : Int) < wrapPs := by norm_num [wrapPs]

/-- The difference of two time values is theirs, modulo 2^40 s. -/
theorem wrapDiff_emod (a b : Int) : wrapDiff a b % (wrapPs : Int) = (a - b) % (wrapPs : Int) := by
  unfold wrapDiff
  dsimp only
  split <;> simp

theorem Live.stepTime_value (t : Tables) (d : Int) (v : Live) : (v.stepTime t d).ts.value = (v.ts.step d).value := rfl

theorem Live.stepTime_toPs (t : Tables) (d : Int) (v : Live) :
    (((v.stepTime t d).ts.value.toPs : Nat) : Int) = (v.ts.value.toPs + d * 1000) % (wrapPs : Nat) := by
  show (((TimeValue.ofPs _).toPs : Nat) : Int) = _
  have hnonneg : 0 ≤ ((v.ts.value.toPs : Int) + d * 1000) % (wrapPs : Int) := Int.emod_nonneg _ wrapPs_pos.ne'
  rw [TimeValue.toPs_ofPs, Int.natCast_mod, Int.toNat_of_nonneg hnonneg, Int.emod_emod]

/-- A shift of one of two congruent numbers is their difference, modulo `w`. -/
theorem sub_sub_emod_eq_zero {w a b x d : Int} (ha : a % w = (x + d) % w) (hb : b % w = x % w) :
    (a - b - d) % w = 0 := by
  have hab : (a - b) % w = d % w := by
    rw [Int.sub_emod, ha, hb, ← Int.sub_emod, add_sub_cancel_left]
  rw [Int.sub_emod, hab, Int.sub_self, Int.zero_emod]

/-- A step moves an interval to this instant by what it moves the difference of the time values beyond itself. -/
theorem Live.interval_stepTime (t : Tables) (d : Int) (v : Live) (a : Stamp) :
    interval a (v.stepTime t d).now - interval a v.now =
      wrapDiff (v.stepTime t d).ts.value.toPs a.time.toPs - wrapDiff v.ts.value.toPs a.time.toPs - d * 1000 := by
  have hsteps : (v.stepTime t d).now.steps = v.now.steps + d * 1000 := rfl
  have hafter : (v.stepTime t d).now.time = (v.stepTime t d).ts.value := rfl
  have hbefore : v.now.time = v.ts.value := rfl
  unfold interval
  rw [hsteps, hafter, hbefore]
  omega

theorem Live.stepTime_steps (t : Tables) (d : Int) (v : Live) :
    (v.stepTime t d).ts.steps = v.ts.steps + d * 1000 := rfl

/-- Four values given by a function of the place. -/
theorem Quad.get_of_each {α : Type} (f : Fin 4 → α) (i : Fin 4) : (Quad.mk (f 0) (f 1) (f 2) (f 3)).get i = f i := by
  fin_cases i <;> rfl

theorem Live.stepTime_k (t : Tables) (d : Int) (v : Live) (i : Fin 4) :
    (v.stepTime t d).ts.k.get i =
      boundaryAbove (t.port.access.get i).advance (v.stepTime t d).ts.value.toPs := by
  rw [Live.stepTime_value]
  exact Quad.get_of_each (fun i => boundaryAbove (t.port.access.get i).advance (v.ts.step d).value.toPs) i

theorem Live.stepTime_j (t : Tables) (d : Int) (v : Live) :
    (v.stepTime t d).epoch.j = epochAbove t.ring.rate (v.stepTime t d).ts.value.toPs := by
  rw [Live.stepTime_value]
  rfl

theorem Live.stepTime_jp (t : Tables) (d : Int) (v : Live) (i : Fin 4) :
    ((v.stepTime t d).access.get i).jp =
      epochAbove (t.port.access.get i).rate (v.stepTime t d).ts.value.toPs := by
  rw [Live.stepTime_value]
  fin_cases i <;> rfl

/-- Settles O9: the instants are set from the new time value, and the step cancels in an interval. -/
theorem stepMovesTimeAndTotalAlike : Obligations.StepMovesTimeAndTotalAlike := by
  unfold Obligations.StepMovesTimeAndTotalAlike
  intro t d v
  refine ⟨Live.stepTime_toPs t d v, Live.stepTime_steps t d v, rfl, rfl, Live.stepTime_k t d v,
    Live.stepTime_j t d v, Live.stepTime_jp t d v, fun a => ?_⟩
  · rw [Live.interval_stepTime]
    refine sub_sub_emod_eq_zero (x := v.ts.value.toPs - a.time.toPs) ?_ (wrapDiff_emod _ _)
    rw [wrapDiff_emod, Live.stepTime_toPs, Int.emod_sub_emod, sub_add_eq_add_sub]

end Sys2Proof.Machine
end

section
/-! The thermal unit, the holdover tick and the servo's samples, entries and losses (R14 to R23, R47 to R69). -/

namespace Sys2Proof.Machine

/-- F_total set again, written out (R2). -/
theorem Live.recomputeF_eq (v : Live) : v.recomputeF =
    { v with ts := { v.ts with fTotal := max (-100000000) (min 100000000 (v.servo.fServo + v.thermal.fTemp)) } } :=
  congrArg (fun f => ({ v with ts := { v.ts with fTotal := f } } : Live)) (clampSym_eq 100000000 _)

/-! ## Zones (R55, R56) -/

/-- Settles O24: each branch of the placing and of the moves under its own thresholds. -/
theorem zoneHoldsItsTemperature : Obligations.ZoneHoldsItsTemperature := by
  unfold Obligations.ZoneHoldsItsTemperature
  intro c x hab hbc hth hlow hhigh
  have placed : (x < 16 * c.ta → placeZone c x = .cold) ∧
      (16 * c.ta ≤ x → x < 16 * c.tb → placeZone c x = .normal) ∧
      (16 * c.tb ≤ x → x < 16 * c.tc → placeZone c x = .warm) ∧ (16 * c.tc ≤ x → placeZone c x = .hot) := by
    refine ⟨fun _ => ?_, fun _ _ => ?_, fun _ _ => ?_, fun _ => ?_⟩ <;>
      simp (disch := omega) only [placeZone, if_pos, if_neg]
  have stays : (x < 16 * (c.ta + c.th) → moveZone c x .cold = .cold) ∧
      (16 * c.ta ≤ x → x < 16 * (c.tb + c.th) → moveZone c x .normal = .normal) ∧
      (16 * c.tb ≤ x → x < 16 * (c.tc + c.th) → moveZone c x .warm = .warm) ∧
      (16 * c.tc ≤ x → moveZone c x .hot = .hot) := by
    refine ⟨fun _ => ?_, fun _ _ => ?_, fun _ _ => ?_, fun _ => ?_⟩ <;>
      simp (disch := omega) only [moveZone, upFromCold, upFromNormal, upFromWarm, if_pos, if_neg]
  have rises : (16 * (c.ta + c.th) ≤ x → x < 16 * (c.tb + c.th) → moveZone c x .cold = .normal) ∧
      (16 * (c.tb + c.th) ≤ x → x < 16 * (c.tc + c.th) →
        moveZone c x .cold = .warm ∧ moveZone c x .normal = .warm) ∧
      (16 * (c.tc + c.th) ≤ x →
        moveZone c x .cold = .hot ∧ moveZone c x .normal = .hot ∧ moveZone c x .warm = .hot) := by
    refine ⟨fun _ _ => ?_, fun _ _ => ⟨?_, ?_⟩, fun _ => ⟨?_, ?_, ?_⟩⟩ <;>
      simp (disch := omega) only [moveZone, upFromCold, upFromNormal, upFromWarm, if_pos, if_neg]
  have falls : (x < 16 * c.ta →
        moveZone c x .normal = .cold ∧ moveZone c x .warm = .cold ∧ moveZone c x .hot = .cold) ∧
      (16 * c.ta ≤ x → x < 16 * c.tb → moveZone c x .warm = .normal ∧ moveZone c x .hot = .normal) ∧
      (16 * c.tb ≤ x → x < 16 * c.tc → moveZone c x .hot = .warm) := by
    refine ⟨fun _ => ⟨?_, ?_, ?_⟩, fun _ _ => ⟨?_, ?_⟩, fun _ _ => ?_⟩ <;>
      simp (disch := omega) only [moveZone, downToWarm, downToNormal, if_pos, if_neg]
  obtain ⟨p1, p2, p3, p4⟩ := placed
  obtain ⟨s1, s2, s3, s4⟩ := stays
  obtain ⟨r1, r2, r3⟩ := rises
  exact ⟨p1, p2, p3, p4, s1, s2, s3, s4, r1, r2, r3, falls⟩

/-! ## The temperature correction (R52, R53) -/

/-- The bands' sum as a sum over their places. -/
theorem gradientSum_eq (a b : Int) : ∀ (gs : List Int) (k : Nat), gradientSum a b k gs =
    ((List.range gs.length).map (fun j => gs.getD j 0 * overlap (k + j) a b)).sum
  | [], _ => rfl
  | g :: gs, k => by
    rw [gradientSum, gradientSum_eq a b gs (k + 1), List.length_cons, List.range_succ_eq_map, List.map_cons,
      List.sum_cons, List.map_map]
    have hshift : (fun j => gs.getD j 0 * overlap (k + 1 + j) a b) =
        (fun j => (g :: gs).getD j 0 * overlap (k + j) a b) ∘ Nat.succ := by
      funext j
      simp [Nat.add_assoc, Nat.add_comm 1 j]
    rw [hshift]
    rfl

/-- A band that the interval does not reach contributes nothing. -/
theorem gradientSum_set {a b : Int} (y : Int) : ∀ (gs : List Int) (k j : Nat), overlap (k + j) a b = 0 →
    gradientSum a b k (gs.set j y) = gradientSum a b k gs
  | [], _, _, _ => rfl
  | g :: gs, k, 0, h => by
    rw [Nat.add_zero] at h
    simp [gradientSum, h]
  | g :: gs, k, j + 1, h => by
    have hrest := gradientSum_set y gs (k + 1) j (by rw [Nat.add_assoc, Nat.add_comm 1 j]; exact h)
    simp [gradientSum, hrest]

/-- What is left of an interval from band `k` on. -/
def coverFrom (a b : Int) (k : Nat) : Int := max 0 (b - max (bandLow k) a)

theorem overlap_add_coverFrom {k : Nat} (h : k < 15) (a b : Int) :
    overlap k a b + coverFrom a b (k + 1) ≤ coverFrom a b k := by
  have hk : k ≠ 15 := by omega
  simp only [overlap, coverFrom, bandLow, bandHigh, if_neg hk]
  omega

theorem overlap_le_coverFrom (k : Nat) (a b : Int) : overlap k a b ≤ coverFrom a b k := by
  simp only [overlap, coverFrom]
  omega

/-- The bands' sum lies within what is left of the interval, times the range of a gradient. -/
theorem gradientSum_bounds (a b : Int) : ∀ (gs : List Int) (k : Nat), k + gs.length ≤ 16 →
    (∀ x ∈ gs, -32768 ≤ x ∧ x ≤ 32767) →
    -32768 * coverFrom a b k ≤ gradientSum a b k gs ∧ gradientSum a b k gs ≤ 32767 * coverFrom a b k
  | [], k, _, _ => by
    have : 0 ≤ coverFrom a b k := le_max_left 0 _
    simp only [gradientSum]
    omega
  | g :: gs, k, hlen, hrange => by
    obtain ⟨hg, hgs⟩ := List.forall_mem_cons.mp hrange
    have ho : 0 ≤ overlap k a b := le_max_left 0 _
    have hlow : -32768 * overlap k a b ≤ g * overlap k a b := Int.mul_le_mul_of_nonneg_right hg.1 ho
    have hhigh : g * overlap k a b ≤ 32767 * overlap k a b := Int.mul_le_mul_of_nonneg_right hg.2 ho
    rw [List.length_cons] at hlen
    rcases Nat.lt_or_ge k 15 with hk | hk
    · obtain ⟨hl, hh⟩ := gradientSum_bounds a b gs (k + 1) (by omega) hgs
      have hcover := overlap_add_coverFrom hk a b
      simp only [gradientSum]
      constructor <;> omega
    · obtain rfl : gs = [] := List.length_eq_zero_iff.mp (by omega)
      have hcover := overlap_le_coverFrom k a b
      simp only [gradientSum]
      constructor <;> omega

theorem fTempOf_above {x : Int} (h : 384 < x) (gs : List Int) :
    fTempOf gs x = Int.tdiv (gradientSum 384 x 0 gs) 16 := if_pos h

theorem fTempOf_below {x : Int} (h : x < 384) (gs : List Int) :
    fTempOf gs x = Int.tdiv (-gradientSum x 384 0 gs) 16 := (if_neg (by omega)).trans (if_pos h)

theorem fTempOf_at (gs : List Int) : fTempOf gs 384 = 0 := by simp [fTempOf]

/-- Division by 16 toward zero keeps bounds that 16 divides. -/
theorem tdiv_sixteen_mem {a b s : Int} (ha : a * 16 ≤ s) (hb : s ≤ b * 16) : a ≤ Int.tdiv s 16 ∧ Int.tdiv s 16 ≤ b := by
  have hl := Int.tdiv_le_tdiv (c := 16) (by decide) ha
  have hh := Int.tdiv_le_tdiv (c := 16) (by decide) hb
  rw [Int.mul_tdiv_cancel _ (by decide)] at hl hh
  exact ⟨hl, hh⟩

/-- Settles O25: F_temp by its two sums, each bounded by its interval. -/
theorem temperatureCorrectionIsBounded : Obligations.TemperatureCorrectionIsBounded := by
  unfold Obligations.TemperatureCorrectionIsBounded
  intro g lo hi hlen hrange hlo hhi
  obtain rfl : lo = bandLow := funext hlo
  obtain rfl : hi = bandHigh := funext hhi
  have hsum : ∀ a b, gradientSum a b 0 g =
      ((List.range 16).map (fun k => g.getD k 0 * overlap k a b)).sum := by
    intro a b
    rw [gradientSum_eq, hlen]
    simp only [Nat.zero_add]
  refine ⟨fun x hx => ?_, fun x hx => ?_, fTempOf_at g, fun x hlow hhigh => ?_, fun k y x hk hx => ?_⟩
  · rw [fTempOf_above hx, hsum]; rfl
  · rw [fTempOf_below hx, hsum]; rfl
  · have hbounds := fun a b => gradientSum_bounds a b g 0 (by omega) hrange
    rcases lt_trichotomy x 384 with hx | rfl | hx
    · obtain ⟨hl, hh⟩ := hbounds x 384
      have hcover : coverFrom x 384 0 ≤ 1024 := by simp only [coverFrom, bandLow]; omega
      rw [fTempOf_below hx]
      exact tdiv_sixteen_mem (by omega) (by omega)
    · rw [fTempOf_at]; omega
    · obtain ⟨hl, hh⟩ := hbounds 384 x
      have hcover : coverFrom 384 x 0 ≤ 1296 := by simp only [coverFrom, bandLow]; omega
      rw [fTempOf_above hx]
      exact tdiv_sixteen_mem (by omega) (by omega)
  · rcases lt_trichotomy x 384 with hlt | rfl | hlt
    · have hover : overlap (0 + k) x 384 = 0 := by
        simp only [overlap, bandLow, bandHigh, Nat.zero_add] at hx ⊢
        split_ifs at hx ⊢ <;> omega
      rw [fTempOf_below hlt, fTempOf_below hlt, gradientSum_set y g 0 k hover]
    · rw [fTempOf_at, fTempOf_at]
    · have hover : overlap (0 + k) 384 x = 0 := by
        simp only [overlap, bandLow, bandHigh, Nat.zero_add] at hx ⊢
        split_ifs at hx ⊢ <;> omega
      rw [fTempOf_above hlt, fTempOf_above hlt, gradientSum_set y g 0 k hover]

/-! ## Readings (R48 to R50) -/

theorem clampInt_reading (raw : Int) : clampInt (-640) 1680 raw = max (-640) (min 1680 raw) := by
  unfold clampInt
  split_ifs <;> omega

theorem judgeReading_good {c : ThermalTable} {raw : Int} (hl : -880 ≤ raw) (hh : raw ≤ 2000) (h : Thermal) :
    judgeReading c (some raw) h = goodReading c raw h := if_pos (by simp [inSensorRange, hl, hh])

theorem judgeReading_outside {c : ThermalTable} {raw : Int} (hr : raw < -880 ∨ 2000 < raw) (h : Thermal) :
    judgeReading c (some raw) h = { h with sensor := .fault, lastRaw := some raw }.noGood := by
  refine if_neg ?_
  simp only [inSensorRange, Bool.and_eq_true, decide_eq_true_eq]
  omega

theorem judgeReading_silent {h : Thermal} (hn : 250000000 ≤ h.next) (c : ThermalTable) :
    judgeReading c none h = { h with sensor := .fault }.noGood :=
  if_neg (Nat.not_lt.mpr hn)

theorem judgeReading_early {h : Thermal} (hn : h.next < 250000000) (c : ThermalTable) :
    judgeReading c none h = h.noGood := if_pos hn

/-- Settles O23: the four outcomes of a reading, with F_total behind them. -/
theorem sensorReadingIsJudged : Obligations.SensorReadingIsJudged := by
  unfold Obligations.SensorReadingIsJudged
  intro n s v answer hv hdue
  have hexec : exec (.sensorReading n answer) s = .next (s.settled (takeReading s.tables answer v)) :=
    congrArg Host.Outcome.next (State.timed_at hv _ (decide_eq_true hdue))
  have hthermal : (s.settled (takeReading s.tables answer v)).live.thermal =
      { judgeReading s.tables.thermal answer v.thermal with next := v.thermal.next + 125000000 } := by
    rw [State.settled_live, finish_thermal]; rfl
  refine ⟨_, hexec, rfl, rfl, rfl, ?_, ?_, ?_, ?_, ?_, ?_, ?_, ?_⟩
  · rw [hthermal]
  · rw [State.settled_live, finish_value]; rfl
  · rw [State.settled_live, finish_steps]; rfl
  · intro raw x hraw hl hh hx
    rw [hthermal, hraw, judgeReading_good hl hh, hx, ← clampInt_reading]; rfl
  · intro raw hraw hr
    rw [hthermal, hraw, judgeReading_outside hr]; rfl
  · intro hnone hn
    rw [hthermal, hnone, judgeReading_silent hn]; rfl
  · intro hnone hn
    rw [hthermal, hnone, judgeReading_early hn]; rfl
  · rw [hexec, hthermal]
    exact congrArg (fun w => Host.Outcome.next (s.settled w)) (Live.recomputeF_eq _)

/-! ## The holdover tick (R58, R67) -/

theorem holdTick_eq (t : Tables) {v : Live} {k : Nat} (hk : v.hold.nextTick = some k) :
    holdTick t v = { v with hold := { v.hold with
      t := min 4294967295 (v.hold.t + 1), d := min maxEstimate (v.hold.d + driftAllowance t v)
      e := estimate v.hold.e0 (min maxEstimate (v.hold.d + driftAllowance t v)) v.hold.aging
        (min 4294967295 (v.hold.t + 1))
      nextTick := some (k + Reset.second) } } := by
  simp only [holdTick, hk, Option.map_some]

/-- Settles O26: the tick written out, and the allowance by sensor and zone. -/
theorem holdoverTickGrowsTheEstimate : Obligations.HoldoverTickGrowsTheEstimate := by
  unfold Obligations.HoldoverTickGrowsTheEstimate
  intro n k t' d' s v hv hk hdue ht hd
  subst ht hd
  refine ⟨?_, fun z hgood hz => ?_, fun hbad => ?_⟩
  · have htick : holdTickDue v = true := by simp [holdTickDue, hk, hdue]
    refine congrArg Host.Outcome.next ((State.timed_at hv holdTick htick).trans ?_)
    rw [holdTick_eq s.tables hk]
    rfl
  · rw [driftAllowance, hgood, hz]
    cases z <;> rfl
  · unfold driftAllowance
    cases hs : v.thermal.sensor
    case good => exact absurd hs hbad
    case starting => rfl
    case fault => rfl

end Sys2Proof.Machine
end

section
/-! The queue of commands, the reset values, the servo's samples and its entries and exits, and the crossings (R6, R10 to
R23, R65 to R69, R105, R106, R157 to R160). -/

namespace Sys2Proof.Machine

/-! ## The queue -/

/-- Settles O1: a step looks at the front of the queue, and an empty queue idles. -/
theorem stepTakesTheFrontCommand : Obligations.StepTakesTheFrontCommand := by
  unfold Obligations.StepTakesTheFrontCommand
  refine ⟨fun c rest s => rfl, fun s hs => ⟨fun hnone => ?_, fun hdue => ?_⟩⟩
  · simp only [step, hs, idle, hnone]
  · unfold step idle
    rw [hs]
    dsimp only
    split
    case h_1 hnone => exact absurd hnone hdue
    case h_2 => rfl

/-! ## The reset values -/

/-- Settles O3: each item is the one the reset records name. -/
theorem resetHoldsTheChaptersValues : Obligations.ResetHoldsTheChaptersValues := by
  unfold Obligations.ResetHoldsTheChaptersValues
  have hspan : ∀ d, State.reset.live.span d = Reset.span := fun d => by cases d <;> rfl
  have haccess : ∀ i, State.reset.live.access.get i = Reset.access := fun i => by fin_cases i <;> rfl
  have hport : ∀ p, State.reset.live.port p = Reset.port false
    | .line d => by cases d <;> rfl
    | .site d => by cases d <;> rfl
    | .access i => by fin_cases i <;> rfl
  refine ⟨rfl, rfl, rfl, rfl, rfl, rfl, fun i => by fin_cases i <;> rfl, rfl, rfl, rfl, rfl, rfl, rfl, rfl, rfl, rfl,
    rfl, rfl, rfl, fun d => ?_, rfl, rfl, fun i => ?_, rfl, rfl, rfl, rfl, fun n => by cases n <;> rfl, rfl, rfl,
    ⟨rfl, rfl, rfl, rfl, rfl, hspan, rfl, rfl, haccess, rfl, rfl, hport⟩, rfl, rfl, fun b => rfl, fun now => rfl, rfl,
    rfl, fun link => rfl, rfl, rfl, rfl, rfl, rfl, rfl⟩
  · rw [hspan]; rfl
  · rw [haccess]; rfl

/-! ## The unlock run (R21, R22) -/

theorem judgeUnlock_below {c : ServoTable} {theta : Int} (h : theta.natAbs ≤ c.unlockThr) (s : Servo) :
    judgeUnlock c theta s = { s with unlockRun := 0, history := appendCapped s.history s.integ } :=
  if_neg (Nat.not_lt.mpr h)

theorem judgeUnlock_counts {c : ServoTable} {theta : Int} {s : Servo} (h : c.unlockThr < theta.natAbs)
    (hr : s.unlockRun + 1 < 3) : judgeUnlock c theta s =
      { s with unlockRun := s.unlockRun + 1, history := appendCapped s.history s.integ } :=
  (if_pos h).trans (if_neg (Nat.not_le.mpr hr))

theorem judgeUnlock_unlocks {c : ServoTable} {theta : Int} {s : Servo} (h : c.unlockThr < theta.natAbs)
    (hr : 3 ≤ s.unlockRun + 1) :
    judgeUnlock c theta s = { s with state := .acquire, phaseUnstable := true }.clearRuns :=
  (if_pos h).trans (if_pos hr)

theorem appendCapped_eq {α : Type} (l : List α) (x : α) :
    appendCapped l x = (if l.length < 64 then l else l.drop 1) ++ [x] := by
  unfold appendCapped
  split <;> rfl

/-- In LOCKED the runs are judged toward unlock (R21). -/
theorem steeredServo_of_locked {t : Tables} {v : Live} (hs : v.servo.state = .locked) :
    steeredServo t v = { judgeUnlock t.servo (filteredOffset v.servo) (v.servo.steered t.servo (updateError t v)) with
      lastTheta := filteredOffset v.servo }.closeWindow := by
  have hjudged : (v.servo.steered t.servo (updateError t v)).judged t.servo (filteredOffset v.servo) =
      judgeUnlock t.servo (filteredOffset v.servo) (v.servo.steered t.servo (updateError t v)) := by
    simp only [Servo.judged, Servo.steered_state, hs]
  rw [steeredServo, hjudged]

/-- Settles O14: in LOCKED an update that is taken steers, and its runs are judged toward unlock. -/
theorem unlockRunReturnsToAcquire : Obligations.UnlockRunReturnsToAcquire := by
  unfold Obligations.UnlockRunReturnsToAcquire
  intro t v theta iNew hs hk htheta hi
  subst htheta
  have hsteer : ¬ updateSteps t.servo v.servo := fun h => by simp [updateSteps, hs] at h
  rw [servoUpdate_of_steers hk hsteer, Live.recomputeF_servo] at hi ⊢
  rw [(steeredServo_steering t v).1] at hi
  rw [steeredServo_of_locked hs]
  refine ⟨fun hbelow => ?_, fun habove hrun => ?_, fun habove hrun => ?_⟩
  · rw [judgeUnlock_below hbelow]
    exact ⟨rfl, hs, by rw [hi]; exact appendCapped_eq _ _⟩
  · rw [judgeUnlock_counts (s := v.servo.steered _ _) habove hrun]
    exact ⟨rfl, hs, by rw [hi]; exact appendCapped_eq _ _⟩
  · rw [judgeUnlock_unlocks (s := v.servo.steered _ _) habove hrun]
    exact ⟨rfl, rfl, rfl, rfl, rfl, rfl, hi⟩

/-! ## Samples (R14 to R16) -/

theorem queueSample_joins {t : Tables} {x : Sample} {v : Live} (h : v.servo.queue.length + 1 < t.servo.n) :
    queueSample t x v = { v with servo := { v.servo with queue := v.servo.queue ++ [x] } } := by
  refine if_neg ?_
  rw [List.length_append, List.length_singleton]
  omega

theorem queueSample_completes {t : Tables} {x : Sample} {v : Live} (h : t.servo.n ≤ v.servo.queue.length + 1) :
    queueSample t x v = servoUpdate t { v with servo := { v.servo with queue := v.servo.queue ++ [x] } } := by
  refine if_pos ?_
  rw [List.length_append, List.length_singleton]
  exact h

theorem servoSample_coarse {t : Tables} {theta : Int} {v : Live} (hs : v.servo.state = .acquire)
    (h : 1000000000 ≤ theta.natAbs) : servoSample t theta v = Live.stepTime t (-theta)
      { v with servo := { v.servo with queue := [], lockRun := 0, phaseSteps := bump v.servo.phaseSteps } } := by
  simp only [servoSample, hs, coarseNs, if_pos h]

theorem servoSample_acquire {t : Tables} {theta : Int} {v : Live} (hs : v.servo.state = .acquire)
    (h : theta.natAbs < 1000000000) : servoSample t theta v = queueSample t { theta := theta, accept := true } v := by
  simp only [servoSample, hs, coarseNs, if_neg (Nat.not_le.mpr h)]

theorem lockedAccepts_iff (c : ServoTable) (s : Servo) (theta : Int) : lockedAccepts c s theta = true ↔
    theta.natAbs < 1000000000 ∧ (s.ungated = true ∨ (theta - s.lastTheta).natAbs ≤ c.gate) := by
  rw [lockedAccepts, Bool.and_eq_true, Bool.or_eq_true, decide_eq_true_iff, decide_eq_true_iff]
  exact Iff.rfl

theorem servoSample_locked_accepted {t : Tables} {theta : Int} {v : Live} (hs : v.servo.state = .locked)
    (h : lockedAccepts t.servo v.servo theta = true) :
    servoSample t theta v = queueSample t { theta := theta, accept := true } v := by
  simp only [servoSample, hs, h, if_true]

theorem servoSample_locked_rejected {t : Tables} {theta : Int} {v : Live} (hs : v.servo.state = .locked)
    (h : lockedAccepts t.servo v.servo theta = false) : servoSample t theta v =
      queueSample t { theta := theta, accept := false }
        { v with servo := { v.servo with gated := bump v.servo.gated } } := by
  simp only [servoSample, hs, h]
  rfl

/-- Every update closes its window. -/
theorem servoUpdate_closes (t : Tables) (v : Live) :
    (servoUpdate t v).servo.queue = [] ∧ (servoUpdate t v).servo.ungated = false := by
  by_cases hk : updateSkipped t.servo v.servo = true
  · obtain ⟨_, _, _, _, hqueue, hungated, _⟩ := skipUpdate_keeps v.servo
    rw [servoUpdate_of_skipped hk]
    exact ⟨hqueue, hungated⟩
  · rw [Bool.not_eq_true] at hk
    by_cases hs : updateSteps t.servo v.servo
    · rw [servoUpdate_of_steps hk hs]; exact ⟨rfl, rfl⟩
    · rw [servoUpdate_of_steers hk hs]; exact ⟨rfl, rfl⟩

/-- Settles O16: a sample is a coarse set, an accepted entry or a rejected one, and the queue's length says the rest. -/
theorem samplesAreTakenByState : Obligations.SamplesAreTakenByState := by
  unfold Obligations.SamplesAreTakenByState
  intro t v joined refused theta hjoined hrefused
  subst hjoined hrefused
  refine ⟨servoSample_coarse, fun hacc => ?_, fun ⟨hs, hrej⟩ => ?_, (servoUpdate_closes t v).1,
    (servoUpdate_closes t v).2, fun hs => ?_⟩
  · have hsample : servoSample t theta v = queueSample t { theta := theta, accept := true } v := by
      rcases hacc with ⟨hs, hsmall⟩ | ⟨hs, hok⟩
      · exact servoSample_acquire hs hsmall
      · exact servoSample_locked_accepted hs ((lockedAccepts_iff _ _ _).mpr hok)
    rw [hsample]
    exact ⟨queueSample_joins, queueSample_completes⟩
  · have hno : lockedAccepts t.servo v.servo theta = false := by
      rw [Bool.eq_false_iff, Ne, lockedAccepts_iff]
      rintro ⟨hsmall, hgate⟩
      rcases hrej with hlarge | ⟨hgated, hbeyond⟩
      · omega
      · rcases hgate with hungated | hwithin
        · simp [hgated] at hungated
        · omega
    rw [servoSample_locked_rejected hs hno]
    exact ⟨fun h => queueSample_joins (v := { v with servo := { v.servo with gated := _ } }) h,
      fun h => queueSample_completes (v := { v with servo := { v.servo with gated := _ } }) h⟩
  · rcases hs with hs | hs <;> simp only [servoSample, hs]

/-! ## Entries and losses (R10, R11, R23, R65, R69) -/

theorem loseSelection_holds {t : Tables} {v : Live} (h : 16 ≤ v.servo.history.length) : loseSelection t v =
    (startStay t { v with
      servo := { v.servo.fresh with state := .holdover, fServo := historyMean t.servo v.servo.history }
      hold := { v.hold with fHold := some (historyMean t.servo v.servo.history) } }).recomputeF := if_pos h

theorem loseSelection_frees {t : Tables} {v : Live} (h : v.servo.history.length < 16) : loseSelection t v =
    ({ v with servo := { v.servo.fresh with state := .freerun, fServo := v.servo.integ } } : Live).recomputeF :=
  if_neg (Nat.not_le.mpr h)

theorem enterAcquire_from_holdover {t : Tables} {v : Live} (hs : v.servo.state = .holdover) : enterAcquire t v =
    ({ v with
        servo := { v.servo.fresh with
          state := .acquire, integ := clampSym t.servo.limit (v.hold.fHold.getD 0)
          fServo := clampSym t.servo.limit (v.hold.fHold.getD 0) }
        hold := { v.hold with nextTick := none } } : Live).recomputeF := by
  simp only [enterAcquire, hs]

theorem enterAcquire_otherwise {t : Tables} {v : Live} (hs : v.servo.state ≠ .holdover) :
    enterAcquire t v = { v with servo := { v.servo.fresh with state := .acquire } } := by
  unfold enterAcquire
  dsimp only
  split
  case h_1 h => exact absurd h hs
  case h_2 => rfl

/-- Settles O17: the loss by the length of the history, the entry by the servo's state, the rearm by its two cases. -/
theorem lossEntersHoldoverOrFreerun : Obligations.LossEntersHoldoverOrFreerun := by
  unfold Obligations.LossEntersHoldoverOrFreerun
  intro t v
  refine ⟨fun w hw => ?_, fun w f hw => ?_, fun hs => ?_, fun hs => ?_⟩
  · subst hw
    rcases Nat.lt_or_ge v.servo.history.length 16 with h | h
    · rw [loseSelection_frees h, Live.recomputeF_eq]
      exact ⟨rfl, rfl, rfl, rfl, rfl, rfl, rfl, rfl, rfl, rfl, rfl, rfl, rfl,
        fun h' => absurd h (Nat.not_lt.mpr h'), fun _ => ⟨rfl, rfl, rfl⟩⟩
    · rw [loseSelection_holds h, Live.recomputeF_eq]
      exact ⟨rfl, rfl, rfl, rfl, rfl, rfl, rfl, rfl, rfl, rfl, rfl, rfl, rfl,
        fun _ => ⟨rfl, clampSym_eq _ _, rfl, rfl, rfl, rfl, rfl, rfl, rfl⟩, fun h' => absurd h (Nat.not_le.mpr h')⟩
  · subst hw
    by_cases hs : v.servo.state = .holdover
    · rw [enterAcquire_from_holdover hs, Live.recomputeF_eq]
      refine ⟨rfl, rfl, rfl, rfl, rfl, rfl, rfl, rfl, rfl, rfl, rfl, rfl, rfl, rfl, fun h => by simp [hs] at h,
        fun _ hf => ⟨?_, rfl, rfl, rfl⟩⟩
      show clampSym t.servo.limit (v.hold.fHold.getD 0) = _
      rw [hf]
      exact clampSym_eq _ _
    · rw [enterAcquire_otherwise hs]
      exact ⟨rfl, rfl, rfl, rfl, rfl, rfl, rfl, rfl, rfl, rfl, rfl, rfl, rfl, rfl, fun _ => ⟨rfl, rfl, rfl, rfl⟩,
        fun h => absurd h hs⟩
  · simp only [rearm, hs, Servo.clearRuns]
  · simp only [rearm, hs]

/-! ## The crossings at an access port (R6, R157 to R160) -/

theorem drivesPulses_iff (c : AccessCfg) (st : AccessState) : drivesPulses c st = true ↔
    (c.mode = .pulse ∨ c.mode = .both) ∧ (st = .deliver ∨ st = .degraded ∧ c.loss = .continue) := by
  simp [drivesPulses]

theorem sendsEpochs_iff (c : AccessCfg) (st : AccessState) : sendsEpochs c st = true ↔
    (c.mode = .frames ∨ c.mode = .both) ∧ (st = .deliver ∨ st = .degraded) := by
  simp [sendsEpochs]

/-- A pulse crossing written out. -/
theorem crossPulse_eq (t : Tables) (i : Fin 4) (v : Live) : crossPulse t i v =
    { v with
      access := if drivesPulses (t.port.access.get i) (v.access.get i).state
        then v.access.set i { v.access.get i with lastPulse := some (v.ts.k.get i) } else v.access
      ts := { v.ts with k := v.ts.k.set i ((v.ts.k.get i + 1) % 1099511627776) } } := by
  unfold crossPulse
  dsimp only
  split <;> rfl

/-- Settles O10: the states that drive and form, the EPOCH formed, and the two crossings. -/
theorem crossingsAtAnAccessPort : Obligations.CrossingsAtAnAccessPort := by
  unfold Obligations.CrossingsAtAnAccessPort
  intro n i s v cfg a cls hv hcfg ha hcls
  subst hcfg ha hcls
  refine ⟨drivesPulses_iff _ _, sendsEpochs_iff _ _, rfl, fun hdue => ?_, fun hrun hdue => ?_⟩
  · refine congrArg Host.Outcome.next ((State.timed_at hv _ hdue).trans ?_)
    rw [crossPulse_eq]
  · have hcross : accessEpochDue i v = true := by
      rw [accessEpochDue, hdue, hv, Live.elapse_part, hrun]; rfl
    exact congrArg Host.Outcome.next (State.timed_at hv (fun t v => crossAccessEpoch t i v) hcross)

/-! ## The epoch instant (R105, R106) -/

theorem originateOn_down {t : Tables} {d : Side} {v : Live} (seq : Seq16) (h : (v.span d).state = .down) :
    originateOn t d seq v = v := if_pos ((Live.spanIs_iff v d .down).mpr h)

theorem originRole_rank (t : Tables) : (originRole t).rank.getD 0 = if originRole t = .standby then 1 else 0 := by
  cases originRole t <;> rfl

theorem Side.outRev_eq (d : Side) : d.outRev = decide (d = .west) := by cases d <;> rfl

theorem originateOn_open {t : Tables} {d : Side} {v : Live} (seq : Seq16) (h : (v.span d).state ≠ .down) :
    originateOn t d seq v = hand (.line d)
      (mkFrame t
        { ring := t.node.ringId, rev := decide (d = .west), looped := false, origin := t.node.id,
          sender := t.node.id, target := 255, hops := 0, seq := seq }
        (.epoch { time := ⟨v.ts.value.sec, v.ts.value.ns⟩, corr := 0, cls := v.ownClass
                  rank := if originRole t = .standby then 1 else 0 }) .origEpoch) v := by
  have hopen : ¬ v.spanIs d .down = true := fun hd => h ((Live.spanIs_iff v d .down).mp hd)
  rw [← Side.outRev_eq, ← originRole_rank]
  exact if_neg hopen

@[simp] theorem originateOn_epoch (t : Tables) (d : Side) (seq : Seq16) (v : Live) :
    (originateOn t d seq v).epoch = v.epoch := by
  unfold originateOn
  split
  · rfl
  · exact hand_epoch _ _ _

/-- Settles O11: an origination by span state, and J moved on after it. -/
theorem epochInstantMovesOn : Obligations.EpochInstantMovesOn := by
  unfold Obligations.EpochInstantMovesOn
  refine ⟨fun t d seq v => ⟨originateOn_down seq, originateOn_open seq⟩, fun n s v hv hrun hreached => ?_⟩
  have hdue : epochDue v = true := by
    rw [epochDue, hreached, hv, Live.elapse_part, hrun]; rfl
  refine ⟨s.settled (crossEpoch s.tables v), congrArg Host.Outcome.next (State.timed_at hv crossEpoch hdue), rfl, rfl,
    ?_, ?_, rfl⟩
  · rw [State.settled_live, finish_j]; rfl
  · rw [State.settled_live, finish_origSeq]
    unfold crossEpoch
    dsimp only
    split
    · simp [originate]
    · rfl

end Sys2Proof.Machine
end

section
/-! The selector: what an evaluation does (R41 to R46), and what becomes of a candidate's record in all that follows from
an event. -/

namespace Sys2Proof.Machine

/-! ## Keys (R42) -/

theorem keyBetter_four (a b c d a' b' c' d' : Nat) : keyBetter [a, b, c, d] [a', b', c', d'] = true ↔
    a < a' ∨ a = a' ∧ (b < b' ∨ b = b' ∧ (c < c' ∨ c = c' ∧ d < d')) := by
  simp only [keyBetter, Bool.or_eq_true, Bool.and_eq_true, decide_eq_true_eq, Bool.and_false, Bool.or_false]

/-- Whether a candidate's key beats another's. -/
def Beats (t : Tables) (v : Live) (c e : Cand) : Prop := keyBetter (selectionKey t v c) (selectionKey t v e) = true

theorem Cand.order_inj {c e : Cand} (h : Cand.order c = Cand.order e) : c = e := by
  cases c <;> cases e <;> first | rfl | cases h

theorem Beats.trans {t : Tables} {v : Live} {a b c : Cand} (h : Beats t v a b) (k : Beats t v b c) : Beats t v a c := by
  simp only [Beats, selectionKey, keyBetter_four] at *
  omega

/-- Of two candidates one beats the other, by the fixed order at the last. -/
theorem Beats.total {t : Tables} {v : Live} {a b : Cand} (hne : a ≠ b) (h : ¬ Beats t v b a) : Beats t v a b := by
  have horder : Cand.order a ≠ Cand.order b := fun e => hne (Cand.order_inj e)
  simp only [Beats, selectionKey, keyBetter_four] at *
  omega

/-- The better of two candidates beats the other one. -/
theorem betterOf_beats {t : Tables} {v : Live} {a b : Option Cand} {c e : Cand} (h : betterOf t v a b = some c)
    (he : a = some e ∨ b = some e) (hne : e ≠ c) : Beats t v c e := by
  cases a with
  | none =>
    cases b with
    | none => simp at he
    | some y =>
      obtain rfl : y = c := Option.some.inj h
      simp at he
      exact absurd he.symm hne
  | some x =>
    cases b with
    | none =>
      obtain rfl : x = c := Option.some.inj h
      simp at he
      exact absurd he.symm hne
    | some y =>
      simp only [betterOf] at h
      simp only [Option.some.injEq] at he
      split at h
      case isTrue hbetter =>
        obtain rfl := Option.some.inj h
        rcases he with rfl | rfl
        · exact hbetter
        · exact absurd rfl hne
      case isFalse hworse =>
        obtain rfl := Option.some.inj h
        rcases he with rfl | rfl
        · exact absurd rfl hne
        · exact Beats.total hne.symm hworse

theorem betterOf_eq_none {t : Tables} {v : Live} {a b : Option Cand} (h : betterOf t v a b = none) :
    a = none ∧ b = none := by
  cases a with
  | none => cases b <;> simp_all [betterOf]
  | some x =>
    cases b with
    | none => cases h
    | some y =>
      simp only [betterOf] at h
      split at h <;> cases h

/-- The best candidate beats every other eligible one (R42). -/
theorem bestEligible_beats {t : Tables} {v : Live} {c e : Cand} (h : bestEligible t v = some c)
    (he : eligible v e = true) (hne : e ≠ c) : Beats t v c e := by
  unfold bestEligible at h
  have first {x : Cand} (hx : (if eligible v .ref then some .ref else none) = some x ∨
      (if eligible v .fwd then some .fwd else none) = some x) (hxc : x ≠ c) : Beats t v c x := by
    obtain ⟨m, hm⟩ : ∃ m, betterOf t v (if eligible v .ref then some .ref else none)
        (if eligible v .fwd then some .fwd else none) = some m := by
      cases hm : betterOf t v (if eligible v .ref then some .ref else none)
          (if eligible v .fwd then some .fwd else none) with
      | some m => exact ⟨m, rfl⟩
      | none =>
        obtain ⟨h1, h2⟩ := betterOf_eq_none hm
        rw [h1, h2] at hx
        rcases hx with hx | hx <;> cases hx
    by_cases hmc : m = c
    · subst hmc
      exact betterOf_beats hm hx hxc
    · have hcm := betterOf_beats h (.inl hm) hmc
      by_cases hxm : x = m
      · rw [hxm]; exact hcm
      · exact hcm.trans (betterOf_beats hm hx hxm)
  cases e with
  | ref => exact first (.inl (if_pos he)) hne
  | fwd => exact first (.inr (if_pos he)) hne
  | rev => exact betterOf_beats h (.inr (if_pos he)) hne

/-- None is chosen only where none is eligible. -/
theorem bestEligible_eq_none {t : Tables} {v : Live} (h : bestEligible t v = none) (e : Cand) :
    eligible v e = false := by
  obtain ⟨hpair, hrev⟩ := betterOf_eq_none h
  obtain ⟨href, hfwd⟩ := betterOf_eq_none hpair
  have pick {x : Cand} (hx : (if eligible v x then some x else none) = none) : eligible v x = false := by
    by_contra hne
    rw [Bool.not_eq_false] at hne
    rw [if_pos hne] at hx
    cases hx
  cases e
  · exact pick href
  · exact pick hfwd
  · exact pick hrev

theorem eligible_iff (v : Live) (c : Cand) : eligible v c = true ↔
    ((v.cands.get c).state = .available ∨ (v.cands.get c).state = .selected) ∧
      (v.servo.state = .holdover → (v.cands.get c).offered.num ≤ v.ownClass.num) := by
  rw [← CandRec.isAvailable_iff]
  unfold eligible
  rw [Bool.and_eq_true, Bool.or_eq_true, decide_eq_true_iff, decide_eq_true_iff, imp_iff_not_or]

/-! ## The evaluation (R43, R45, R46) -/

theorem cancelManual_eq (v : Live) : ∃ m, cancelManual v = { v with manual := m } := by
  unfold cancelManual
  split
  · split
    · exact ⟨_, rfl⟩
    · exact ⟨_, rfl⟩
  · exact ⟨_, rfl⟩

@[simp] theorem cancelManual_cands (v : Live) : (cancelManual v).cands = v.cands := (cancelManual_still v).cands

@[simp] theorem cancelManual_selection (v : Live) : (cancelManual v).selection = v.selection :=
  (cancelManual_still v).selection

theorem evaluate_same {t : Tables} {v : Live} (h : target t (cancelManual v) = v.selection) :
    evaluate t v = cancelManual v := if_pos (h.trans (cancelManual_selection v).symm)

theorem evaluate_changes {t : Tables} {v : Live} (h : target t (cancelManual v) ≠ v.selection) :
    evaluate t v = handSelection t v.selection (target t (cancelManual v))
      (enterSelected (target t (cancelManual v)) (leaveSelected v.selection (cancelManual v))) := by
  have h' : ¬ target t (cancelManual v) = (cancelManual v).selection := by rwa [cancelManual_selection]
  unfold evaluate
  dsimp only
  rw [if_neg h', cancelManual_selection]

/-- A change of selection rewrites the candidates, the selection and, at most, the manual selection, before it is handed
to the servo. -/
theorem reselected_eq (o n : Option Cand) (v : Live) : ∃ m k,
    enterSelected n (leaveSelected o (cancelManual v)) = { v with manual := m, cands := k, selection := n } := by
  obtain ⟨m, hm⟩ := cancelManual_eq v
  rw [hm]
  cases o <;> cases n <;> exact ⟨_, _, rfl⟩

theorem evaluate_selection (t : Tables) (v : Live) : (evaluate t v).selection = target t (cancelManual v) := by
  by_cases h : target t (cancelManual v) = v.selection
  · rw [evaluate_same h, cancelManual_selection, h]
  · obtain ⟨m, k, hmk⟩ := reselected_eq v.selection (target t (cancelManual v)) v
    rw [evaluate_changes h, (handSelection_still _ _ _ _).selection, hmk]

theorem handSelection_manual (t : Tables) (o n : Option Cand) (v : Live) :
    (handSelection t o n v).manual = v.manual := by
  cases o <;> cases n
  · rfl
  · simp only [handSelection]
    by_cases hs : v.servo.state = .holdover
    · rw [enterAcquire_from_holdover hs]; rfl
    · rw [enterAcquire_otherwise hs]
  · simp only [handSelection]
    rcases Nat.lt_or_ge v.servo.history.length 16 with h | h
    · rw [loseSelection_frees h]; rfl
    · rw [loseSelection_holds h]; rfl
  · simp only [handSelection, rearm]
    split <;> rfl

theorem leaveSelected_manual (o : Option Cand) (v : Live) : (leaveSelected o v).manual = v.manual := by
  cases o <;> rfl

theorem enterSelected_manual (n : Option Cand) (v : Live) : (enterSelected n v).manual = v.manual := by
  cases n <;> rfl

theorem evaluate_manual (t : Tables) (v : Live) : (evaluate t v).manual = (cancelManual v).manual := by
  by_cases h : target t (cancelManual v) = v.selection
  · rw [evaluate_same h]
  · rw [evaluate_changes h, handSelection_manual, enterSelected_manual, leaveSelected_manual]

/-- The servo's entry to ACQUIRE reads neither the candidates nor the selection. -/
theorem enterAcquire_reads (t : Tables) (v : Live) (m : Option Cand) (k : Trio CandRec) (n : Option Cand) :
    (enterAcquire t { v with manual := m, cands := k, selection := n }).servo = (enterAcquire t v).servo ∧
    (enterAcquire t { v with manual := m, cands := k, selection := n }).hold = (enterAcquire t v).hold ∧
    (enterAcquire t { v with manual := m, cands := k, selection := n }).ts = (enterAcquire t v).ts := by
  by_cases hs : v.servo.state = .holdover
  · rw [enterAcquire_from_holdover hs, enterAcquire_from_holdover (v := { v with manual := m, cands := k, selection := n }) hs]
    exact ⟨rfl, rfl, rfl⟩
  · rw [enterAcquire_otherwise hs, enterAcquire_otherwise (v := { v with manual := m, cands := k, selection := n }) hs]
    exact ⟨rfl, rfl, rfl⟩

/-- The loss of the selection reads neither the candidates nor the selection. -/
theorem loseSelection_reads (t : Tables) (v : Live) (m : Option Cand) (k : Trio CandRec) (n : Option Cand) :
    (loseSelection t { v with manual := m, cands := k, selection := n }).servo = (loseSelection t v).servo ∧
    (loseSelection t { v with manual := m, cands := k, selection := n }).hold = (loseSelection t v).hold ∧
    (loseSelection t { v with manual := m, cands := k, selection := n }).ts = (loseSelection t v).ts := by
  rcases Nat.lt_or_ge v.servo.history.length 16 with h | h
  · rw [loseSelection_frees h, loseSelection_frees (v := { v with manual := m, cands := k, selection := n }) h]
    exact ⟨rfl, rfl, rfl⟩
  · rw [loseSelection_holds h, loseSelection_holds (v := { v with manual := m, cands := k, selection := n }) h]
    exact ⟨rfl, rfl, rfl⟩

/-- A rearm reads neither the candidates nor the selection, and leaves the stay and the time scale. -/
theorem rearm_reads (v : Live) (m : Option Cand) (k : Trio CandRec) (n : Option Cand) :
    (rearm { v with manual := m, cands := k, selection := n }).servo = (rearm v).servo ∧
    (rearm { v with manual := m, cands := k, selection := n }).hold = v.hold ∧
    (rearm { v with manual := m, cands := k, selection := n }).ts = v.ts := by
  unfold rearm
  dsimp only
  split <;> exact ⟨rfl, rfl, rfl⟩

/-- The candidate that becomes SELECTED. -/
theorem enterSelected_get_same (c : Cand) (v : Live) :
    (enterSelected (some c) v).cands.get c = { v.cands.get c with state := .selected } := Trio.get_set_same _ _ _

theorem enterSelected_get_other {n : Option Cand} {c : Cand} (h : n ≠ some c) (v : Live) :
    (enterSelected n v).cands.get c = v.cands.get c := by
  cases n with
  | none => rfl
  | some e => exact Trio.get_set_other _ (fun he => h (by rw [he])) _

theorem leaveSelected_get_same (c : Cand) (v : Live) : (leaveSelected (some c) v).cands.get c =
    if (v.cands.get c).state = .selected then { v.cands.get c with state := .available } else v.cands.get c :=
  Trio.get_set_same _ _ _

theorem leaveSelected_get_other {o : Option Cand} {c : Cand} (h : o ≠ some c) (v : Live) :
    (leaveSelected o v).cands.get c = v.cands.get c := by
  cases o with
  | none => rfl
  | some e => exact Trio.get_set_other _ (fun he => h (by rw [he])) _

/-- The candidates after an evaluation that changes the selection. -/
theorem evaluate_cands {t : Tables} {v : Live} (h : target t (cancelManual v) ≠ v.selection) :
    (evaluate t v).cands =
      (enterSelected (target t (cancelManual v)) (leaveSelected v.selection (cancelManual v))).cands := by
  rw [evaluate_changes h, (handSelection_still _ _ _ _).cands]

/-- Settles O18: the choice by keys, and the change of selection as its three steps. -/
theorem bestKeyIsChosen : Obligations.BestKeyIsChosen := by
  unfold Obligations.BestKeyIsChosen
  intro t v
  refine ⟨eligible_iff v, rfl, fun d k hk => ?_, keyBetter_four, fun hm => ⟨fun c hc => ?_, fun hn => ?_⟩,
    fun c hm => ⟨fun ha => ?_, fun ha => ?_⟩, fun x w new hx hnew hw => ?_⟩
  · cases d <;> simp only [Side.cand] at hk ⊢ <;> simp [selectionKey, hk, Cand.order]
  · simp only [target, hm] at hc
    exact ⟨bestEligible_eligible hc, fun e he hne => bestEligible_beats hc he hne⟩
  · simp only [target, hm] at hn
    exact bestEligible_eq_none hn
  · simp only [target, hm, cancelManual, if_pos ha, and_self]
  · simp only [cancelManual, hm]
    rw [if_neg (by rw [ha]; exact Bool.false_ne_true)]
  · subst hx hw
    subst hnew
    refine ⟨evaluate_selection t v, evaluate_manual t v, evaluate_same, fun hne => ?_⟩
    rw [evaluate_cands hne]
    refine ⟨fun c hc => ?_, fun c hc hs => ?_, fun c ho hn => ?_, fun c hc hv => ?_, fun c e hc hv => ?_,
      fun e hc hv => ?_⟩
    · rw [hc, enterSelected_get_same]
    · rw [enterSelected_get_other (fun h => hne (h.trans hc.symm)), hc, leaveSelected_get_same, cancelManual_cands,
        if_pos hs]
    · rw [enterSelected_get_other hn, leaveSelected_get_other ho, cancelManual_cands]
    all_goals
      obtain ⟨m, k, hmk⟩ := reselected_eq v.selection (target t (cancelManual v)) v
      rw [evaluate_changes hne, hmk, hc, hv]
    · exact enterAcquire_reads t v m k (some c)
    · exact rearm_reads v m k (some c)
    · exact loseSelection_reads t v m k none

end Sys2Proof.Machine
end

section
/-! What follows from an event as one rule, what becomes of a candidate's record in it, and the REF input (R29 to R36,
R44). -/

namespace Sys2Proof.Machine

/-! ## The rule of what follows -/

/-- What follows from an event keeps whatever an evaluation brings about and the other consequences keep: `P` holds of
the blocks before each evaluation, `Q` after it. -/
theorem finish_rule {t : Tables} {P Q : Live → Prop} (hevaluate : ∀ v, P v → Q (evaluate t v))
    (hclass : ∀ c v, Q v → Q (setClass t c v)) (hrefresh : ∀ v, Q v → Q (refreshAlarms t v))
    (htakeover : ∀ v, Q v → Q (takeoverCheck t v))
    (hloss : ∀ l ls v, Q v → P (takeLoss t l { v with losses := ls })) (hPQ : ∀ v, Q v → P v) {v : Live} (h : P v) :
    Q (finish t v) := by
  have hselect : ∀ n v, P v → Q (settleSelection t (n + 1) v) := by
    intro n
    induction n with
    | zero =>
      intro v h
      rw [settleSelection]
      split
      · exact hrefresh _ (hevaluate v h)
      · exact hclass _ _ (hevaluate v h)
    | succ n ih =>
      intro v h
      rw [settleSelection]
      split
      · exact hrefresh _ (hevaluate v h)
      · exact ih _ (hPQ _ (hclass _ _ (hevaluate v h)))
  have hsettle : ∀ v, P v → Q (settle t v) := fun v h => hrefresh _ (htakeover _ (hselect 3 v h))
  have hwork : ∀ n v, Q v → Q (workLosses t n v) := by
    intro n
    induction n with
    | zero => exact fun _ h => h
    | succ n ih =>
      intro v h
      rw [workLosses]
      split
      · exact h
      · exact ih _ (hsettle _ (hloss _ _ v h))
  exact hwork _ _ (hsettle v h)

/-! ## A candidate's record -/

/-- What an event's consequences make of a candidate's record: an available one may become SELECTED or AVAILABLE, and a
ring candidate may lose its input. -/
def CandRec.Follows (c : Cand) (r r' : CandRec) : Prop :=
  (∃ st, r' = { r with state := st } ∧ (r.isAvailable = false → st = r.state) ∧
    (r.isAvailable = true → st = .available ∨ st = .selected)) ∨
  (c ≠ .ref ∧ r.state ≠ .disabled ∧ r' = r.unavail)

theorem CandRec.Follows.refl (c : Cand) (r : CandRec) : CandRec.Follows c r r :=
  .inl ⟨r.state, rfl, fun _ => rfl, fun h => (CandRec.isAvailable_iff r).mp h⟩

theorem CandRec.isAvailable_of_state {st : CandState} (r : CandRec) (h : st = .available ∨ st = .selected) :
    CandRec.isAvailable { r with state := st } = true := (CandRec.isAvailable_iff _).mpr h

theorem CandRec.Follows.trans {c : Cand} {p q r : CandRec} (h : CandRec.Follows c p q) (k : CandRec.Follows c q r) :
    CandRec.Follows c p r := by
  rcases h with ⟨st, rfl, hrest, havail⟩ | ⟨hc, hs, rfl⟩
  · rcases k with ⟨st', rfl, hrest', havail'⟩ | ⟨hc, hs, rfl⟩
    · refine .inl ⟨st', rfl, fun ha => ?_, fun ha => havail' (CandRec.isAvailable_of_state p (havail ha))⟩
      have hst := hrest ha
      subst hst
      exact hrest' ha
    · refine .inr ⟨hc, fun hd => ?_, rfl⟩
      have ha : p.isAvailable = false := by simp [CandRec.isAvailable, hd]
      exact hs ((hrest ha).trans hd)
  · rcases k with ⟨st', rfl, hrest', _⟩ | ⟨_, _, rfl⟩
    · refine .inr ⟨hc, hs, ?_⟩
      obtain rfl := hrest' rfl
      rfl
    · exact .inr ⟨hc, hs, rfl⟩

/-- A record that is not available and is REF's stays as it is. -/
theorem CandRec.Follows.ref_eq {r r' : CandRec} (h : CandRec.Follows .ref r r') (ha : r.isAvailable = false) :
    r' = r := by
  rcases h with ⟨st, rfl, hrest, _⟩ | ⟨hc, _⟩
  · rw [hrest ha]
  · exact absurd rfl hc

/-- A ring candidate's list is kept or emptied. -/
theorem CandRec.Follows.origins {c : Cand} {r r' : CandRec} (h : CandRec.Follows c r r') :
    r'.origins = r.origins ∨ r'.origins = [] := by
  rcases h with ⟨st, rfl, _⟩ | ⟨_, _, rfl⟩
  · exact .inl rfl
  · exact .inr rfl

/-- The last sample is kept. -/
theorem CandRec.Follows.last {c : Cand} {r r' : CandRec} (h : CandRec.Follows c r r') : r'.last = r.last := by
  rcases h with ⟨st, rfl, _⟩ | ⟨_, _, rfl⟩ <;> rfl

/-- What is UNAVAILABLE stays so, and keeps class Q4. -/
theorem CandRec.Follows.unavailable {c : Cand} {r r' : CandRec} (h : CandRec.Follows c r r')
    (hs : r.state = .unavailable) : r'.state = .unavailable ∧ (r.offered = .q4 → r'.offered = .q4) := by
  rcases h with ⟨st, rfl, hrest, _⟩ | ⟨_, _, rfl⟩
  · have ha : r.isAvailable = false := by simp [CandRec.isAvailable, hs]
    exact ⟨(hrest ha).trans hs, id⟩
  · exact ⟨rfl, fun _ => rfl⟩

theorem Live.Still.follows {v w : Live} (h : v.Still w) (c : Cand) :
    CandRec.Follows c (v.cands.get c) (w.cands.get c) := by
  rw [h.cands]
  exact .refl c _

theorem evaluate_follows (t : Tables) (c : Cand) (v : Live) :
    CandRec.Follows c (v.cands.get c) ((evaluate t v).cands.get c) := by
  by_cases h : target t (cancelManual v) = v.selection
  · rw [evaluate_same h, cancelManual_cands]
    exact .refl c _
  · rw [evaluate_cands h]
    have hleft : CandRec.Follows c (v.cands.get c) ((leaveSelected v.selection (cancelManual v)).cands.get c) := by
      by_cases ho : v.selection = some c
      · rw [ho, leaveSelected_get_same, cancelManual_cands]
        split
        · next hs =>
          have ha := (CandRec.isAvailable_iff _).mpr (.inr hs)
          exact .inl ⟨.available, rfl, fun hn => (by rw [ha] at hn; cases hn), fun _ => .inl rfl⟩
        · exact .refl c _
      · rw [leaveSelected_get_other ho, cancelManual_cands]
        exact .refl c _
    by_cases hn : target t (cancelManual v) = some c
    · have ha : (v.cands.get c).isAvailable = true := by
        have := target_available hn
        rwa [cancelManual_cands] at this
      rcases hleft with ⟨st, hst, _, _⟩ | ⟨hc, hd, hu⟩
      · rw [hn, enterSelected_get_same, hst]
        exact .inl ⟨.selected, rfl, fun hf => (by rw [ha] at hf; cases hf), fun _ => .inr rfl⟩
      · by_cases ho : v.selection = some c
        · exact absurd (hn.trans ho.symm) h
        · rw [leaveSelected_get_other ho, cancelManual_cands] at hu
          rw [hu] at ha
          cases ha
    · rw [enterSelected_get_other hn]
      exact hleft

/-- A candidate that is chosen was available. -/
theorem evaluate_selects_available {t : Tables} {v : Live} {c : Cand} (h : (evaluate t v).selection = some c) :
    (v.cands.get c).isAvailable = true := by
  rw [evaluate_selection] at h
  have := target_available h
  rwa [cancelManual_cands] at this

theorem loseInput_follows (d : Side) (c : Cand) (v : Live) :
    CandRec.Follows c (v.cands.get c) ((loseInput d.cand v).cands.get c) := by
  by_cases hc : c = d.cand
  · subst hc
    have href : d.cand ≠ .ref := by cases d <;> decide
    unfold loseInput
    split
    · exact .refl _ _
    · exact .refl _ _
    · next hd _ =>
      exact .inr ⟨href, hd, Trio.get_set_same _ _ _⟩
  · rw [(loseInput_alters d.cand v).others c hc]
    exact .refl c _

theorem setSpanState_follows (d : Side) (st : SpanState) (c : Cand) (v : Live) :
    CandRec.Follows c (v.cands.get c) ((setSpanState d st v).cands.get c) := by
  unfold setSpanState
  dsimp only
  split
  · exact loseInput_follows d c (v.mapSpan d _)
  · exact .refl c _

theorem enterDown_follows (t : Tables) (d : Side) (c : Cand) (v : Live) :
    CandRec.Follows c (v.cands.get c) ((enterDown t d v).cands.get c) := by
  unfold enterDown
  split
  · exact .refl c _
  · rw [(refreshAlarms_still _ _).cands]
    exact setSpanState_follows d .down c (v.mapSpan d Span.toDown)

theorem probeTimeout_follows (t : Tables) (d : Side) (c : Cand) (v : Live) :
    CandRec.Follows c (v.cands.get c) ((probeTimeout t d v).cands.get c) := by
  unfold probeTimeout
  dsimp only
  split
  · exact enterDown_follows t d c (v.mapSpan d _)
  · exact .refl c _

theorem takeLoss_follows (t : Tables) (l : Loss) (c : Cand) (v : Live) :
    CandRec.Follows c (v.cands.get c) ((takeLoss t l v).cands.get c) := by
  cases l with
  | probe d => exact probeTimeout_follows t d c v
  | roll seq rev => exact (rollLost_still t seq rev v).follows c

theorem finish_follows (t : Tables) (c : Cand) (v : Live) :
    CandRec.Follows c (v.cands.get c) ((finish t v).cands.get c) := by
  refine finish_rule (P := fun w => CandRec.Follows c (v.cands.get c) (w.cands.get c))
    (fun w h => h.trans (evaluate_follows t c w)) (fun k w h => h.trans ((setClass_still t k w).follows c))
    (fun w h => h.trans ((refreshAlarms_still t w).follows c))
    (fun w h => h.trans ((takeoverCheck_still t w).follows c))
    (fun l ls w h => h.trans (takeLoss_follows t l c { w with losses := ls })) (fun _ h => h) (.refl c _)

/-- A candidate that is not available is not selected once what follows has followed. -/
theorem finish_not_selected (t : Tables) {c : Cand} {v : Live} (h : (v.cands.get c).isAvailable = false) :
    (finish t v).selection ≠ some c := by
  have stays : ∀ r r' : CandRec, CandRec.Follows c r r' → r.isAvailable = false → r'.isAvailable = false := by
    rintro r r' (⟨st, rfl, hrest, _⟩ | ⟨_, _, rfl⟩) ha
    · rw [hrest ha]; exact ha
    · rfl
  refine (finish_rule (P := fun w => (w.cands.get c).isAvailable = false)
    (Q := fun w => w.selection ≠ some c ∧ (w.cands.get c).isAvailable = false) (fun w hw => ⟨fun hs => ?_, ?_⟩)
    (fun k w hw => ?_) (fun w hw => ?_) (fun w hw => ?_) (fun l ls w hw => ?_) (fun _ hw => hw.2) h).1
  · rw [evaluate_selects_available hs] at hw
    cases hw
  · exact stays _ _ (evaluate_follows t c w) hw
  · rw [(setClass_still t k w).selection, (setClass_still t k w).cands]; exact hw
  · rw [(refreshAlarms_still t w).selection, (refreshAlarms_still t w).cands]; exact hw
  · rw [(takeoverCheck_still t w).selection, (takeoverCheck_still t w).cands]; exact hw
  · exact stays _ _ (takeLoss_follows t l c { w with losses := ls }) hw.2

/-! ## The REF input (R33 to R36) -/

theorem refListens_iff (v : Live) : refListens v = true ↔ v.part = .running ∧ v.cands.ref.state ≠ .disabled := by
  unfold refListens
  rw [Bool.and_eq_true, decide_eq_true_iff, decide_eq_true_iff]
  exact Iff.rfl

/-- A pulse while REF listens, with the announcement it is paired with taken. -/
theorem takePulse_listening {t : Tables} {v : Live} (h : refListens v = true) : takePulse t v =
    match judgePulse v.cands.ref v.refIn with
    | .usable a => usableSecond t a { v with refIn := { v.refIn with pending := none, watch := v.now } }
    | .unusable => unusableSecond { v with refIn := { v.refIn with pending := none, watch := v.now } }
    | .jump a => jumpSecond a { v with refIn := { v.refIn with pending := none, watch := v.now } } := if_pos h

theorem judgePulse_usable {r : CandRec} {i : RefInput} {a : Announcement} (hp : i.pending = some a)
    (hv : a.valid = true) (hcode : a.code.val ≤ 1)
    (hseq : r.state = .unavailable ∨ i.expected = none ∨ i.expected = some a.sec) : judgePulse r i = .usable a := by
  have hno : ¬ (r.state ≠ .unavailable ∧ i.expected.isSome = true ∧ i.expected ≠ some a.sec) := by
    rintro ⟨h1, h2, h3⟩
    rcases hseq with h | h | h
    · exact h1 h
    · rw [h] at h2; cases h2
    · exact h3 h
  simp only [judgePulse, hp, hv, if_neg hno, if_pos hcode]
  rfl

theorem judgePulse_jump {r : CandRec} {i : RefInput} {a : Announcement} {x : Nat} (hp : i.pending = some a)
    (hv : a.valid = true) (hs : r.state ≠ .unavailable) (hx : i.expected = some x) (hne : x ≠ a.sec) :
    judgePulse r i = .jump a := by
  have hyes : r.state ≠ .unavailable ∧ i.expected.isSome = true ∧ i.expected ≠ some a.sec :=
    ⟨hs, by rw [hx]; rfl, by rw [hx]; exact fun h => hne (Option.some.inj h)⟩
  simp only [judgePulse, hp, hv, if_pos hyes]
  rfl

theorem judgePulse_unusable {r : CandRec} {i : RefInput}
    (h : i.pending = none ∨ ∃ a, i.pending = some a ∧ (a.valid = false ∨
      2 ≤ a.code.val ∧ (r.state = .unavailable ∨ i.expected = none ∨ i.expected = some a.sec))) :
    judgePulse r i = .unusable := by
  rcases h with hp | ⟨a, hp, hv | ⟨hcode, hseq⟩⟩
  · simp only [judgePulse, hp]
  · simp only [judgePulse, hp, if_pos hv]
  · have hno : ¬ (r.state ≠ .unavailable ∧ i.expected.isSome = true ∧ i.expected ≠ some a.sec) := by
      rintro ⟨h1, h2, h3⟩
      rcases hseq with h | h | h
      · exact h1 h
      · rw [h] at h2; cases h2
      · exact h3 h
    have hcode' : ¬ a.code.val ≤ 1 := by omega
    simp only [judgePulse, hp, if_neg hno, if_neg hcode', ite_self]

/-- The REF record after an unusable second (R36). -/
def CandRec.afterUnusable (now : Stamp) (run : Nat) (r : CandRec) : CandRec :=
  if run < 2 then (if r.state = .qualifying then { r with qual := some { since := now, base := 0 } } else r)
  else if r.state = .unavailable then r else r.unavail

/-- The REF input after an unusable second (R34, R36). -/
def RefInput.afterUnusable (st : CandState) (i : RefInput) : RefInput :=
  { i with
    unusable := min 3 (i.unusable + 1)
    expected := if 2 ≤ i.unusable ∧ st ≠ .unavailable then none else i.expected.map (fun x => (x + 1) % 1099511627776) }

/-- An unusable second written out: the input and REF's record alone change. -/
theorem unusableSecond_eq {v : Live} (hd : v.cands.ref.state ≠ .disabled) : unusableSecond v =
    { v with
      refIn := v.refIn.afterUnusable v.cands.ref.state
      cands := v.cands.set .ref (v.cands.ref.afterUnusable v.now v.refIn.unusable) } := by
  rcases Nat.lt_or_ge v.refIn.unusable 2 with hrun | hrun
  · have hne : ¬ min 3 (v.refIn.unusable + 1) = 3 := by omega
    have hne' : ¬ 2 ≤ v.refIn.unusable := by omega
    simp only [unusableSecond, hne, false_and, if_false, RefInput.afterUnusable, hne', CandRec.afterUnusable,
      if_pos hrun]
    rfl
  · have heq : min 3 (v.refIn.unusable + 1) = 3 := by omega
    have hlt : ¬ v.refIn.unusable < 2 := by omega
    cases hs : v.cands.ref.state with
    | disabled => exact absurd hs hd
    | unavailable =>
      simp [unusableSecond, heq, RefInput.afterUnusable, CandRec.afterUnusable, hlt, hs, Live.mapCand, Trio.get,
        Trio.set]
      rfl
    | _ =>
      simp [unusableSecond, RefInput.afterUnusable, CandRec.afterUnusable, hlt, hs, Live.mapCand, Trio.get,
        Trio.set, hrun, loseInput, CandRec.unavail]

end Sys2Proof.Machine
end

section
/-! The statements about the REF input: announcements, usable and unusable seconds, jumps (R33 to R36, R44). -/

namespace Sys2Proof.Machine

/-! ## What a sample leaves -/

/-- A sample changes the time scale, the servo, J and J_p, and nothing else. -/
def Live.SampleOnly (v w : Live) : Prop :=
  ∃ ts servo epoch access, w = { v with ts := ts, servo := servo, epoch := epoch, access := access }

theorem servoUpdate_sampleOnly (t : Tables) (v : Live) : v.SampleOnly (servoUpdate t v) := by
  by_cases hk : updateSkipped t.servo v.servo = true
  · rw [servoUpdate_of_skipped hk]; exact ⟨_, _, _, _, rfl⟩
  · rw [Bool.not_eq_true] at hk
    by_cases hs : updateSteps t.servo v.servo
    · rw [servoUpdate_of_steps hk hs]; exact ⟨_, _, _, _, rfl⟩
    · rw [servoUpdate_of_steers hk hs]; exact ⟨_, _, _, _, rfl⟩

theorem queueSample_sampleOnly (t : Tables) (x : Sample) (v : Live) : v.SampleOnly (queueSample t x v) := by
  rcases Nat.lt_or_ge (v.servo.queue.length + 1) t.servo.n with h | h
  · rw [queueSample_joins h]; exact ⟨_, _, _, _, rfl⟩
  · rw [queueSample_completes h]
    obtain ⟨ts, servo, epoch, access, he⟩ :=
      servoUpdate_sampleOnly t { v with servo := { v.servo with queue := v.servo.queue ++ [x] } }
    exact ⟨ts, servo, epoch, access, he⟩

theorem servoSample_sampleOnly (t : Tables) (theta : Int) (v : Live) : v.SampleOnly (servoSample t theta v) := by
  cases hs : v.servo.state with
  | acquire =>
    rcases Nat.lt_or_ge theta.natAbs 1000000000 with h | h
    · rw [servoSample_acquire hs h]; exact queueSample_sampleOnly t _ v
    · rw [servoSample_coarse hs h]; exact ⟨_, _, _, _, rfl⟩
  | locked =>
    cases hok : lockedAccepts t.servo v.servo theta with
    | true => rw [servoSample_locked_accepted hs hok]; exact queueSample_sampleOnly t _ v
    | false =>
      rw [servoSample_locked_rejected hs hok]
      obtain ⟨ts, servo, epoch, access, he⟩ := queueSample_sampleOnly t { theta := theta, accept := false }
        { v with servo := { v.servo with gated := bump v.servo.gated } }
      exact ⟨ts, servo, epoch, access, he⟩
  | freerun => simp only [servoSample, hs]; exact ⟨_, _, _, _, rfl⟩
  | holdover => simp only [servoSample, hs]; exact ⟨_, _, _, _, rfl⟩

/-! ## The REF record through what follows -/

theorem Live.ref_last_of_kept {v w : Live} (h : v.kept = w.kept) : v.cands.ref.last = w.cands.ref.last :=
  (congrArg (fun x : Live => x.cands.ref.last) h :)

theorem Live.ref_offered_of_kept {v w : Live} (h : v.kept = w.kept) : v.cands.ref.offered = w.cands.ref.offered :=
  (congrArg (fun x : Live => x.cands.ref.offered) h :)

theorem Live.now_of_kept {v w : Live} (h : v.kept = w.kept) : v.now = w.now := by
  unfold Live.now TimeScale.stamp
  rw [Live.value_of_kept h, Live.steps_of_kept h]

theorem CandRec.afterUnusable_last (now : Stamp) (run : Nat) (r : CandRec) :
    (r.afterUnusable now run).last = r.last := by
  unfold CandRec.afterUnusable
  split_ifs <;> rfl

theorem CandRec.afterUnusable_lost {run : Nat} (h : 2 ≤ run) (now : Stamp) (r : CandRec) :
    (r.afterUnusable now run).state = .unavailable := by
  unfold CandRec.afterUnusable
  rw [if_neg (by omega)]
  split
  · next hs => exact hs
  · rfl

/-- The blocks after an unusable second, before what follows. -/
def unusableTaken (v : Live) : Live :=
  { v with
    refIn := { v.refIn.afterUnusable v.cands.ref.state with pending := none, watch := v.now }
    cands := v.cands.set .ref (v.cands.ref.afterUnusable v.now v.refIn.unusable) }

/-- What an unusable second leaves, whether a pulse or a missing second brings it (R34, R36). -/
theorem exec_unusable {n : Nat} {s : State} {v : Live} {c : Instr} (hv : v = s.live.elapse n)
    (hrun : s.live.part = .running) (hd : v.cands.ref.state ≠ .disabled)
    (hc : c = .refpPulse n ∧ (v.refIn.pending = none ∨ ∃ a, v.refIn.pending = some a ∧ (a.valid = false ∨
        2 ≤ a.code.val ∧
          (v.cands.ref.state = .unavailable ∨ v.refIn.expected = none ∨ v.refIn.expected = some a.sec))) ∨
      c = .missingSecond n ∧ 1100000000000 ≤ interval v.refIn.watch v.now) :
    exec c s = .next (s.settled (unusableTaken v)) := by
  have hpart : v.part = .running := by rw [hv]; exact hrun
  have hlisten := (refListens_iff v).mpr ⟨hpart, hd⟩
  have hsecond : unusableSecond { v with refIn := { v.refIn with pending := none, watch := v.now } } =
      unusableTaken v :=
    unusableSecond_eq (v := { v with refIn := { v.refIn with pending := none, watch := v.now } }) hd
  rcases hc with ⟨rfl, hpulse⟩ | ⟨rfl, hmiss⟩
  · refine congrArg Host.Outcome.next ((State.act_at hv takePulse).trans (State.settled_congr s ?_))
    rw [takePulse_listening hlisten, judgePulse_unusable hpulse]
    exact hsecond
  · have hdue : missingDue v = true := by rw [missingDue, hlisten, decide_eq_true hmiss]; rfl
    refine congrArg Host.Outcome.next
      ((State.timed_at hv (fun _ v => declareMissing v) hdue).trans (State.settled_congr s ?_))
    exact hsecond

/-- Settles O20: the unusable second written out, and what of it stands once what follows has followed. -/
theorem unusableSecondIsCounted : Obligations.UnusableSecondIsCounted := by
  unfold Obligations.UnusableSecondIsCounted
  intro n s v c hv hrun hd hc
  have hexec := exec_unusable hv hrun hd hc
  refine ⟨⟨_, hexec, rfl, rfl, rfl, ?_, fun hlost => ?_, ?_, ?_, ?_⟩, fun i r y hr hi hq hkeep hun hlost => ?_⟩
  · rw [State.settled_live, finish_refIn]; rfl
  · have hstate := CandRec.afterUnusable_lost hlost v.now v.cands.ref
    exact ((finish_follows s.tables .ref (unusableTaken v)).unavailable hstate).1
  · exact (finish_follows s.tables .ref (unusableTaken v)).last.trans (CandRec.afterUnusable_last _ _ _)
  · rw [State.settled_live, finish_value]; rfl
  · rw [State.settled_live, finish_steps]; rfl
  · subst hr
    have hy : y = v.cands.ref.afterUnusable v.now v.refIn.unusable := by
      unfold CandRec.afterUnusable
      split_ifs with h1 h2 h2
      · exact hq h1 h2
      · exact hkeep h1 h2
      · exact hun (by omega) h2
      · exact hlost (by omega) h2
    rw [hexec, hy, hi]
    rfl

/-- Settles O21: the announcement by whether REF listens, and the jump written out. -/
theorem announcementsAndJumps : Obligations.AnnouncementsAndJumps := by
  unfold Obligations.AnnouncementsAndJumps
  intro n s v a hv
  have hpart : v.part = s.live.part := by rw [hv]; rfl
  refine ⟨fun hrun hd => ?_, fun hdeaf => ?_, fun x hrun hd hu hp hvalid hx hne => ?_⟩
  · have hlisten := (refListens_iff v).mpr ⟨hpart.trans hrun, hd⟩
    exact congrArg Host.Outcome.next ((State.act_at hv (fun _ v => takeAnnouncement a v)).trans
      (State.settled_congr s (if_pos hlisten)))
  · have hdeaf' : ¬ refListens v = true := by
      rw [refListens_iff]
      rintro ⟨hrun, hd⟩
      rcases hdeaf with h | h
      · rw [hpart, h] at hrun; cases hrun
      · exact hd h
    exact congrArg Host.Outcome.next ((State.act_at hv (fun _ v => takeAnnouncement a v)).trans
      (State.settled_congr s (if_neg hdeaf')))
  · have hlisten := (refListens_iff v).mpr ⟨hpart.trans hrun, hd⟩
    have hexec : exec (.refpPulse n) s = .next (s.settled (jumpSecond a
        { v with refIn := { v.refIn with pending := none, watch := v.now } })) := by
      refine congrArg Host.Outcome.next ((State.act_at hv takePulse).trans (State.settled_congr s ?_))
      rw [takePulse_listening hlisten, judgePulse_jump hp hvalid hu hx hne]
    have hrest : ((jumpSecond a { v with refIn := { v.refIn with pending := none, watch := v.now } }).cands.get
        .ref).isAvailable = false := rfl
    refine ⟨_, hexec, rfl, rfl, rfl, ?_, ?_, finish_not_selected s.tables hrest, ?_, ?_, ?_, hexec⟩
    · rw [State.settled_live, finish_refIn]; rfl
    · have href := (finish_follows s.tables .ref _).ref_eq hrest
      exact (congrArg CandRec.state href :)
    · exact (congrArg CandRec.last ((finish_follows s.tables .ref _).ref_eq hrest) :)
    · rw [State.settled_live, finish_value]; rfl
    · rw [State.settled_live, finish_steps]; rfl

/-! ## A usable second (R34, R35, R44) -/

theorem qualified_of_timer {t : Tables} {c : Cand} {v : Live} {tm : Timer} (h : (v.cands.get c).qual = some tm) :
    qualified t c v = decide (((t.cand.get c).qualify : Int) * 1000000000000 ≤ tm.base + interval tm.since v.now) := by
  simp only [qualified, h]
  rfl

theorem qualified_of_none {t : Tables} {c : Cand} {v : Live} (h : (v.cands.get c).qual = none) :
    qualified t c v = false := by
  simp only [qualified, h]

theorem promote_qualified {t : Tables} {c : Cand} {v : Live} (hs : (v.cands.get c).state = .qualifying)
    (hq : qualified t c v = true) : promote t c v =
      if (v.cands.get c).offered = .q4 then v
      else { v with cands := v.cands.set c { v.cands.get c with state := .available, qual := none } } := by
  unfold promote
  dsimp only
  by_cases h : (v.cands.get c).offered = .q4
  · rw [if_pos h, if_neg (fun hp => hp.2.1 h)]
  · rw [if_neg h, if_pos ⟨hs, h, hq⟩]
    rfl

theorem takeQualified_idle {t : Tables} {v : Live}
    (h : (v.cands.get .ref).state ≠ .qualifying ∨ qualified t .ref v = false) : takeQualified t v = v := by
  refine if_neg ?_
  rintro ⟨hs, hq⟩
  rcases h with h | h
  · exact h hs
  · rw [h] at hq; cases hq

theorem takeQualified_due {t : Tables} {v : Live} (hs : (v.cands.get .ref).state = .qualifying)
    (hq : qualified t .ref v = true) : takeQualified t v = settle t (if (v.cands.get .ref).offered = .q4 then v
      else { v with cands := v.cands.set .ref { v.cands.get .ref with state := .available, qual := none } }) := by
  rw [← promote_qualified hs hq]
  exact if_pos ⟨hs, hq⟩

theorem takeQualified_kept (t : Tables) (v : Live) : (takeQualified t v).kept = v.kept ∨
    ∃ r, (takeQualified t v).kept = Live.kept { v with cands := v.cands.set .ref r } := by
  unfold takeQualified promote
  dsimp only
  split
  · rw [settle_kept]
    split
    · exact .inr ⟨_, rfl⟩
    · exact .inl rfl
  · exact .inl rfl

/-- What the promotion at a usable second leaves of the input, the time and the rest. -/
theorem takeQualified_leaves (t : Tables) (v : Live) :
    (takeQualified t v).refIn = v.refIn ∧ (takeQualified t v).ts.value = v.ts.value ∧
    (takeQualified t v).now = v.now ∧ (takeQualified t v).thermal = v.thermal ∧ (takeQualified t v).mgmt = v.mgmt := by
  rcases takeQualified_kept t v with h | ⟨r, h⟩ <;>
    exact ⟨(Live.refIn_of_kept h :), (Live.value_of_kept h :), (Live.now_of_kept h :), (Live.thermal_of_kept h :),
      (Live.mgmt_of_kept h :)⟩

/-- REF's record and input after a usable second, before the sample is handed on (R34, R35). -/
def usableTaken (a : Announcement) (theta : Int) (v : Live) : Live :=
  { v with
    refIn := { v.refIn with unusable := 0, expected := some ((a.sec + 1) % 1099511627776) }
    cands := v.cands.set .ref { v.cands.ref with
      state := if v.cands.ref.state = .unavailable then .qualifying else v.cands.ref.state
      qual := if v.cands.ref.state = .unavailable then some { since := v.now, base := 0 } else v.cands.ref.qual
      offered := if a.code = 0 then .q0 else .q1
      last := some (theta, v.ts.value.sec) } }

theorem usableSecond_eq (t : Tables) (a : Announcement) (v : Live) : usableSecond t a v =
    deliverSample t .ref (refOffset t (takeQualified t v).ts.value a.sec)
      (usableTaken a (refOffset t (takeQualified t v).ts.value a.sec) (takeQualified t v)) := rfl

/-- A sample handed on leaves the input, the temperature and the management unit, and REF's record but its state. -/
theorem deliverSample_leaves (t : Tables) (c : Cand) (theta : Int) (v : Live) :
    (deliverSample t c theta v).refIn = v.refIn ∧ (deliverSample t c theta v).thermal = v.thermal ∧
    (deliverSample t c theta v).mgmt = v.mgmt ∧ (deliverSample t c theta v).cands.ref.last = v.cands.ref.last ∧
    (deliverSample t c theta v).cands.ref.offered = v.cands.ref.offered := by
  have hk := settleSelection_kept t 4 v
  unfold deliverSample
  dsimp only
  split
  · obtain ⟨ts, servo, epoch, access, he⟩ := servoSample_sampleOnly t theta (settleSelection t 4 v)
    rw [he]
    exact ⟨(Live.refIn_of_kept hk :), (Live.thermal_of_kept hk :), (Live.mgmt_of_kept hk :),
      (Live.ref_last_of_kept hk :), (Live.ref_offered_of_kept hk :)⟩
  · exact ⟨Live.refIn_of_kept hk, Live.thermal_of_kept hk, Live.mgmt_of_kept hk, Live.ref_last_of_kept hk,
      Live.ref_offered_of_kept hk⟩

/-- Settles O19: the usable second in its parts, the promotion first, and what of it stands in the end. -/
theorem usableSecondIsTaken : Obligations.UsableSecondIsTaken := by
  unfold Obligations.UsableSecondIsTaken
  intro n s v a hv hrun hd hp hvalid hcode hseq
  have hpart : v.part = .running := by rw [hv]; exact hrun
  have hlisten := (refListens_iff v).mpr ⟨hpart, hd⟩
  obtain ⟨x, hx⟩ : ∃ x : Live, x = { v with refIn := { v.refIn with pending := none, watch := v.now } } := ⟨_, rfl⟩
  obtain ⟨hrefIn, hvalue, hnow, hthermal, hmgmt⟩ := takeQualified_leaves s.tables x
  obtain ⟨theta, htheta⟩ : ∃ theta, theta = refOffset s.tables v.ts.value a.sec := ⟨_, rfl⟩
  have htheta' : refOffset s.tables (takeQualified s.tables x).ts.value a.sec = theta := by
    rw [hvalue, htheta, hx]
  have hexec : exec (.refpPulse n) s = .next (s.settled (deliverSample s.tables .ref theta
      (usableTaken a theta (takeQualified s.tables x)))) := by
    refine congrArg Host.Outcome.next ((State.act_at hv takePulse).trans (State.settled_congr s ?_))
    rw [takePulse_listening hlisten, judgePulse_usable hp hvalid hcode hseq]
    show usableSecond s.tables a _ = _
    rw [← hx, usableSecond_eq, htheta']
  refine ⟨⟨_, hexec, rfl, rfl, rfl, ?_, ?_, ?_, ?_, ?_⟩, fun u x' w z theta' r ht hx' hidle hdue hr hw hz => ?_⟩
  all_goals
    obtain ⟨drefIn, dthermal, dmgmt, dlast, doffered⟩ :=
      deliverSample_leaves s.tables .ref theta (usableTaken a theta (takeQualified s.tables x))
  · rw [State.settled_live, finish_refIn, drefIn]
    show { (takeQualified s.tables x).refIn with unusable := 0, expected := some ((a.sec + 1) % 1099511627776) } = _
    rw [hrefIn, hx]
  · rw [State.settled_live, Live.ref_last_of_kept (finish_kept _ _), dlast]
    show some (theta, (takeQualified s.tables x).ts.value.sec) = _
    rw [hvalue, htheta, hx]
    rfl
  · rw [State.settled_live, Live.ref_offered_of_kept (finish_kept _ _), doffered]
    rfl
  · rw [State.settled_live, finish_thermal, dthermal]
    exact hthermal.trans (by rw [hx])
  · rw [State.settled_live, finish_mgmt, dmgmt]
    exact hmgmt.trans (by rw [hx])
  · obtain rfl : x' = x := hx'.trans hx.symm
    obtain rfl : theta' = theta := ht.trans htheta.symm
    have hstate : x'.cands = v.cands := by rw [hx']
    have hxnow : x'.now = v.now := by rw [hx']; rfl
    have hu : u = takeQualified s.tables x' := by
      have hreads : ∀ tm, v.cands.ref.qual = some tm → qualified s.tables .ref x' =
          decide ((s.tables.cand.ref.qualify : Int) * 1000000000000 ≤ tm.base + interval tm.since v.now) := by
        intro tm htm
        rw [qualified_of_timer (tm := tm) (by rw [hstate]; exact htm), hxnow]
        rfl
      by_cases hq : v.cands.ref.state = .qualifying
      · cases hqual : v.cands.ref.qual with
        | none =>
          rw [hidle (.inr (.inl hqual)), takeQualified_idle (.inr (qualified_of_none (by rw [hstate]; exact hqual)))]
        | some tm =>
          by_cases hreach : (s.tables.cand.ref.qualify : Int) * 1000000000000 ≤ tm.base + interval tm.since v.now
          · have htrue := (hreads tm hqual).trans (decide_eq_true hreach)
            rw [hdue tm hq hqual hreach, takeQualified_due (by rw [hstate]; exact hq) htrue, hstate]
            rfl
          · have hfalse := (hreads tm hqual).trans (decide_eq_false hreach)
            rw [hidle (.inr (.inr ⟨tm, hqual, Int.not_le.mp hreach⟩)), takeQualified_idle (.inr hfalse)]
      · rw [hidle (.inl hq), takeQualified_idle (.inl (by rw [hstate]; exact hq))]
    have hw' : w = usableTaken a theta' (takeQualified s.tables x') := by
      rw [hw, hr, hu]
      unfold usableTaken
      rw [hnow, hxnow, hvalue, hx']
    rw [hexec, ← hw']
    unfold deliverSample
    dsimp only
    rw [← hz]
    exact ⟨fun hsel => by rw [if_pos hsel], fun hsel => by rw [if_neg hsel]⟩

end Sys2Proof.Machine
end

section
/-! The ring candidates: the preferred origin, the revision of a record, what an EPOCH heard and an entry expired make of
it (R30, R37 to R40). -/

namespace Sys2Proof.Machine

/-! ## The preferred origin (R39) -/

/-- One entry is no worse than another: by class, then rank, then id. -/
def OriginHeard.NoWorse (p y : OriginHeard) : Prop :=
  p.cls.num < y.cls.num ∨ p.cls.num = y.cls.num ∧ (p.rank < y.rank ∨ p.rank = y.rank ∧ p.id ≤ y.id)

theorem OriginHeard.better_iff (a b : OriginHeard) : a.better b = true ↔
    a.cls.num < b.cls.num ∨ a.cls.num = b.cls.num ∧ (a.rank < b.rank ∨ a.rank = b.rank ∧ a.id < b.id) := by
  simp only [OriginHeard.better, Bool.or_eq_true, Bool.and_eq_true, decide_eq_true_eq]

theorem bestOrigin_spec : ∀ {l : List OriginHeard}, l ≠ [] →
    ∃ p ∈ l, bestOrigin l = some p ∧ ∀ y ∈ l, p.NoWorse y
  | [], h => absurd rfl h
  | [x], _ => by
    refine ⟨x, List.mem_singleton_self x, rfl, fun y hy => ?_⟩
    obtain rfl := List.mem_singleton.mp hy
    exact .inr ⟨rfl, .inr ⟨rfl, Nat.le_refl _⟩⟩
  | x :: z :: l, _ => by
    obtain ⟨p, hp, hbest, hmin⟩ := bestOrigin_spec (l := z :: l) (List.cons_ne_nil _ _)
    rw [bestOrigin, hbest]
    dsimp only
    by_cases hb : p.better x = true
    · refine ⟨p, List.mem_cons_of_mem _ hp, if_pos hb, fun y hy => ?_⟩
      rcases List.mem_cons.mp hy with rfl | hy
      · rw [OriginHeard.better_iff] at hb
        unfold OriginHeard.NoWorse
        omega
      · exact hmin y hy
    · refine ⟨x, List.mem_cons_self, if_neg hb, fun y hy => ?_⟩
      rcases List.mem_cons.mp hy with rfl | hy
      · exact .inr ⟨rfl, .inr ⟨rfl, Nat.le_refl _⟩⟩
      · have := hmin y hy
        rw [OriginHeard.better_iff] at hb
        unfold OriginHeard.NoWorse at *
        omega

theorem worseClass_q1 (a : QClass) : worseClass a .q1 = if a = .q0 then .q1 else a := by
  cases a <;> rfl

/-! ## The revision of a record (R30, R39) -/

theorem rearm_eq (v : Live) : rearm v = { v with servo := (rearm v).servo } := by
  unfold rearm
  split <;> rfl

/-- Whether a record's qualify timer stands at or beyond a time. -/
def CandRec.qualifiedAt (limit : Int) (now : Stamp) (r : CandRec) : Bool :=
  match r.qual with
  | some tm => decide (limit ≤ tm.base + interval tm.since now)
  | none => false

theorem qualified_eq (t : Tables) (c : Cand) (v : Live) : qualified t c v =
    (v.cands.get c).qualifiedAt (((t.cand.get c).qualify : Int) * 1000000000000) v.now := rfl

/-- A record that takes an entry as its preferred origin (R39). -/
def CandRec.preferring (p : OriginHeard) (r : CandRec) : CandRec :=
  { r with offered := if p.cls = .q0 then .q1 else p.cls, hops := some p.hops, preferred := some p.id }

/-- The class rules on a record, for a qualify time in seconds (R30). -/
def CandRec.ruled (qualify : Nat) (now : Stamp) (x : CandRec) : CandRec :=
  if x.isAvailable ∧ x.offered = .q4 then
    { x with state := .qualifying, qual := some { since := now, base := qualify * 1000000000000 } }
  else if x.state = .qualifying ∧ x.offered ≠ .q4 ∧ x.qualifiedAt ((qualify : Int) * 1000000000000) now then
    { x with state := .available, qual := none }
  else x

/-- Whether a new preferred origin rearms the servo (R39). -/
abbrev CandRec.Displaced (p : OriginHeard) (r : CandRec) : Prop :=
  r.state = .selected ∧ r.preferred ≠ none ∧ r.preferred ≠ some p.id

theorem Trio.set_set {α : Type} (k : Trio α) (c : Cand) (x y : α) : (k.set c x).set c y = k.set c y := by
  cases c <;> rfl

theorem secPs_toNat (n : Nat) : (secPs n).toNat = n * 1000000000000 := by
  unfold secPs
  omega

/-- The class rules act on one record alone. -/
theorem promote_demoteQ4 (t : Tables) (c : Cand) (v : Live) : promote t c (demoteQ4 t c v) =
    { v with cands := v.cands.set c ((v.cands.get c).ruled (t.cand.get c).qualify v.now) } := by
  have hset : v = { v with cands := v.cands.set c (v.cands.get c) } := by cases c <;> rfl
  by_cases hq4 : (v.cands.get c).isAvailable = true ∧ (v.cands.get c).offered = .q4
  · have hdemote : demoteQ4 t c v = { v with cands := v.cands.set c { v.cands.get c with
        state := .qualifying, qual := some { since := v.now, base := (qualifyPs t c).toNat } } } := if_pos hq4
    rw [CandRec.ruled, if_pos hq4, hdemote, qualifyPs, secPs_toNat]
    refine if_neg ?_
    rintro ⟨_, hne, _⟩
    simp only [Trio.get_set_same] at hne
    exact hne hq4.2
  · have hdemote : demoteQ4 t c v = v := if_neg hq4
    rw [CandRec.ruled, if_neg hq4, hdemote]
    by_cases hp : (v.cands.get c).state = .qualifying ∧ (v.cands.get c).offered ≠ .q4 ∧
        (v.cands.get c).qualifiedAt (((t.cand.get c).qualify : Int) * 1000000000000) v.now = true
    · rw [if_pos hp]
      exact if_pos hp
    · rw [if_neg hp, ← hset]
      exact if_neg hp

/-- The revision of a record whose list has a best entry. -/
theorem reviseRing_eq {t : Tables} {c : Cand} {v : Live} {p : OriginHeard}
    (hp : bestOrigin (v.cands.get c).origins = some p) : reviseRing t c v =
      { (if (v.cands.get c).Displaced p then rearm v else v) with
        cands := v.cands.set c (((v.cands.get c).preferring p).ruled (t.cand.get c).qualify v.now) } := by
  have hmap : v.mapCand c (fun r => { r with
      offered := worseClass p.cls .q1, hops := some p.hops, preferred := some p.id }) =
      { v with cands := v.cands.set c ((v.cands.get c).preferring p) } := by
    rw [worseClass_q1]; rfl
  have hchanged : (decide ((v.cands.get c).state = .selected) && (v.cands.get c).preferred.isSome &&
      decide ((v.cands.get c).preferred ≠ some p.id)) = true ↔ (v.cands.get c).Displaced p := by
    simp only [Bool.and_eq_true, decide_eq_true_eq, CandRec.Displaced, and_assoc, Option.isSome_iff_ne_none]
  simp only [reviseRing, hp]
  rw [hmap]
  by_cases hd : (v.cands.get c).Displaced p
  · rw [if_pos (hchanged.mpr hd), if_pos hd, promote_demoteQ4, rearm_eq, rearm_eq v]
    have hreads := (rearm_reads v v.manual (v.cands.set c ((v.cands.get c).preferring p)) v.selection).1
    dsimp only at hreads ⊢
    rw [Trio.get_set_same, Trio.set_set, hreads]
    rfl
  · rw [if_neg (fun h => hd (hchanged.mp h)), if_neg hd, promote_demoteQ4]
    dsimp only
    rw [Trio.get_set_same, Trio.set_set]
    rfl

theorem CandRec.ruled_of_available_q4 {x : CandRec} (ha : x.state = .available ∨ x.state = .selected)
    (h : x.offered = .q4) (qualify : Nat) (now : Stamp) : x.ruled qualify now =
      { x with state := .qualifying, qual := some { since := now, base := qualify * 1000000000000 } } :=
  if_pos ⟨(CandRec.isAvailable_iff x).mpr ha, h⟩

theorem CandRec.ruled_of_available {x : CandRec} (ha : x.state = .available ∨ x.state = .selected)
    (h : x.offered ≠ .q4) (qualify : Nat) (now : Stamp) : x.ruled qualify now = x := by
  have hq : ¬ (x.state = .qualifying ∧ x.offered ≠ .q4 ∧
      x.qualifiedAt ((qualify : Int) * 1000000000000) now = true) := by
    rintro ⟨hs, _⟩
    rcases ha with ha | ha <;> rw [ha] at hs <;> cases hs
  exact (if_neg (fun hx => h hx.2)).trans (if_neg hq)

theorem CandRec.ruled_of_not_available {x : CandRec} (ha : x.state ≠ .available) (hs : x.state ≠ .selected)
    (qualify : Nat) (now : Stamp) : x.ruled qualify now =
      if x.state = .qualifying ∧ x.offered ≠ .q4 ∧ x.qualifiedAt ((qualify : Int) * 1000000000000) now then
        { x with state := .available, qual := none } else x := by
  refine if_neg ?_
  rintro ⟨h, _⟩
  rcases (CandRec.isAvailable_iff x).mp h with h | h
  · exact ha h
  · exact hs h

/-- A QUALIFYING record whose timer has reached the qualify time becomes AVAILABLE under a class better than Q4. -/
theorem CandRec.ruled_of_qualified {x : CandRec} {tm : Timer} {qualify : Nat} {now : Stamp}
    (hs : x.state = .qualifying) (htm : x.qual = some tm)
    (hreach : (qualify : Int) * 1000000000000 ≤ tm.base + interval tm.since now) (h : x.offered ≠ .q4) :
    x.ruled qualify now = { x with state := .available, qual := none } := by
  rw [CandRec.ruled_of_not_available (by rw [hs]; decide) (by rw [hs]; decide)]
  refine if_pos ⟨hs, h, ?_⟩
  simp only [CandRec.qualifiedAt, htm]
  exact decide_eq_true hreach

theorem CandRec.ruled_of_not_qualified {x : CandRec} {tm : Timer} {qualify : Nat} {now : Stamp}
    (hs : x.state = .qualifying) (htm : x.qual = some tm)
    (h : tm.base + interval tm.since now < (qualify : Int) * 1000000000000 ∨ x.offered = .q4) :
    x.ruled qualify now = x := by
  rw [CandRec.ruled_of_not_available (by rw [hs]; decide) (by rw [hs]; decide)]
  refine if_neg ?_
  rintro ⟨_, hne, hq⟩
  simp only [CandRec.qualifiedAt, htm] at hq
  rcases h with h | h
  · exact absurd (of_decide_eq_true hq) (Int.not_le.mpr h)
  · exact hne h

/-- The class rules leave a record that is at rest. -/
theorem CandRec.ruled_of_rest {x : CandRec}
    (h : x.state = .disabled ∨ x.state = .unavailable ∨ x.state = .qualifying ∧ x.qual = none) (qualify : Nat)
    (now : Stamp) : x.ruled qualify now = x := by
  have ha : x.state ≠ .available ∧ x.state ≠ .selected := by
    rcases h with h | h | ⟨h, _⟩ <;> rw [h] <;> decide
  rw [CandRec.ruled_of_not_available ha.1 ha.2]
  refine if_neg ?_
  rintro ⟨hs, _, hq⟩
  rcases h with h | h | ⟨_, h⟩
  · rw [h] at hs; cases hs
  · rw [h] at hs; cases hs
  · simp only [CandRec.qualifiedAt, h] at hq
    cases hq

/-- The class rules change the state and the timer alone. -/
theorem CandRec.ruled_keeps (x : CandRec) (qualify : Nat) (now : Stamp) :
    (x.ruled qualify now).origins = x.origins ∧ (x.ruled qualify now).last = x.last ∧
    (x.ruled qualify now).offered = x.offered ∧ (x.ruled qualify now).hops = x.hops ∧
    (x.ruled qualify now).preferred = x.preferred := by
  unfold CandRec.ruled
  split_ifs <;> exact ⟨rfl, rfl, rfl, rfl, rfl⟩

theorem reviseRing_empty {t : Tables} {c : Cand} {v : Live} (h : (v.cands.get c).origins = []) :
    reviseRing t c v = loseInput c v := by
  simp only [reviseRing, h, bestOrigin]

theorem loseInput_idle {c : Cand} {v : Live}
    (h : (v.cands.get c).state = .disabled ∨ (v.cands.get c).state = .unavailable) : loseInput c v = v := by
  rcases h with h | h <;> simp only [loseInput, h]

theorem loseInput_loses {c : Cand} {v : Live} (hd : (v.cands.get c).state ≠ .disabled)
    (hu : (v.cands.get c).state ≠ .unavailable) :
    loseInput c v = { v with cands := v.cands.set c (v.cands.get c).unavail } := by
  unfold loseInput
  split
  case h_1 h => exact absurd h hd
  case h_2 h => exact absurd h hu
  case h_3 => rfl

/-- A revision keeps the list or empties it, and keeps the last sample. -/
theorem reviseRing_record (t : Tables) (c : Cand) (v : Live) :
    (((reviseRing t c v).cands.get c).origins = (v.cands.get c).origins ∨
      ((reviseRing t c v).cands.get c).origins = []) ∧
    ((reviseRing t c v).cands.get c).last = (v.cands.get c).last := by
  by_cases hne : (v.cands.get c).origins = []
  · rw [reviseRing_empty hne]
    by_cases hidle : (v.cands.get c).state = .disabled ∨ (v.cands.get c).state = .unavailable
    · rw [loseInput_idle hidle]
      exact ⟨.inl rfl, rfl⟩
    · rw [not_or] at hidle
      rw [loseInput_loses hidle.1 hidle.2]
      dsimp only
      rw [Trio.get_set_same]
      exact ⟨.inr rfl, rfl⟩
  · obtain ⟨p, _, hp, _⟩ := bestOrigin_spec hne
    obtain ⟨horigins, hlast, _⟩ :=
      ((v.cands.get c).preferring p).ruled_keeps (t.cand.get c).qualify v.now
    rw [reviseRing_eq hp]
    dsimp only
    rw [Trio.get_set_same]
    exact ⟨.inl horigins, hlast⟩

end Sys2Proof.Machine
end

section
/-! The statement about the candidates' qualification, hearing and expiry (R30, R36 to R40). -/

namespace Sys2Proof.Machine

/-! ## An entry expired (R38) -/

theorem originDue_of_mem {d : Side} {o : OriginHeard} {t : Tables} {v : Live} (hmem : o ∈ (v.cands.get d.cand).origins)
    (hgap : gapPs t ≤ interval o.gapSince v.now) : originDue d o.id t v = true := by
  refine List.any_eq_true.mpr ⟨o, hmem, ?_⟩
  rw [decide_eq_true hgap, beq_self_eq_true]
  rfl

/-- The list of a candidate after the expiry of an entry. -/
def keptOrigins (t : Tables) (id : Nat) (now : Stamp) (l : List OriginHeard) : List OriginHeard :=
  l.filter (fun x => !(x.id == id && decide (gapPs t ≤ interval x.gapSince now)))

theorem expireOrigin_eq (t : Tables) (c : Cand) (id : Nat) (v : Live) : expireOrigin t c id v =
    reviseRing t c (v.mapCand c (fun r => { r with origins := keptOrigins t id v.now r.origins })) := rfl

theorem not_mem_keptOrigins {t : Tables} {o : OriginHeard} {now : Stamp} (hgap : gapPs t ≤ interval o.gapSince now)
    (l : List OriginHeard) : o ∉ keptOrigins t o.id now l := by
  intro h
  have := (List.mem_filter.mp h).2
  rw [decide_eq_true hgap, beq_self_eq_true] at this
  cases this

/-- An expired entry is gone, and the last sample is kept. -/
theorem expireOrigin_record {t : Tables} {c : Cand} {o : OriginHeard} {v : Live}
    (hgap : gapPs t ≤ interval o.gapSince v.now) :
    o ∉ ((expireOrigin t c o.id v).cands.get c).origins ∧
    ((expireOrigin t c o.id v).cands.get c).last = (v.cands.get c).last := by
  obtain ⟨horigins, hlast⟩ := reviseRing_record t c
    (v.mapCand c (fun r => { r with origins := keptOrigins t o.id v.now r.origins }))
  rw [Live.mapCand_cands_same] at horigins hlast
  rw [expireOrigin_eq]
  refine ⟨?_, hlast⟩
  rcases horigins with h | h <;> rw [h]
  · exact not_mem_keptOrigins hgap _
  · exact List.not_mem_nil

/-- The expiry of the only entry takes the candidate's input. -/
theorem expireOrigin_last_entry {t : Tables} {c : Cand} {o : OriginHeard} {v : Live}
    (hgap : gapPs t ≤ interval o.gapSince v.now) (honly : (v.cands.get c).origins = [o])
    (hd : (v.cands.get c).state ≠ .disabled) (hu : (v.cands.get c).state ≠ .unavailable) :
    ((expireOrigin t c o.id v).cands.get c).state = .unavailable ∧
    ((expireOrigin t c o.id v).cands.get c).offered = .q4 := by
  have hempty : keptOrigins t o.id v.now (v.cands.get c).origins = [] := by
    rw [honly]
    refine List.eq_nil_iff_forall_not_mem.mpr fun y hy => ?_
    obtain rfl := List.mem_singleton.mp (List.mem_of_mem_filter hy)
    exact not_mem_keptOrigins hgap _ hy
  rw [expireOrigin_eq, reviseRing_empty (by rw [Live.mapCand_cands_same]; exact hempty),
    loseInput_loses (by rw [Live.mapCand_cands_same]; exact hd) (by rw [Live.mapCand_cands_same]; exact hu)]
  dsimp only
  rw [Trio.get_set_same]
  exact ⟨rfl, rfl⟩

/-! ## An EPOCH heard (R37 to R40) -/

theorem hearOrigin_refreshes {e o : OriginHeard} {a z : List OriginHeard} (ho : o.id = e.id)
    (hothers : ∀ y ∈ a ++ z, y.id ≠ e.id) : hearOrigin e (a ++ o :: z) = a ++ e :: z := by
  have hany : (a ++ o :: z).any (fun x => x.id == e.id) = true :=
    List.any_eq_true.mpr ⟨o, List.mem_append_right _ List.mem_cons_self, by simp [ho]⟩
  have hsame : ∀ l : List OriginHeard, (∀ y ∈ l, y.id ≠ e.id) → l.map (fun x => if x.id = e.id then e else x) = l := by
    intro l hl
    refine (List.map_congr_left fun y hy => if_neg (hl y hy)).trans (List.map_id' l)
  rw [hearOrigin, if_pos hany, List.map_append, List.map_cons, if_pos ho,
    hsame a (fun y hy => hothers y (List.mem_append_left _ hy)),
    hsame z (fun y hy => hothers y (List.mem_append_right _ hy))]

theorem hearOrigin_adds {e : OriginHeard} {l : List OriginHeard} (h : ∀ y ∈ l, y.id ≠ e.id) :
    hearOrigin e l = l ++ [e] := by
  refine if_neg ?_
  intro hany
  obtain ⟨y, hy, hid⟩ := List.any_eq_true.mp hany
  exact h y hy (beq_iff_eq.mp hid)

theorem hearOrigin_ne_nil (e : OriginHeard) (l : List OriginHeard) : hearOrigin e l ≠ [] := by
  unfold hearOrigin
  split
  · next hany =>
    intro h
    rw [List.map_eq_nil_iff.mp h] at hany
    cases hany
  · simp

/-- A record that has heard an EPOCH, before it is revised (R37, R38). -/
def CandRec.heard (e : OriginHeard) (now : Stamp) (r : CandRec) : CandRec :=
  { r with
    origins := hearOrigin e r.origins
    state := if r.state = .unavailable then .qualifying else r.state
    qual := if r.state = .unavailable then some (Timer.start now) else r.qual }

/-- The entry an EPOCH gives (R38). -/
def heardEntry (h : Header) (b : EpochBody) (now : Stamp) : OriginHeard :=
  { id := h.origin, rank := b.rank, cls := b.cls, hops := h.hops + 1, heardAt := now, gapSince := now }

/-- An EPOCH heard, by its preferred origin: the record, the servo, and whether a sample is formed. -/
theorem hearEpoch_eq (t : Tables) (c : Cand) (h : Header) (b : EpochBody) (theta : Int) (v : Live) :
    ∃ p ∈ hearOrigin (heardEntry h b v.now) (v.cands.get c).origins,
      (∀ y ∈ hearOrigin (heardEntry h b v.now) (v.cands.get c).origins, p.NoWorse y) ∧
      ∃ x : CandRec, x = ((((v.cands.get c).heard (heardEntry h b v.now) v.now).preferring p).ruled
          (t.cand.get c).qualify v.now) ∧
        hearEpoch t c h b theta v = (decide (p.id = h.origin),
          { (if ((v.cands.get c).heard (heardEntry h b v.now) v.now).Displaced p then rearm v else v) with
            cands := v.cands.set c
              { x with last := if p.id = h.origin then some (theta, v.ts.value.sec) else (v.cands.get c).last } }) := by
  obtain ⟨v1, hv1⟩ : ∃ v1 : Live, v1 =
    { v with cands := v.cands.set c ((v.cands.get c).heard (heardEntry h b v.now) v.now) } := ⟨_, rfl⟩
  have hget : v1.cands.get c = (v.cands.get c).heard (heardEntry h b v.now) v.now := by
    rw [hv1]; exact Trio.get_set_same _ _ _
  obtain ⟨p, hp, hbest, hmin⟩ :=
    bestOrigin_spec (hearOrigin_ne_nil (heardEntry h b v.now) (v.cands.get c).origins)
  refine ⟨p, hp, hmin, _, rfl, ?_⟩
  have hrevised := reviseRing_eq (t := t) (c := c) (v := v1) (p := p) (by rw [hget]; exact hbest)
  rw [hget] at hrevised
  have hset : ∀ r, v1.cands.set c r = v.cands.set c r := fun r => by rw [hv1]; exact Trio.set_set _ _ _ _
  have hnow : v1.now = v.now := by rw [hv1]; rfl
  rw [hset, hnow] at hrevised
  obtain ⟨x, hx⟩ : ∃ x, x = (((v.cands.get c).heard (heardEntry h b v.now) v.now).preferring p).ruled
    (t.cand.get c).qualify v.now := ⟨_, rfl⟩
  obtain ⟨_, hlast, _, _, hpref⟩ := (((v.cands.get c).heard (heardEntry h b v.now) v.now).preferring p).ruled_keeps
    (t.cand.get c).qualify v.now
  rw [← hx] at hrevised hlast hpref ⊢
  have hservo : ({ (if ((v.cands.get c).heard (heardEntry h b v.now) v.now).Displaced p then rearm v1 else v1) with
      cands := v.cands.set c x } : Live) =
      { (if ((v.cands.get c).heard (heardEntry h b v.now) v.now).Displaced p then rearm v else v) with
        cands := v.cands.set c x } := by
    split
    · rw [rearm_eq, rearm_eq v, hv1, (rearm_reads v v.manual _ v.selection).1]
    · rw [hv1]
  rw [hservo] at hrevised
  have hunfold : hearEpoch t c h b theta v =
      if ((reviseRing t c v1).cands.get c).preferred = some h.origin then
        (true, (reviseRing t c v1).mapCand c
          (fun r => { r with last := some (theta, (reviseRing t c v1).ts.value.sec) }))
      else (false, reviseRing t c v1) := by rw [hv1]; rfl
  have hpref' : ((reviseRing t c v1).cands.get c).preferred = some p.id := by
    rw [hrevised]
    dsimp only
    rw [Trio.get_set_same, hpref]
    rfl
  have hvalue : (if ((v.cands.get c).heard (heardEntry h b v.now) v.now).Displaced p then rearm v else v).ts = v.ts := by
    split
    · rw [rearm_eq]
    · rfl
  rw [hunfold, hpref']
  by_cases hid : p.id = h.origin
  · rw [if_pos (congrArg some hid), if_pos hid, decide_eq_true hid, hrevised]
    simp only [Live.mapCand, Trio.get_set_same, Trio.set_set, hvalue]
  · have hkeeps : { x with last := (v.cands.get c).last } = x := by
      rw [show (v.cands.get c).last = x.last from hlast.symm]
    rw [if_neg (fun e => hid (Option.some.inj e)), if_neg hid, decide_eq_false hid, hrevised, hkeeps]

theorem interval_self (a : Stamp) : interval a a = 0 := by
  have hwrap : ∀ x : Int, wrapDiff x x = 0 := by
    intro x
    unfold wrapDiff
    dsimp only
    rw [sub_self, Int.zero_emod]
    exact if_pos wrapPs_pos
  unfold interval
  rw [hwrap, sub_self, sub_self]

theorem CandRec.heard_of_listening {r : CandRec} (h : r.state ≠ .unavailable) (e : OriginHeard) (now : Stamp) :
    r.heard e now = { r with origins := hearOrigin e r.origins } := by
  unfold CandRec.heard
  rw [if_neg h, if_neg h]

theorem CandRec.heard_of_unavailable {r : CandRec} (h : r.state = .unavailable) (e : OriginHeard) (now : Stamp) :
    r.heard e now = { r with
      origins := hearOrigin e r.origins, state := .qualifying, qual := some (Timer.start now) } := by
  unfold CandRec.heard
  rw [if_pos h, if_pos h]

theorem CandRec.heard_displaced {p e : OriginHeard} {now : Stamp} {r : CandRec} :
    (r.heard e now).Displaced p ↔ r.Displaced p := by
  have hstate : (r.heard e now).state = .selected ↔ r.state = .selected := by
    show (if r.state = .unavailable then CandState.qualifying else r.state) = _ ↔ _
    split
    · next h => rw [h]; decide
    · exact Iff.rfl
  exact and_congr_left fun _ => hstate

theorem exec_qualifyTimeReached {n : Nat} {s : State} {v : Live} {c : Cand} {tm : Timer} (hv : v = s.live.elapse n)
    (hs : (v.cands.get c).state = .qualifying) (htm : (v.cands.get c).qual = some tm)
    (hreach : ((s.tables.cand.get c).qualify : Int) * 1000000000000 ≤ tm.base + interval tm.since v.now) :
    exec (.qualifyTimeReached n c) s = .next (s.settled (if (v.cands.get c).offered = .q4 then v
      else { v with cands := v.cands.set c { v.cands.get c with state := .available, qual := none } })) := by
  have hq : qualified s.tables c v = true := by
    rw [qualified_of_timer htm]
    exact decide_eq_true hreach
  have hdue : qualifyDue c s.tables v = true := by rw [qualifyDue, decide_eq_true hs, hq]; rfl
  rw [← promote_qualified hs hq]
  exact congrArg Host.Outcome.next (State.timed_at hv (fun t v => promote t c v) hdue)

/-- Settles O22: the promotion, the expiry and the hearing, each through the revision of one record. -/
theorem candidatesQualifyAndExpire : Obligations.CandidatesQualifyAndExpire := by
  unfold Obligations.CandidatesQualifyAndExpire
  refine ⟨fun n s v hv => ⟨fun c tm hs htm hreach => ⟨fun hoff => ?_, fun hoff => ?_⟩, fun d o hmem hgap => ?_⟩,
    fun t c v r hr => ⟨fun hempty => ?_, fun hne => ?_⟩, fun t d h b theta v w r x formed e hhear hr hx he => ?_,
    fun c v r hr => ⟨fun h => ?_, fun hd hu => ?_⟩⟩
  · rw [exec_qualifyTimeReached hv hs htm hreach, if_neg hoff]
  · rw [exec_qualifyTimeReached hv hs htm hreach, if_pos hoff]
  · have hexec : exec (.originEntryExpiry n d o.id) s = .next (s.settled (expireOrigin s.tables d.cand o.id v)) :=
      congrArg Host.Outcome.next
        (State.timed_at hv (fun t v => expireOrigin t d.cand o.id v) (originDue_of_mem hmem hgap))
    obtain ⟨hgone, hlast⟩ := expireOrigin_record (t := s.tables) (c := d.cand) hgap
    have hfollows := finish_follows s.tables d.cand (expireOrigin s.tables d.cand o.id v)
    refine ⟨hexec, _, hexec, rfl, rfl, fun hin => ?_, fun honly hd hu => ?_, hfollows.last.trans hlast, ?_⟩
    · rcases hfollows.origins with h | h
      · exact hgone (h ▸ hin)
      · exact List.not_mem_nil (h ▸ hin)
    · obtain ⟨hstate, hoff⟩ := expireOrigin_last_entry (t := s.tables) hgap honly hd hu
      obtain ⟨hstate', hoff'⟩ := hfollows.unavailable hstate
      exact ⟨hstate', hoff' hoff⟩
    · rw [State.settled_live, finish_value, (expireOrigin_alters _ _ _ _).value]
  · subst hr
    exact reviseRing_empty hempty
  · subst hr
    obtain ⟨p, hp, hbest, hmin⟩ := bestOrigin_spec hne
    refine ⟨p, hp, hmin, fun x u y hx hu hy => ?_⟩
    have hxp : x = (v.cands.get c).preferring p := hx
    have hyx : y = { (if (v.cands.get c).Displaced p then rearm v else v) with cands := v.cands.set c x } := by
      rw [hy, hu]
      split
      · rw [rearm_eq, rearm_eq v, (rearm_reads v v.manual (v.cands.set c x) v.selection).1]
      · rfl
    have hrevised := reviseRing_eq (t := t) hbest
    rw [← hxp] at hrevised
    have hwith : ∀ z : CandRec, ({ y with cands := v.cands.set c z } : Live) =
        { (if (v.cands.get c).Displaced p then rearm v else v) with cands := v.cands.set c z } := by
      intro z; rw [hyx]
    have hstate : x.state = (v.cands.get c).state := by rw [hxp]; rfl
    have hqual : x.qual = (v.cands.get c).qual := by rw [hxp]; rfl
    refine ⟨fun ha => ⟨fun hoff => ?_, fun hoff => ?_⟩, fun tm hs htm => ⟨fun hreach hoff => ?_, fun hnot => ?_⟩,
      fun hrest => ?_⟩
    · rw [hrevised, CandRec.ruled_of_available_q4 (by rw [hstate]; exact ha) hoff, hwith]
    · rw [hrevised, CandRec.ruled_of_available (by rw [hstate]; exact ha) hoff, hyx]
    · rw [hrevised, CandRec.ruled_of_qualified (hstate.trans hs) (hqual.trans htm) hreach hoff, hwith]
    · rw [hrevised, CandRec.ruled_of_not_qualified (hstate.trans hs) (hqual.trans htm) hnot, hyx]
    · rw [hrevised, CandRec.ruled_of_rest (by rw [hstate, hqual]; exact hrest), hyx]
  · subst hr
    obtain ⟨p, hp, hmin, y, hy, heq⟩ := hearEpoch_eq t d.cand h b theta v
    rw [show heardEntry h b v.now = e from he.symm] at hp hmin hy heq
    obtain ⟨horigins, _, hoffered, hhops, hpref⟩ :=
      (((v.cands.get d.cand).heard e v.now).preferring p).ruled_keeps (t.cand.get d.cand).qualify v.now
    rw [← hy] at horigins hoffered hhops hpref
    rw [heq] at hhear
    obtain ⟨hformed, hw⟩ := Prod.mk.inj hhear
    have hxy : x = { y with
        last := if p.id = h.origin then some (theta, v.ts.value.sec) else (v.cands.get d.cand).last } := by
      rw [hx, ← hw]
      exact Trio.get_set_same _ _ _
    have hid : e.id = h.origin := by rw [he]
    have hxorigins : x.origins = hearOrigin e (v.cands.get d.cand).origins := by rw [hxy]; exact horigins
    have hservo : w.servo = (if (v.cands.get d.cand).Displaced p then rearm v else v).servo := by
      rw [← hw]
      simp only [CandRec.heard_displaced]
    have hruled : y = (((v.cands.get d.cand).heard e v.now).preferring p).ruled
        (t.cand.get d.cand).qualify v.now := hy
    obtain ⟨x0, hx0⟩ : ∃ x0, x0 = ((v.cands.get d.cand).heard e v.now).preferring p := ⟨_, rfl⟩
    have hlistening : (v.cands.get d.cand).state ≠ .unavailable →
        x0.state = (v.cands.get d.cand).state ∧ x0.qual = (v.cands.get d.cand).qual := by
      intro hlisten
      rw [hx0, CandRec.heard_of_listening hlisten]
      exact ⟨rfl, rfl⟩
    rw [← hx0] at hruled hoffered
    have hxs : x.state = y.state ∧ x.qual = y.qual ∧ x.offered = y.offered := by rw [hxy]; exact ⟨rfl, rfl, rfl⟩
    obtain ⟨hxstate, hxqual, hxoff⟩ := hxs
    refine ⟨fun a o z hl ho hothers => ?_, fun hnone => ?_, ⟨p, ?_, ?_, ?_, ?_, ?_, fun hs hq => ?_, fun hs => ?_,
      hformed.symm, ?_⟩, fun hs hq => ?_, fun tm hs htm => ?_, fun ha => ?_, ?_, ?_⟩
    · rw [hxorigins, hl]
      exact hearOrigin_refreshes (ho.trans hid.symm) (by rw [hid]; exact hothers)
    · rw [hxorigins]
      exact hearOrigin_adds (by rw [hid]; exact hnone)
    · rw [hxorigins]; exact hp
    · rw [hxorigins]; exact hmin
    · rw [hxy]; exact hpref
    · rw [hxy]; exact hhops
    · rw [hxy, show y.offered = _ from hoffered, hx0]; rfl
    · obtain ⟨q, hq, hne⟩ := hq
      rw [hservo, if_pos ⟨hs, by rw [hq]; exact Option.some_ne_none q, by
        rw [hq]; exact fun h => hne (Option.some.inj h)⟩]
    · rw [hservo, if_neg]
      rintro ⟨h1, h2, h3⟩
      rcases hs with h | h | h
      · exact h h1
      · exact h2 h
      · exact h3 h
    · rw [hxy]
    · have hs0 : x0.state = .qualifying ∧ x0.qual = some (Timer.start v.now) := by
        rw [hx0, CandRec.heard_of_unavailable hs]
        exact ⟨rfl, rfl⟩
      have hshort : ((Timer.start v.now).base : Int) + interval (Timer.start v.now).since v.now <
          ((t.cand.get d.cand).qualify : Int) * 1000000000000 := by
        show ((0 : Nat) : Int) + interval v.now v.now < _
        rw [interval_self]
        omega
      rw [hxstate, hxqual, hruled, CandRec.ruled_of_not_qualified hs0.1 hs0.2 (.inl hshort)]
      exact hs0
    · obtain ⟨hs0, hq0⟩ := hlistening (by rw [hs]; decide)
      refine ⟨fun hreach hoff => ?_, fun hnot => ?_⟩
      · rw [hxoff, hoffered] at hoff
        rw [hxstate, hxqual, hruled, CandRec.ruled_of_qualified (hs0.trans hs) (hq0.trans htm) hreach hoff]
        exact ⟨rfl, rfl⟩
      · rw [hxoff, hoffered] at hnot
        rw [hxstate, hxqual, hruled, CandRec.ruled_of_not_qualified (hs0.trans hs) (hq0.trans htm) hnot]
        exact ⟨hs0.trans hs, hq0.trans htm⟩
    · obtain ⟨hs0, hq0⟩ := hlistening (by rcases ha with ha | ha <;> rw [ha] <;> decide)
      rw [← hs0] at ha
      refine ⟨fun hoff => ?_, fun hoff => ?_⟩ <;> rw [hxoff, hoffered] at hoff
      · rw [hxstate, hxqual, hruled, CandRec.ruled_of_available_q4 ha hoff]
        exact ⟨rfl, rfl⟩
      · rw [hxstate, hxqual, hruled, CandRec.ruled_of_available ha hoff]
        exact ⟨hs0, hq0⟩
    · rw [← hw]
      dsimp only
      split
      · rw [rearm_eq]
      · rfl
    · rw [← hw]
      dsimp only
      split
      · rw [rearm_eq]
      · rfl
  · subst hr
    exact loseInput_idle h
  · subst hr
    exact loseInput_loses hd hu

end Sys2Proof.Machine
end

section
/-! The hard resets: what the part is after POWER_ON and RESETN (R188, R190). -/

namespace Sys2Proof.Machine

theorem Reset.live_cands (t : Tables) (io : Ports) (guard fault : Bool) (c : Cand) :
    (Reset.live t io guard fault).cands.get c = Reset.cand (candEnabled t c) := by
  cases c <;> simp [Reset.live, Trio.get, candEnabled]

theorem Reset.live_span (t : Tables) (io : Ports) (guard fault : Bool) (d : Side) :
    (Reset.live t io guard fault).span d = Reset.span := by
  cases d <;> rfl

theorem Reset.live_access (t : Tables) (io : Ports) (guard fault : Bool) (i : Fin 4) :
    (Reset.live t io guard fault).access.get i = Reset.access := by
  fin_cases i <;> rfl

theorem Store.interrupt_running {st : Store} (h : st.commit = none) : st.interrupt = st.image := by
  simp [Store.interrupt, h]

theorem Store.interrupt_lost {st : Store} (h : st.image = none ∨ st.commit ≠ none) : st.interrupt = none := by
  rcases h with h | h
  · simp [Store.interrupt, h]
  · exact if_pos (Option.isSome_iff_ne_none.mpr h)

theorem Store.interrupt_isSome (st : Store) : st.interrupt.isSome = (st.image.isSome && st.commit.isNone) := by
  unfold Store.interrupt
  cases st.commit <;> simp

theorem Store.interrupt_isNone (st : Store) : st.interrupt.isNone = (st.image.isNone || st.commit.isSome) := by
  unfold Store.interrupt
  cases st.commit <;> simp

theorem Store.interrupt_eq (st : Store) : st.interrupt = if st.commit = none then st.image else none := by
  unfold Store.interrupt
  cases st.commit <;> simp

theorem Store.afterPower_eq (st : Store) :
    st.afterPower = if st.commit = none then none else some .interrupted := by
  unfold Store.afterPower
  cases st.commit <;> simp

theorem Store.afterPin_eq (st : Store) :
    st.afterPin = if st.commit = none then st.lastCommit else some .interrupted := by
  unfold Store.afterPin
  cases st.commit <;> simp

theorem allOpen_get (m : TableName) : allOpen.get m = .opened := by cases m <;> rfl

section
variable (tables : Tables) (locks : PerTable Lock) (kept : Bool) (last : Option CommitResult) (s : State)

theorem State.load_cands (c : Cand) :
    (s.load tables locks kept last).live.cands.get c = Reset.cand (candEnabled tables c) :=
  Reset.live_cands tables (s.live.io.map freshPort) s.live.guard s.store.interrupt.isNone c

theorem State.load_span (d : Side) : (s.load tables locks kept last).live.span d = Reset.span :=
  Reset.live_span tables (s.live.io.map freshPort) s.live.guard s.store.interrupt.isNone d

theorem State.load_access (i : Fin 4) : (s.load tables locks kept last).live.access.get i = Reset.access :=
  Reset.live_access tables (s.live.io.map freshPort) s.live.guard s.store.interrupt.isNone i

theorem State.load_port (p : Port) :
    (s.load tables locks kept last).live.port p = Reset.port (s.live.port p).link := Ports.map_get _ _ _

end

/-- Settles O4: the loaded part by its blocks, and the store by whether it holds an image. -/
theorem powerOnLoadsTheStore : Obligations.PowerOnLoadsTheStore := by
  unfold Obligations.PowerOnLoadsTheStore
  intro n s
  refine ⟨(s.elapse n).powerOn, rfl, rfl, rfl, rfl, rfl, rfl, rfl, rfl, rfl, rfl, rfl, rfl, rfl, rfl, rfl,
    State.load_cands _ _ _ _ (s.elapse n), State.load_span _ _ _ _ (s.elapse n),
    State.load_access _ _ _ _ (s.elapse n), rfl, State.load_port _ _ _ _ (s.elapse n), rfl, rfl, rfl, rfl, Store.interrupt_isSome s.store, Store.afterPower_eq s.store,
    fun i hi hc => ?_, fun hno => ?_⟩
  · have himage : s.store.interrupt = some i := (Store.interrupt_running hc).trans hi
    refine ⟨?_, ?_, ?_, himage⟩
    · exact congrArg (loadTables s.tables.node.serial) himage
    · exact congrArg loadLocks himage
    · exact congrArg Option.isNone himage
  · have himage : s.store.interrupt = none := Store.interrupt_lost hno
    refine ⟨?_, fun m => ?_, ?_, himage⟩
    · exact congrArg (loadTables s.tables.node.serial) himage
    · exact (congrArg (fun i => (loadLocks i).get m) himage).trans (allOpen_get m)
    · exact congrArg Option.isNone himage

theorem keepDown_other (old new : PerTable Lock) (m : TableName) (h : old.get m ≠ .lockedDown) :
    (keepDown old new).get m = new.get m := by
  cases m <;> exact if_neg h

/-- A table that is not LOCKED-DOWN takes the loaded contents, those of the same unit. -/
theorem reloaded_agreeOn_image {locks : PerTable Lock} {old img : Tables} {m : TableName}
    (h : locks.get m ≠ .lockedDown) (hserial : img.node.serial = old.node.serial) :
    Tables.agreeOn m (reloaded locks old img) img = true := by
  have hnode : { img.node with serial := old.node.serial } = img.node := by rw [← hserial]
  cases m with
  | node => exact decide_eq_true ((if_neg h).trans hnode)
  | _ => exact decide_eq_true (if_neg h)

/-- Settles O5: the loaded part by its blocks, and each table by its lock and the image. -/
theorem resetPinKeepsLockedDownTables : Obligations.ResetPinKeepsLockedDownTables := by
  unfold Obligations.ResetPinKeepsLockedDownTables
  intro n s
  refine ⟨(s.elapse n).resetPin, rfl, rfl, rfl, rfl, rfl, rfl, rfl, rfl, rfl, rfl, rfl, rfl, rfl, rfl, rfl,
    State.load_cands _ _ _ _ (s.elapse n), State.load_span _ _ _ _ (s.elapse n),
    State.load_access _ _ _ _ (s.elapse n), rfl, State.load_port _ _ _ _ (s.elapse n), rfl, rfl, rfl, rfl, Store.interrupt_isNone s.store, Store.interrupt_eq s.store,
    Store.interrupt_isSome s.store, Store.afterPin_eq s.store, fun m hm => ?_, fun m i hm hi hc => ?_,
    fun m hm hno => ?_⟩
  · exact ⟨keepDown_lockedDown _ _ m hm, reloaded_agreeOn _ _ _ m hm⟩
  · have himage : s.store.interrupt = some i := (Store.interrupt_running hc).trans hi
    refine ⟨(keepDown_other _ _ m hm).trans (congrArg (fun i => (loadLocks i).get m) himage), ?_⟩
    show Tables.agreeOn m (reloaded s.locks s.tables (loadTables s.tables.node.serial s.store.interrupt)) _ = true
    rw [himage]
    exact reloaded_agreeOn_image hm rfl
  · have himage : s.store.interrupt = none := Store.interrupt_lost hno
    refine ⟨(keepDown_other _ _ m hm).trans
      ((congrArg (fun i => (loadLocks i).get m) himage).trans (allOpen_get m)), ?_⟩
    show Tables.agreeOn m (reloaded s.locks s.tables (loadTables s.tables.node.serial s.store.interrupt)) _ = true
    rw [himage]
    exact reloaded_agreeOn_image hm rfl

end Sys2Proof.Machine
end

section
/-! The ports: levels, the insert queues with their drop rule, the arbiter, and the fields completed at the transmit
instant (R81, R87 to R91, R95, R124). -/

namespace Sys2Proof.Machine

/-! ## One port changed twice -/

theorem Pair.set_set {α : Type} (p : Pair α) (d : Side) (x y : α) : (p.set d x).set d y = p.set d y := by
  cases d <;> rfl

theorem Quad.set_set {α : Type} (q : Quad α) (i : Fin 4) (x y : α) : (q.set i x).set i y = q.set i y := by
  fin_cases i <;> rfl

theorem Ports.set_set (p : Ports) (q : Port) (x y : PortIO) : (p.set q x).set q y = p.set q y := by
  cases q <;> simp [Ports.set, Pair.set_set, Quad.set_set]

theorem Live.mapPort_mapPort (v : Live) (p : Port) (f g : PortIO → PortIO) :
    (v.mapPort p f).mapPort p g = v.mapPort p (fun x => g (f x)) := by
  simp only [Live.mapPort, Ports.get_set_same, Ports.set_set]

@[simp] theorem Live.mapPort_port (v : Live) (p : Port) (f : PortIO → PortIO) : (v.mapPort p f).port p = f (v.port p) :=
  Ports.get_set_same _ _ _

theorem onTransmit_port (p r : Port) (q : QFrame) (v : Live) : (onTransmit p q v).port r = v.port r := by
  have hprobe : ∀ b, (probeSent p b v).port r = v.port r := by
    intro b
    unfold probeSent
    split
    · split <;> rfl
    · rfl
    · rfl
  have hroll : ∀ seq rev, (rollSent seq rev v).port r = v.port r := by
    intro seq rev
    unfold rollSent
    split
    · dsimp only
      split <;> rfl
    · rfl
  unfold onTransmit
  split
  · exact hprobe _
  · exact hroll _ _
  all_goals rfl

theorem noteLost_port (removed : Bool) (p r : Port) (q : QFrame) (v : Live) :
    (noteLost removed p q v).port r = v.port r := by
  unfold noteLost
  split
  · split <;> rfl
  all_goals rfl

/-! ## Levels (R87, R89, R90) -/

theorem lineLevel_eq (b : Body) : lineLevel b = (match b with
    | .epoch _ => 1
    | .probe _ => 2
    | .reply _ _ _ => 2
    | .roll _ => 3
    | .config _ => 4
    | _ => 5) := by
  cases b <;> rfl

theorem level_site (d : Side) (b : Body) : level (.site d) b = (match b with
    | .response _ => 1
    | _ => 2) := by
  cases b <;> rfl

theorem level_access (i : Fin 4) (b : Body) : level (.access i) b = (match b with
    | .epoch _ => 1
    | _ => 2) := by
  cases b <;> rfl

theorem level_le_five (p : Port) (b : Body) : level p b ≤ 5 := by
  cases p with
  | line d => exact (lineLevel_eq b).trans_le (by cases b <;> simp)
  | site d => exact (level_site d b).trans_le (by cases b <;> simp)
  | access i => exact (level_access i b).trans_le (by cases b <;> simp)

/-- A fold of maxima lies within a bound where its start and its items do. -/
theorem foldl_max_le {α : Type} (f : α → Nat) (k : Nat) : ∀ (l : List α) (a : Nat),
    l.foldl (fun a x => max a (f x)) a ≤ k ↔ a ≤ k ∧ ∀ x ∈ l, f x ≤ k
  | [], a => by simp
  | y :: l, a => by
    rw [List.foldl_cons, foldl_max_le f k l, List.forall_mem_cons, max_le_iff, and_assoc]

/-- A bound lies within a fold of minima where it lies within its start and its items. -/
theorem le_foldl_min {α : Type} (f : α → Nat) (k : Nat) : ∀ (l : List α) (a : Nat),
    k ≤ l.foldl (fun a x => min a (f x)) a ↔ k ≤ a ∧ ∀ x ∈ l, k ≤ f x
  | [], a => by simp
  | y :: l, a => by
    rw [List.foldl_cons, le_foldl_min f k l, List.forall_mem_cons, le_min_iff, and_assoc]

theorem worstLevel_le (p : Port) (l : List QFrame) (k : Nat) :
    worstLevel p l ≤ k ↔ ∀ x ∈ l, level p x.frame.body ≤ k := by
  unfold worstLevel
  rw [foldl_max_le]
  exact and_iff_right (Nat.zero_le k)

theorem le_bestLevel (p : Port) (l : List QFrame) (k : Nat) :
    k ≤ bestLevel p l ↔ k ≤ 6 ∧ ∀ x ∈ l, k ≤ level p x.frame.body := le_foldl_min _ k l 6

/-- A frame of the largest level in a queue has the queue's worst level. -/
theorem worstLevel_eq {p : Port} {l : List QFrame} {old : QFrame} (hmem : old ∈ l)
    (hmax : ∀ x ∈ l, level p x.frame.body ≤ level p old.frame.body) : worstLevel p l = level p old.frame.body :=
  Nat.le_antisymm ((worstLevel_le p l _).mpr hmax) ((worstLevel_le p l _).mp (Nat.le_refl _) old hmem)

/-- A frame of the smallest level in a queue has the queue's most urgent level. -/
theorem bestLevel_eq {p : Port} {l : List QFrame} {q : QFrame} (hmem : q ∈ l)
    (hmin : ∀ x ∈ l, level p q.frame.body ≤ level p x.frame.body) : bestLevel p l = level p q.frame.body := by
  have hsix : level p q.frame.body ≤ 6 := Nat.le_succ_of_le (level_le_five p _)
  exact Nat.le_antisymm (((le_bestLevel p l _).mp (Nat.le_refl _)).2 q hmem)
    ((le_bestLevel p l _).mpr ⟨hsix, hmin⟩)

theorem splitFirst_append {α : Type} {f : α → Bool} {y : α} (hy : f y = true) (b : List α) :
    ∀ {a : List α}, (∀ x ∈ a, f x = false) → splitFirst f (a ++ y :: b) = some (y, a ++ b)
  | [], _ => if_pos hy
  | x :: a, h => by
    obtain ⟨hx, ha⟩ := List.forall_mem_cons.mp h
    rw [List.cons_append, splitFirst, if_neg (by rw [hx]; exact Bool.false_ne_true), splitFirst_append hy b ha]
    rfl

theorem splitLast_append {α : Type} {f : α → Bool} {y : α} (hy : f y = true) (a : List α) {b : List α}
    (h : ∀ x ∈ b, f x = false) : splitLast f (a ++ y :: b) = some (y, a ++ b) := by
  have hrev : (a ++ y :: b).reverse = b.reverse ++ y :: a.reverse := by simp
  rw [splitLast, hrev, splitFirst_append hy a.reverse (fun x hx => h x (List.mem_reverse.mp hx))]
  simp

/-! ## The arbiter (R87) -/

theorem grant_busy {p : Port} {v : Live} (h : (v.port p).sending.isSome = true) : grant p v = v := if_pos (.inr h)

theorem grant_idle {p : Port} {v : Live} (hl : (v.port p).link = true) (hs : (v.port p).sending = none) :
    grant p v = match splitFirst (fun x => level p x.frame.body == bestLevel p (v.port p).queue) (v.port p).queue with
      | some (q, rest) => onTransmit p (complete v.now q)
          (v.mapPort p (fun x => { x with queue := rest, sending := some (.own (complete v.now q)) }))
      | none => match (v.port p).through with
        | f :: fs => v.mapPort p (fun x => { x with through := fs, sending := some (.through f) })
        | [] => v := by
  refine if_neg ?_
  rw [hl, hs]
  simp

/-- The oldest frame of the most urgent level goes. -/
theorem grant_own {p : Port} {v : Live} {a b : List QFrame} {q : QFrame} (hl : (v.port p).link = true)
    (hs : (v.port p).sending = none) (hq : (v.port p).queue = a ++ q :: b)
    (ha : ∀ x ∈ a, level p q.frame.body < level p x.frame.body)
    (hb : ∀ x ∈ b, level p q.frame.body ≤ level p x.frame.body) :
    grant p v = onTransmit p (complete v.now q)
      (v.mapPort p (fun x => { x with queue := a ++ b, sending := some (.own (complete v.now q)) })) := by
  have hbest : bestLevel p (a ++ q :: b) = level p q.frame.body := by
    refine bestLevel_eq (List.mem_append_right _ List.mem_cons_self) fun x hx => ?_
    rcases List.mem_append.mp hx with hx | hx
    · exact Nat.le_of_lt (ha x hx)
    · rcases List.mem_cons.mp hx with rfl | hx
      · exact Nat.le_refl _
      · exact hb x hx
  have hsplit : splitFirst (fun x => level p x.frame.body == bestLevel p (a ++ q :: b)) (a ++ q :: b) =
      some (q, a ++ b) := by
    rw [hbest]
    exact splitFirst_append (f := fun x => level p x.frame.body == level p q.frame.body) (beq_self_eq_true _) b
      (fun x hx => beq_eq_false_iff_ne.mpr (Nat.ne_of_gt (ha x hx)))
  rw [grant_idle hl hs, hq, hsplit]

/-- A through frame goes only where no own frame waits. -/
theorem grant_through {p : Port} {v : Live} {f : RawFrame} {r : List RawFrame} (hl : (v.port p).link = true)
    (hs : (v.port p).sending = none) (hq : (v.port p).queue = []) (ht : (v.port p).through = f :: r) :
    grant p v = v.mapPort p (fun x => { x with through := r, sending := some (.through f) }) := by
  rw [grant_idle hl hs, hq, ht]
  rfl

/-! ## The hand-over (R81, R88, R90) -/

theorem hand_linkDown {p : Port} {v : Live} (h : (v.port p).link = false) (q : QFrame) :
    hand p q v = noteLost false p q (insertDrop p v) := if_pos h

theorem hand_room {p : Port} {v : Live} (hl : (v.port p).link = true)
    (hroom : (v.port p).queue.length < capacity p) (q : QFrame) :
    hand p q v = grant p (v.mapPort p (fun x => { x with queue := x.queue ++ [q] })) :=
  (if_neg (by rw [hl]; decide)).trans (if_pos hroom)

/-- A full access queue drops the newcomer, and so does a full queue that holds nothing less urgent. -/
theorem hand_full {p : Port} {v : Live} {q : QFrame} (hl : (v.port p).link = true)
    (hfull : capacity p ≤ (v.port p).queue.length)
    (hkeep : (∃ i, p = .access i) ∨ ∀ x ∈ (v.port p).queue, level p x.frame.body ≤ level p q.frame.body) :
    hand p q v = noteLost false p q (insertDrop p v) := by
  have hworst : (∀ i, p ≠ .access i) → worstLevel p (v.port p).queue ≤ level p q.frame.body := by
    intro hp
    rcases hkeep with ⟨i, hi⟩ | hkeep
    · exact absurd hi (hp i)
    · exact (worstLevel_le p _ _).mpr hkeep
  unfold hand
  dsimp only
  rw [if_neg (by rw [hl]; decide), if_neg (Nat.not_lt.mpr hfull)]
  cases p with
  | access i => rfl
  | line d => exact if_pos (hworst (fun i h => by cases h))
  | site d => exact if_pos (hworst (fun i h => by cases h))

/-- A full line or site queue gives up the youngest frame of its largest level for a more urgent one. -/
theorem hand_sheds {p : Port} {v : Live} {q old : QFrame} {a b : List QFrame} (hl : (v.port p).link = true)
    (hfull : capacity p ≤ (v.port p).queue.length) (hp : ∀ i, p ≠ .access i) (hq : (v.port p).queue = a ++ old :: b)
    (hmax : ∀ x ∈ (v.port p).queue, level p x.frame.body ≤ level p old.frame.body)
    (hb : ∀ x ∈ b, level p x.frame.body < level p old.frame.body)
    (hless : level p q.frame.body < level p old.frame.body) :
    hand p q v = grant p (noteLost true p old (v.mapPort p (fun x => { x with
      queue := a ++ b ++ [q], insertDrops := bump x.insertDrops }))) := by
  have hworst : worstLevel p (v.port p).queue = level p old.frame.body :=
    worstLevel_eq (by rw [hq]; exact List.mem_append_right _ List.mem_cons_self) hmax
  have hsplit : splitLast (fun x => level p x.frame.body == level p old.frame.body) (v.port p).queue =
      some (old, a ++ b) := by
    rw [hq]
    exact splitLast_append (f := fun x => level p x.frame.body == level p old.frame.body) (beq_self_eq_true _) a
      (fun x hx => beq_eq_false_iff_ne.mpr (Nat.ne_of_lt (hb x hx)))
  have hdrop : ∀ r : List QFrame, insertDrop p (v.mapPort p (fun x => { x with queue := r })) =
      v.mapPort p (fun x => { x with queue := r, insertDrops := bump x.insertDrops }) :=
    fun r => Live.mapPort_mapPort v p _ _
  unfold hand
  dsimp only
  rw [if_neg (by rw [hl]; decide), if_neg (Nat.not_lt.mpr hfull)]
  cases p with
  | access i => exact absurd rfl (hp i)
  | line d =>
    dsimp only
    rw [hworst, if_neg (Nat.not_le.mpr hless), hsplit]
    dsimp only
    rw [hdrop]
  | site d =>
    dsimp only
    rw [hworst, if_neg (Nat.not_le.mpr hless), hsplit]
    dsimp only
    rw [hdrop]

theorem noteLost_roll {q : QFrame} {seq : Seq16} {rev : Bool} (h : q.note = .roll seq rev) (removed : Bool) (p : Port)
    (v : Live) : noteLost removed p q v = { v with losses := v.losses ++ [.roll seq rev] } := by
  simp only [noteLost, h]

theorem noteLost_restart {q : QFrame} (h : q.note = .restart) (removed : Bool) (p : Port) (v : Live) :
    noteLost removed p q v = { v with restartDue := true } := by
  simp only [noteLost, h]

theorem noteLost_probe {q : QFrame} (h : q.note = .probe) (p : Port) (v : Live) :
    noteLost true p q v = { v with losses := v.losses ++ probeLoss p } := by
  simp only [noteLost, h, if_true]

/-- A frame that nobody waits for is lost without more. -/
theorem noteLost_plain {q : QFrame} {removed : Bool} (hroll : ∀ seq rev, q.note ≠ .roll seq rev)
    (hrestart : q.note ≠ .restart) (hprobe : removed = false ∨ q.note ≠ .probe) (p : Port) (v : Live) :
    noteLost removed p q v = v := by
  unfold noteLost
  split
  · next h =>
    rcases hprobe with rfl | hprobe
    · rfl
    · exact absurd h hprobe
  · next h => exact absurd h (hroll _ _)
  · next h => exact absurd h hrestart
  all_goals rfl

/-- Settles O28: the hand-over by the link, the room and the levels. -/
theorem fullQueueShedsTheLessUrgent : Obligations.FullQueueShedsTheLessUrgent := by
  unfold Obligations.FullQueueShedsTheLessUrgent
  refine ⟨fun d i b => ⟨rfl, rfl, rfl, lineLevel_eq b, level_site d b, level_access i b⟩, fun p q v =>
    ⟨fun w hl hroom hw => ⟨fun hbusy => ?_, fun hidle => ?_, fun hidle hempty => ?_⟩, fun w hw hdrop => ?_,
    fun old a b hl hfull hp hbusy hq hmax hb hless => ?_,
    fun old a b y z hl hfull hp hq hmax hb hless hy hprobe hroll hrestart hplain => ?_⟩⟩
  · have hbusy' : (w.port p).sending.isSome = true := by rw [hw, Live.mapPort_port]; exact hbusy
    rw [hand_room hl hroom, ← hw, grant_busy hbusy']
  · rw [hand_room hl hroom, ← hw]
  · have hport : w.port p = { v.port p with queue := [q] } := by rw [hw, Live.mapPort_port, hempty]; rfl
    have hgrant := grant_own (a := []) (b := []) (q := q) (p := p) (v := w) (by rw [hport]; exact hl)
      (by rw [hport]; exact hidle) (by rw [hport]; rfl) (by simp) (by simp)
    have hnow : w.now = v.now := by rw [hw]; rfl
    rw [hand_room hl hroom, ← hw, hgrant, onTransmit_port, Live.mapPort_port, hport, hnow]
    exact ⟨rfl, rfl, rfl⟩
  · have hhand : hand p q v = noteLost false p q w := by
      rw [hw]
      rcases hdrop with hl | ⟨hl, hfull, hkeep⟩
      · exact hand_linkDown hl q
      · exact hand_full hl hfull hkeep
    have hlosses : w.losses = v.losses := by rw [hw]; rfl
    rw [hhand, noteLost_port]
    refine ⟨by rw [hw, Live.mapPort_port], by rw [hw, Live.mapPort_port], fun seq rev hn => ?_, fun hn => ?_,
      fun hr hs => ?_⟩
    · rw [noteLost_roll hn, hlosses]
    · exact noteLost_restart hn _ _ _
    · exact noteLost_plain hr hs (.inl rfl) p w
  · have hport := hand_sheds hl hfull hp hq hmax hb hless
    rw [grant_busy (by rw [noteLost_port, Live.mapPort_port]; exact hbusy)] at hport
    rw [hport, noteLost_port, Live.mapPort_port]
    exact ⟨rfl, rfl⟩
  · have hz : noteLost true p old y = z := by
      have hlosses : y.losses = v.losses := by rw [hy]; rfl
      cases hn : old.note with
      | probe =>
        rw [noteLost_probe hn, hlosses]
        cases p with
        | line d => exact (hprobe d hn rfl).symm
        | site d =>
          rw [hplain (.inl ⟨hn, fun e he => by cases he⟩), probeLoss, List.append_nil, ← hlosses]
        | access i => exact absurd rfl (hp i)
      | roll seq rev => rw [noteLost_roll hn, hlosses, hroll seq rev hn]
      | restart => rw [noteLost_restart hn, hrestart hn]
      | _ =>
        have hrest : old.note ≠ .probe ∧ (∀ seq rev, old.note ≠ .roll seq rev) ∧ old.note ≠ .restart := by
          rw [hn]; simp
        rw [hplain (.inr hrest), noteLost_plain hrest.2.1 hrest.2.2 (.inr hrest.1)]
    have hport : (z.port p).sending = (v.port p).sending := by
      rw [← hz, noteLost_port, hy, Live.mapPort_port]
    have hhand := hand_sheds hl hfull hp hq hmax hb hless
    rw [show v.mapPort p (fun x => { x with queue := a ++ b ++ [q], insertDrops := bump x.insertDrops }) = y from
      hy.symm, hz] at hhand
    exact ⟨fun _ => hhand, fun hbusy => by rw [hhand, grant_busy (by rw [hport]; exact hbusy)]⟩

end Sys2Proof.Machine
end

section
/-! The transmit instant and the links: completed fields, what a frame's owner records, the grant of an idle
transmitter (R81, R87, R91, R95, R111, R124, R128, R162, R191). -/

namespace Sys2Proof.Machine

theorem clampInt_eq {lo hi : Int} (h : lo ≤ hi) (x : Int) : clampInt lo hi x = max lo (min hi x) := by
  unfold clampInt
  split
  · next hlt => rw [max_eq_left ((min_le_right hi x).trans hlt.le)]
  · next hge =>
    split
    · next hgt => rw [min_eq_left hgt.le, max_eq_right h]
    · next hle => rw [min_eq_right (not_lt.mp hle), max_eq_right (not_lt.mp hge)]

/-- The nanosecond part of a picosecond count modulo the wrap. -/
theorem toNs_ofPs_toPs {m : Int} (h0 : 0 ≤ m) (h1 : m < (wrapPs : Nat)) :
    (((toNs (TimeValue.ofPs m.toNat)).toPs : Nat) : Int) = m / 1000 * 1000 := by
  have htotal : (TimeValue.ofPs m.toNat).toPs = m.toNat := by
    rw [TimeValue.toPs_ofPs]
    exact Nat.mod_eq_of_lt ((Int.toNat_lt h0).mpr h1)
  have hwf := TimeValue.ofPs_wf m.toNat
  rw [TimeValue.wf, Bool.and_eq_true, decide_eq_true_iff] at hwf
  have hps := hwf.2
  obtain ⟨x, hx⟩ : ∃ x, x = (TimeValue.ofPs m.toNat).sec * 1000000000 + (TimeValue.ofPs m.toNat).ns := ⟨_, rfl⟩
  have hsplit : x * 1000 + (TimeValue.ofPs m.toNat).ps = m.toNat := by rw [hx]; exact htotal
  have hns : (toNs (TimeValue.ofPs m.toNat)).toPs = x * 1000 := by rw [hx]; rfl
  rw [hns]
  omega

theorem TimeValue.wf_iff (x : TimeValue) : x.wf = true ↔
    (x.sec < 1099511627776 ∧ x.ns < 1000000000) ∧ x.ps < 1000 := by
  rw [TimeValue.wf, Bool.and_eq_true, Bool.and_eq_true, decide_eq_true_iff, decide_eq_true_iff, decide_eq_true_iff]

theorem complete_orig {q : QFrame} {b : EpochBody} (hn : q.note = .origEpoch) (hb : q.frame.body = .epoch b)
    (now : Stamp) : complete now q =
      { q with frame := { q.frame with body := .epoch { b with time := toNs now.time } } } := by
  unfold complete
  rw [hn]
  dsimp only
  rw [hb]
  rfl

theorem complete_fwd {q : QFrame} {b : EpochBody} {x : Int} {rx : Stamp} (hn : q.note = .fwdEpoch x rx)
    (hb : q.frame.body = .epoch b) (now : Stamp) : complete now q =
      { q with frame := { q.frame with body := .epoch { b with corr := correctionOut x rx now b.corr } } } := by
  unfold complete
  rw [hn]
  dsimp only
  rw [hb]
  rfl

theorem complete_reply {q : QFrame} {seq : Seq16} {t2 t3 : NsTime} {rx : Stamp} (hn : q.note = .reply rx)
    (hb : q.frame.body = .reply seq t2 t3) (now : Stamp) : complete now q = { q with frame := { q.frame with
      body := .reply seq t2 (toNs (TimeValue.ofPs (((t2.toPs : Int) + interval rx now) % (wrapPs : Int)).toNat)) } } := by
  unfold complete
  rw [hn]
  dsimp only
  rw [hb]
  rfl

theorem complete_other {q : QFrame}
    (h : q.note = .plain ∨ q.note = .probe ∨ q.note = .restart ∨ ∃ x y, q.note = .roll x y) (now : Stamp) :
    complete now q = q := by
  unfold complete
  rcases h with h | h | h | ⟨x, y, h⟩ <;> rw [h]

/-! ## What the owners record -/

theorem ownSent_restart {q : QFrame} (h : q.note = .restart) (p : Port) (v : Live) :
    ownSent p q v = { v with restartDue := true } := if_pos (decide_eq_true h)

theorem ownSent_eq {q : QFrame} (h : q.note ≠ .restart) (p : Port) (v : Live) :
    ownSent p q v = countEpochSent p q.frame.body v :=
  if_neg (by rw [isRestartNote, decide_eq_true_iff]; exact h)

/-- Nothing but an access EPOCH is counted at the end of its transmission. -/
theorem countEpochSent_other {p : Port} {b : Body} (h : (∀ i, p ≠ .access i) ∨ ∀ e, b ≠ .epoch e) (v : Live) :
    countEpochSent p b v = v := by
  cases p with
  | line d => rfl
  | site d => rfl
  | access i =>
    rcases h with h | h
    · exact absurd rfl (h i)
    · cases b with
      | epoch e => exact absurd rfl (h e)
      | _ => rfl

theorem onTransmit_probe {q : QFrame} {seq : Seq16} (hn : q.note = .probe) (hb : q.frame.body = .probe seq) (d : Side)
    (v : Live) : onTransmit (.line d) q v = v.mapSpan d (fun s =>
      if s.state = .down then s else { s with outstanding := some { seq := seq, t1 := v.now, since := v.osc } }) := by
  unfold onTransmit
  rw [hn]
  dsimp only
  rw [hb]
  rfl

theorem onTransmit_roll {q : QFrame} {seq : Seq16} {rev : Bool} (h : q.note = .roll seq rev) (p : Port) (v : Live) :
    onTransmit p q v = rollSent seq rev v := by
  unfold onTransmit
  rw [h]

theorem onTransmit_other {q : QFrame} (hp : q.note ≠ .probe) (hr : ∀ seq rev, q.note ≠ .roll seq rev) (p : Port)
    (v : Live) : onTransmit p q v = v := by
  unfold onTransmit
  split
  · next h => exact absurd h hp
  · next h => exact absurd h (hr _ _)
  all_goals rfl

theorem rollSent_cycle {v : Live} {c : Cycle} {seq : Seq16} {rev : Bool} (hc : v.roll.cycle = some c)
    (hs : c.seq = seq) (hr : c.rev = rev) : rollSent seq rev v = { v with roll := { v.roll with
      cycle := some { c with sentAt := some v.now, firstSent := some (c.firstSent.getD v.now) } } } := by
  unfold rollSent
  rw [hc]
  exact if_pos ⟨hs, hr⟩

theorem rollSent_other {v : Live} {seq : Seq16} {rev : Bool}
    (h : ∀ c, v.roll.cycle = some c → ¬ (c.seq = seq ∧ c.rev = rev)) : rollSent seq rev v = v := by
  unfold rollSent
  split
  · next c hc => exact if_neg (h c hc)
  · rfl

/-! ## Spans changed and left -/

theorem Live.mapSpan_congr (v : Live) (d : Side) {f g : Span → Span} (h : f (v.span d) = g (v.span d)) :
    v.mapSpan d f = v.mapSpan d g := by
  unfold Live.span at h
  simp only [Live.mapSpan, h]

theorem Live.mapSpan_self (v : Live) (d : Side) {f : Span → Span} (h : f (v.span d) = v.span d) :
    v.mapSpan d f = v := by
  unfold Live.span at h
  simp only [Live.mapSpan, h, Pair.set_get]

theorem takeSent_own {p : Port} {v : Live} {q : QFrame} (h : (v.port p).sending = some (.own q)) :
    takeSent p v = grant p ((ownSent p q v).mapPort p (fun x => { x with sending := none })) := by
  simp only [takeSent, h]

theorem takeSent_through {p : Port} {v : Live} {f : RawFrame} (h : (v.port p).sending = some (.through f)) :
    takeSent p v = grant p (v.mapPort p (fun x => { x with sending := none })) := by
  simp only [takeSent, h]

/-- Settles O30: the completed fields, the grant, and what the owners record. -/
theorem idleTransmitterTakesTheMostUrgent : Obligations.IdleTransmitterTakesTheMostUrgent := by
  unfold Obligations.IdleTransmitterTakesTheMostUrgent
  refine ⟨fun q now => ⟨fun b hn hb => complete_orig hn hb now, fun b x rx hn hb => ?_, fun seq t2 t3 rx hn hb => ?_,
    fun h => complete_other h now⟩, fun n p s v hv => ⟨?_, fun q hq => ?_, fun f hf => ?_,
      fun a q b hl hs hq ha hb => ?_, fun f r hl hs hq ht => ?_, fun q hn => ownSent_restart hn p v,
      fun q hn => ⟨fun i b hp hb => ?_, fun h => ?_⟩, fun q d seq hn hp hb => ⟨fun hdown => ?_, fun hup => ?_⟩,
      fun q seq rev hn => ⟨fun c hc hseq hrev => ?_, fun h => ?_⟩, fun q hp hr => onTransmit_other hp hr p v⟩⟩
  · rw [complete_fwd hn hb, correctionOut, clampInt_eq (by decide)]
  · have hpos : (0 : Int) ≤ ((t2.toPs : Int) + interval rx now) % (wrapPs : Int) :=
      Int.emod_nonneg _ (ne_of_gt wrapPs_pos)
    have hlt : ((t2.toPs : Int) + interval rx now) % (wrapPs : Int) < (wrapPs : Nat) :=
      Int.emod_lt_of_pos _ wrapPs_pos
    have hwf := (TimeValue.wf_iff _).mp
      (TimeValue.ofPs_wf (((t2.toPs : Int) + interval rx now) % (wrapPs : Int)).toNat)
    exact ⟨_, complete_reply hn hb now, hwf.1.1, hwf.1.2, toNs_ofPs_toPs hpos hlt⟩
  · exact congrArg Host.Outcome.next (State.act_at hv (fun _ v => takeLinkUp p v))
  · exact congrArg Host.Outcome.next ((State.act_at hv (fun _ v => takeSent p v)).trans
      (State.settled_congr s (takeSent_own hq)))
  · exact congrArg Host.Outcome.next ((State.act_at hv (fun _ v => takeSent p v)).trans
      (State.settled_congr s (takeSent_through hf)))
  · have hgrant := grant_own hl hs hq ha hb
    refine ⟨hgrant, ?_, ?_, ?_⟩ <;> rw [hgrant, onTransmit_port, Live.mapPort_port]
  · rw [grant_through hl hs hq ht, Live.mapPort_port]
    exact ⟨rfl, rfl⟩
  · rw [ownSent_eq hn, hp, hb]
    rfl
  · rw [ownSent_eq hn, countEpochSent_other h]
  · rw [hp, onTransmit_probe hn hb]
    exact Live.mapSpan_self v d (if_pos hdown)
  · rw [hp, onTransmit_probe hn hb]
    exact Live.mapSpan_congr v d (if_neg hup)
  · rw [onTransmit_roll hn, rollSent_cycle hc hseq hrev]
  · rw [onTransmit_roll hn, rollSent_other h]

end Sys2Proof.Machine
end

section
/-! Arriving frames: the checks of R82, the classification of R83 to R86, and the answers to probes (R97, R161). -/

namespace Sys2Proof.Machine

/-! ## The checks of R82 -/

theorem verdict_overrun {t : Tables} {v : Live} {p : Port} {f : RawFrame} (h : 9600 < frameLength f) :
    verdict t v p f = .overrun := if_pos h

theorem verdict_short {t : Tables} {v : Live} {p : Port} {f : RawFrame} (h : frameLength f < 64) :
    verdict t v p f = .short := (if_neg (by omega)).trans (if_pos h)

theorem verdict_fcs {t : Tables} {v : Live} {p : Port} {f : RawFrame} (hmin : 64 ≤ frameLength f)
    (hmax : frameLength f ≤ 9600) (h : f.fcsOk = false) : verdict t v p f = .fcs :=
  (if_neg (Nat.not_lt.mpr hmax)).trans ((if_neg (Nat.not_lt.mpr hmin)).trans (if_pos h))

theorem verdict_checked {t : Tables} {v : Live} {p : Port} {f : RawFrame} (hmin : 64 ≤ frameLength f)
    (hmax : frameLength f ≤ 9600) (h : f.fcsOk = true) : verdict t v p f = classify t v p f :=
  (if_neg (Nat.not_lt.mpr hmax)).trans ((if_neg (Nat.not_lt.mpr hmin)).trans (if_neg (by rw [h]; decide)))

/-! ## The classification -/

theorem vendorType_running {t : Tables} {v : Live} (h : v.part = .running) (ft : BitVec 16) :
    vendorType t v ft = true ↔ ft = t.node.ftype := by
  unfold vendorType
  rw [h]
  exact decide_eq_true_iff

theorem vendorType_loading {t : Tables} {v : Live} (h : v.part = .loading) (ft : BitVec 16) :
    vendorType t v ft = true ↔ ft = 0x88B5#16 ∨ v.nodeKept = true ∧ ft = t.node.ftype := by
  unfold vendorType
  rw [h]
  simp only [Bool.or_eq_true, Bool.and_eq_true, decide_eq_true_eq]
  rfl

/-- A frame of another type passes at a line or site port. -/
theorem classify_foreign {t : Tables} {v : Live} {p : Port} {f : RawFrame} (h : ¬ vendorType t v f.ftype = true)
    (hp : ∀ i, p ≠ .access i) : classify t v p f = .through := by
  unfold classify
  rw [if_neg h]
  cases p with
  | access i => exact absurd rfl (hp i)
  | line d => rfl
  | site d => rfl

/-- A frame of another type is discarded at an access port. -/
theorem classify_foreign_access {t : Tables} {v : Live} {i : Fin 4} {f : RawFrame}
    (h : ¬ vendorType t v f.ftype = true) : classify t v (.access i) f = .silent := by
  unfold classify
  rw [if_neg h]

theorem classify_loading {t : Tables} {v : Live} {p : Port} {f : RawFrame} (hpart : v.part = .loading)
    (h : vendorType t v f.ftype = true) : classify t v p f = .silent := by
  unfold classify
  rw [if_pos h, hpart]

theorem classify_running {t : Tables} {v : Live} {p : Port} {f : RawFrame} (hpart : v.part = .running)
    (h : f.ftype = t.node.ftype) : classify t v p f = (match p with
      | .line _ => classifyLine t.node.ringId f.payload
      | .site _ => classifySite t.node.ringId f.payload
      | .access _ => classifyAccess f.payload) := by
  unfold classify
  rw [if_pos ((vendorType_running hpart _).mpr h), hpart] <;> rfl

/-- A frame of another ring passes at a line or site port. -/
theorem classify_otherRing {t : Tables} {v : Live} {p : Port} {f : RawFrame} (hpart : v.part = .running)
    (h : f.ftype = t.node.ftype) (hp : ∀ i, p ≠ .access i) (hring : field 2 1 f.payload ≠ t.node.ringId) :
    classify t v p f = .through := by
  rw [classify_running hpart h]
  cases p with
  | access i => exact absurd rfl (hp i)
  | line d => exact if_pos hring
  | site d => exact if_pos hring

/-- A frame of this ring that does not parse is malformed. -/
theorem classify_malformed {t : Tables} {v : Live} {p : Port} {f : RawFrame} (hpart : v.part = .running)
    (h : f.ftype = t.node.ftype) (hp : ∀ i, p ≠ .access i) (hring : field 2 1 f.payload = t.node.ringId)
    (hparse : parseFrame f.payload = none) : classify t v p f = .malformed := by
  rw [classify_running hpart h]
  cases p with
  | access i => exact absurd rfl (hp i)
  | line d =>
    dsimp only
    rw [classifyLine, if_neg (not_not_intro hring), hparse]
  | site d =>
    dsimp only
    rw [classifySite, if_neg (not_not_intro hring), hparse]

/-- A frame of this ring whose kind has no owner at its port is misdirected. -/
theorem classify_misdirected {t : Tables} {v : Live} {p : Port} {f : RawFrame} {g : Frame} (hpart : v.part = .running)
    (h : f.ftype = t.node.ftype) (hring : field 2 1 f.payload = t.node.ringId) (hparse : parseFrame f.payload = some g)
    (hkind : (∃ d, p = .line d) ∧ g.body.kind = 8 ∨ (∃ d, p = .site d) ∧ g.body.kind ≠ 6) :
    classify t v p f = .misdirected := by
  rw [classify_running hpart h]
  rcases hkind with ⟨⟨d, rfl⟩, hk⟩ | ⟨⟨d, rfl⟩, hk⟩
  · dsimp only
    rw [classifyLine, if_neg (not_not_intro hring), hparse]
    dsimp only
    split
    · rfl
    · next hother =>
      cases hb : g.body with
      | notice b => exact absurd hb (hother b)
      | _ => rw [hb] at hk; cases hk
  · dsimp only
    rw [classifySite, if_neg (not_not_intro hring), hparse]
    dsimp only
    split
    · next hb => rw [hb] at hk; exact absurd rfl hk
    · rfl

/-- An access port takes nothing but a SPAN-PROBE. -/
theorem classify_access {t : Tables} {v : Live} {i : Fin 4} {f : RawFrame} (hpart : v.part = .running)
    (h : f.ftype ≠ t.node.ftype ∨ parseFrame f.payload = none ∨
      ∃ g, parseFrame f.payload = some g ∧ g.body.kind ≠ 2) : classify t v (.access i) f = .silent := by
  by_cases hft : f.ftype = t.node.ftype
  · rw [classify_running hpart hft]
    rcases h with h | h | ⟨g, h, hk⟩
    · exact absurd hft h
    · dsimp only
      rw [classifyAccess, h]
    · dsimp only
      rw [classifyAccess, h]
      dsimp only
      split
      · next hb => rw [hb] at hk; exact absurd rfl hk
      · rfl
  · exact classify_foreign_access (mt (vendorType_running hpart _).mp hft)

/-- What R83 and R86 let pass toward the other port of a pair. -/
theorem classify_passes {t : Tables} {v : Live} {p : Port} {f : RawFrame} (hp : ∀ i, p ≠ .access i)
    (h : v.part = .running ∧ (f.ftype ≠ t.node.ftype ∨ field 2 1 f.payload ≠ t.node.ringId) ∨
      v.part = .loading ∧ f.ftype ≠ 0x88B5#16 ∧ (v.nodeKept = true → f.ftype ≠ t.node.ftype)) :
    classify t v p f = .through := by
  rcases h with ⟨hpart, h⟩ | ⟨hpart, hft, hkept⟩
  · by_cases hft : f.ftype = t.node.ftype
    · exact classify_otherRing hpart hft hp (h.resolve_left (not_not_intro hft))
    · exact classify_foreign (mt (vendorType_running hpart _).mp hft) hp
  · refine classify_foreign (fun hv => ?_) hp
    rcases (vendorType_loading hpart _).mp hv with h | ⟨hk, h⟩
    · exact hft h
    · exact hkept hk h

/-! ## The through buffer (R80) -/

theorem throughTo_not_access {p q : Port} (h : throughTo p = some q) (i : Fin 4) : p ≠ .access i := by
  rintro rfl
  cases h

theorem passThrough_joins {p q : Port} {f : RawFrame} {v : Live} (hto : throughTo p = some q)
    (hl : (v.port q).link = true) (hroom : throughUsed (v.port q) + frameLength f ≤ 16384) :
    passThrough p f v = grant q (v.mapPort q (fun x => { x with through := x.through ++ [f] })) := by
  unfold passThrough
  rw [hto]
  exact if_pos ⟨hl, hroom⟩

theorem passThrough_drops {p q : Port} {f : RawFrame} {v : Live} (hto : throughTo p = some q)
    (h : (v.port q).link = false ∨ 16384 < throughUsed (v.port q) + frameLength f) :
    passThrough p f v = v.mapPort q (fun x => { x with throughDrops := bump x.throughDrops }) := by
  unfold passThrough
  rw [hto]
  refine if_neg fun ⟨hl, hroom⟩ => ?_
  rcases h with h | h
  · rw [h] at hl; cases hl
  · exact absurd hroom (Nat.not_le.mpr h)

/-! ## Discarded frames (R82) -/

/-- A port other than LE and LW counts none of the errors of R82. -/
theorem discardFrame_uncounted {p : Port} {d : Verdict} (hp : ∀ e, p ≠ .line e)
    (hd : d = .overrun ∨ d = .short ∨ d = .fcs) (t : Tables) (v : Live) : discardFrame t p d v = v := by
  cases p with
  | line e => exact absurd rfl (hp e)
  | site e => rcases hd with rfl | rfl | rfl <;> rfl
  | access i => rcases hd with rfl | rfl | rfl <;> rfl

theorem exec_arrival {c : Instr} {n : Nat} {p : Port} {a : Arrival} {g : RawFrame}
    (h : arrivalOf c = some (n, p, a, g)) (s : State) : exec c s = .next ((s.elapse n).receive p a g) := by
  cases c <;> simp only [arrivalOf, reduceCtorEq, Option.some.injEq, Prod.mk.injEq] at h <;>
    (obtain ⟨rfl, rfl, rfl, rfl⟩ := h; rfl)

/-- A discarded frame leaves what the receive checks make of the blocks. -/
theorem exec_discards {n : Nat} {p : Port} {rx : Stamp} {f : RawFrame} {s : State} {v w : Live} {d : Verdict}
    (hv : v = s.arrived n p) (hrx : s.receiving p rx = true) (h : verdict s.tables s.live p f = d)
    (hthrough : d ≠ .through) (hclaimed : ∀ q, d ≠ .claimed q) (hw : discardFrame s.tables p d v = w) :
    exec (.frameReceiveDiscard n p .ends f) s = .next (s.settled w) := by
  rw [exec_arrival rfl s, State.receive_discarded hv hrx h hthrough hclaimed, hw]

/-- Settles O34: the receive instant, the checks in their order, and the classes of frame. -/
theorem framesPassOrAreDiscarded : Obligations.FramesPassOrAreDiscarded := by
  unfold Obligations.FramesPassOrAreDiscarded
  refine fun n via p rx f s v hv => ⟨fun c a g hc => exec_arrival hc s, fun hl => ?_, fun h => ?_, fun hrx =>
    ⟨fun q hvia hto hmin hmax hfcs hclass => ?_, fun d hp => ⟨fun h => ?_, fun h => ?_, fun hmin hmax hfcs => ?_⟩,
      fun hp hbad => ?_, fun hmin hmax hfcs hpart => ⟨fun i hp h => ?_, fun hp hft hring =>
        ⟨fun hparse => ?_, fun g hparse hkind => ?_⟩⟩, fun hmin hmax hfcs hpart hft => ?_⟩⟩
  · exact congrArg Host.Outcome.next (State.receive_begins f hl)
  · refine congrArg Host.Outcome.next ?_
    rcases h with h | h
    · exact State.receive_down .ends f h
    · exact State.receive_unbegun f h
  · have hverdict : verdict s.tables s.live p f = .through :=
      (verdict_checked hmin hmax hfcs).trans (classify_passes (throughTo_not_access hto) hclass)
    have hexec : exec (.throughFrameArrival n via .ends f) s = .next (s.settled (passThrough p f v)) := by
      rw [exec_arrival rfl s, ← hvia]
      exact congrArg Host.Outcome.next (State.receive_through hv hrx hverdict)
    exact ⟨fun hl hroom => by rw [hexec, passThrough_joins hto hl hroom], fun h => by
      rw [hexec, passThrough_drops hto h]; rfl⟩
  · rw [hp] at hv hrx ⊢
    exact exec_discards hv hrx (verdict_overrun h) (by simp) (by simp) rfl
  · rw [hp] at hv hrx ⊢
    exact exec_discards hv hrx (verdict_short h) (by simp) (by simp) rfl
  · rw [hp] at hv hrx ⊢
    exact exec_discards hv hrx (verdict_fcs hmin hmax hfcs) (by simp) (by simp) rfl
  · obtain ⟨d, hd, hverdict⟩ : ∃ d, (d = .overrun ∨ d = .short ∨ d = .fcs) ∧ verdict s.tables s.live p f = d := by
      by_cases hlong : 9600 < frameLength f
      · exact ⟨_, .inl rfl, verdict_overrun hlong⟩
      · by_cases hshort : frameLength f < 64
        · exact ⟨_, .inr (.inl rfl), verdict_short hshort⟩
        · have hfcs : f.fcsOk = false := (hbad.resolve_left hlong).resolve_left hshort
          exact ⟨_, .inr (.inr rfl), verdict_fcs (Nat.not_lt.mp hshort) (Nat.not_lt.mp hlong) hfcs⟩
    have hkind : d ≠ .through ∧ ∀ q, d ≠ .claimed q := by rcases hd with rfl | rfl | rfl <;> simp
    exact exec_discards hv hrx hverdict hkind.1 hkind.2 (discardFrame_uncounted hp hd _ _)
  · have hverdict : verdict s.tables s.live p f = .silent := by
      rw [verdict_checked hmin hmax hfcs, hp]
      exact classify_access hpart h
    exact exec_discards hv hrx hverdict (by simp) (by simp) rfl
  · exact exec_discards hv hrx
      ((verdict_checked hmin hmax hfcs).trans (classify_malformed hpart hft hp hring hparse)) (by simp) (by simp) rfl
  · exact exec_discards hv hrx
      ((verdict_checked hmin hmax hfcs).trans (classify_misdirected hpart hft hring hparse hkind)) (by simp) (by simp) rfl
  · have hverdict := (verdict_checked (t := s.tables) (v := s.live) (p := p) hmin hmax hfcs).trans
      (classify_loading hpart ((vendorType_loading hpart _).mpr hft))
    exact exec_discards hv hrx hverdict (by simp) (by simp) rfl

/-! ## Answered probes -/

theorem answerAccessProbe_unanswered {i : Fin 4} {v : Live}
    (h : (v.access.get i).state = .off ∨ (v.access.get i).state = .squelched) (t : Tables) (rx : Stamp) (hd : Header)
    (seq : Seq16) :
    answerAccessProbe t i rx hd seq v = v.mapAccess i (fun a => { a with unanswered := bump a.unanswered }) := by
  unfold answerAccessProbe
  rcases h with h | h <;> rw [h]

/-- Settles O32: a probe claimed at a line port is answered, and at an access port as its state says. -/
theorem probesAreAnswered : Obligations.ProbesAreAnswered := by
  unfold Obligations.ProbesAreAnswered
  refine fun n rx f h seq s => ⟨fun d v hv hc => ?_, fun i v hv hc => ⟨fun hstate => ?_, fun hstate => ?_⟩⟩
  · exact ⟨_, rfl, rfl, rfl, rfl, rfl, congrArg Host.Outcome.next (State.receive_claimed hv hc)⟩
  · have hanswer : ∃ r : Header, r.ring = h.ring ∧ r.seq = h.seq ∧ r.sender = s.tables.node.id ∧
        r.target = h.sender ∧ r.looped = false ∧ answerAccessProbe s.tables i rx h seq v = (hand (.access i)
          (mkFrame s.tables r (.reply seq (toNs rx.time) (toNs rx.time)) (.reply rx)) v).mapAccess i
            (fun a => { a with replies := min 65535 (a.replies + 1) }) := by
      unfold answerAccessProbe
      rcases hstate with hstate | hstate <;> rw [hstate] <;>
        refine ⟨_, ?_, ?_, ?_, ?_, ?_, rfl⟩ <;> rfl
    obtain ⟨r, hring, hseq, hsender, htarget, hlooped, heq⟩ := hanswer
    exact ⟨r, hring, hseq, hsender, htarget, hlooped, congrArg Host.Outcome.next
      ((State.receive_claimed hv hc).trans (State.settled_congr s heq))⟩
  · exact congrArg Host.Outcome.next ((State.receive_claimed hv hc).trans
      (State.settled_congr s (answerAccessProbe_unanswered hstate _ _ _ _)))

end Sys2Proof.Machine
end

section
/-! The epoch engine's arrivals (R107 to R110), and the expiry of a head's entry and of the duplicate flag (R131,
R132). -/

namespace Sys2Proof.Machine

/-! ## The checks of R107 -/

theorem takeEpoch_notUp {d : Side} {v : Live} (h : (v.span d).state ≠ .up) (t : Tables) (rx : Stamp) (hd : Header)
    (b : EpochBody) :
    takeEpoch t d rx hd b v = { v with epoch := { v.epoch with notUp := bumpSide v.epoch.notUp d } } :=
  if_pos ((Live.spanIs_false v d .up).mpr h)

/-- Past the first check, the other three and what passes them. -/
theorem takeEpoch_up {d : Side} {v : Live} (h : (v.span d).state = .up) (t : Tables) (rx : Stamp) (hd : Header)
    (b : EpochBody) : takeEpoch t d rx hd b v =
      (if hd.rev ≠ d.inRev then { v with epoch := { v.epoch with wrongDir := bumpSide v.epoch.wrongDir d } }
      else if hd.origin = t.node.id then { v with epoch := { v.epoch with ownOrigin := bump v.epoch.ownOrigin } }
      else if hd.hops = 31 then { v with epoch := { v.epoch with hopLimit := bump v.epoch.hopLimit } }
      else epochPasses t d rx hd b v) :=
  if_neg (by rw [(Live.spanIs_iff v d .up).mpr h]; decide)

/-- What a claimed EPOCH leaves. -/
theorem exec_epoch {n : Nat} {d : Side} {rx : Stamp} {f : RawFrame} {h : Header} {b : EpochBody} {s : State}
    {v w : Live} (hv : v = s.arrived n (.line d))
    (hc : claimedAs s (.line d) rx f { hdr := h, body := .epoch b } = true) (hw : takeEpoch s.tables d rx h b v = w) :
    exec (.epochArrival n d .ends f) s = .next (s.settled w) :=
  congrArg Host.Outcome.next ((State.receive_claimed hv hc).trans (State.settled_congr s hw))

/-- Settles O35: each check with its counter, in the order of R107. -/
theorem epochChecksInOrder : Obligations.EpochChecksInOrder := by
  unfold Obligations.EpochChecksInOrder
  refine fun n d rx f h b s v hv hc => ⟨fun hup => ?_, fun hup hrev => ?_, fun hup hrev horigin => ?_,
    fun hup hrev horigin hhops => ?_⟩
  · exact exec_epoch hv hc (takeEpoch_notUp hup _ _ _ _)
  · exact exec_epoch hv hc ((takeEpoch_up hup _ _ _ _).trans (if_pos hrev))
  · exact exec_epoch hv hc ((takeEpoch_up hup _ _ _ _).trans
      ((if_neg (not_not_intro hrev)).trans (if_pos horigin)))
  · exact exec_epoch hv hc ((takeEpoch_up hup _ _ _ _).trans
      ((if_neg (not_not_intro hrev)).trans ((if_neg horigin).trans (if_pos hhops))))

/-! ## The forward and the sample (R108 to R110) -/

/-- The watches of a standby are all that an EPOCH of the primary moves before it is forwarded. -/
theorem watchPrimary_eq (t : Tables) (h : Header) (b : EpochBody) (v : Live) : ∃ tk rv,
    watchPrimary t h b v = { v with epoch := { v.epoch with takeover := tk, revert := rv } } := by
  unfold watchPrimary
  split
  · split
    · split
      · exact ⟨_, _, rfl⟩
      · exact ⟨_, _, rfl⟩
    · split
      · exact ⟨_, _, rfl⟩
      · exact ⟨_, _, rfl⟩
  · exact ⟨_, _, rfl⟩

/-- What the candidate of a port makes of an EPOCH that has been forwarded (R109, R110, R44). -/
def hearForwarded (t : Tables) (d : Side) (h : Header) (b : EpochBody) (theta : Int) (v : Live) : Live :=
  if (v.cands.get d.cand).state = .disabled then v
  else
    let r := hearEpoch t d.cand h b theta v
    if r.1 then deliverSample t d.cand theta r.2 else r.2

theorem epochPasses_unnamed {t : Tables} {d : Side} {h : Header} (hn : namesOrigin t.ring h.origin = false)
    (rx : Stamp) (b : EpochBody) (v : Live) : epochPasses t d rx h b v =
      forwardEpoch t d rx (((v.span d).df).getD 0) h b
        { v with epoch := { v.epoch with unknownOrigin := bump v.epoch.unknownOrigin } } := if_pos hn

theorem epochPasses_named {t : Tables} {d : Side} {h : Header} (hn : namesOrigin t.ring h.origin = true)
    (rx : Stamp) (b : EpochBody) (v : Live) : epochPasses t d rx h b v =
      hearForwarded t d h b (epochOffset rx b (((v.span d).df).getD 0))
        (forwardEpoch t d rx (((v.span d).df).getD 0) h b (watchPrimary t h b v)) :=
  if_neg (by rw [hn]; decide)

theorem forwardEpoch_cands (t : Tables) (d : Side) (rx : Stamp) (df : Int) (h : Header) (b : EpochBody) (v : Live) :
    (forwardEpoch t d rx df h b v).cands = v.cands := (forwardEpoch_still t d rx df h b v).cands

/-- Settles O36: the forward, and the sample that the candidate of the port forms. -/
theorem epochIsForwardedAndHeard : Obligations.EpochIsForwardedAndHeard := by
  unfold Obligations.EpochIsForwardedAndHeard
  intro n d rx f h b s v u w x theta q hv hc hup hdf hrev horigin hhops htheta hq hu hw
  have htake : takeEpoch s.tables d rx h b v = epochPasses s.tables d rx h b v :=
    (takeEpoch_up hup _ _ _ _).trans
      ((if_neg (not_not_intro hrev)).trans ((if_neg horigin).trans (if_neg hhops)))
  have hdf' : ((v.span d).df).getD 0 = x := by rw [hdf]; rfl
  have htheta' : epochOffset rx b x = theta := htheta.symm
  have hforward : forwardEpoch s.tables d rx x h b u = w := by
    obtain ⟨e, he, hdrops⟩ : ∃ e, u = { v with epoch := e } ∧ e.fwdDrops = v.epoch.fwdDrops := by
      rw [hu]
      split
      · obtain ⟨tk, rv, heq⟩ := watchPrimary_eq s.tables h b v
        exact ⟨_, heq, rfl⟩
      · exact ⟨_, rfl, rfl⟩
    rw [hw]
    unfold forwardEpoch
    by_cases hdown : (v.span d.other).state = .down
    · rw [if_pos hdown, if_pos ((Live.spanIs_iff u d.other .down).mpr (by rw [he]; exact hdown)), bump, he, hdrops]
    · rw [if_neg hdown, if_neg, hq]
      intro hspan
      have := (Live.spanIs_iff u d.other .down).mp hspan
      rw [he] at this
      exact hdown this
  have hcands : w.cands = v.cands := by
    rw [← hforward, forwardEpoch_cands, hu]
    split
    · exact (watchPrimary_still _ _ _ _).cands
    · rfl
  refine ⟨fun hskip => ?_, fun formed y z hname hstate hhear hz => ?_⟩
  · refine exec_epoch hv hc (htake.trans ?_)
    by_cases hname : namesOrigin s.tables.ring h.origin = true
    · rw [epochPasses_named hname, hdf']
      rw [if_pos hname] at hu
      rw [← hu, hforward]
      refine if_pos ?_
      rw [hcands]
      exact hskip.resolve_left (by rw [hname]; decide)
    · rw [epochPasses_unnamed (Bool.not_eq_true _ ▸ hname), hdf']
      rw [if_neg hname] at hu
      rw [← hforward, hu]
      rfl
  · have hhears : epochPasses s.tables d rx h b v =
        if formed then deliverSample s.tables d.cand theta y else y := by
      rw [epochPasses_named hname, hdf', htheta']
      rw [if_pos hname] at hu
      rw [← hu, hforward]
      unfold hearForwarded
      rw [if_neg (by rw [hcands]; exact hstate), hhear]
    have hdeliver : deliverSample s.tables d.cand theta y =
        if z.selection = some d.cand then servoSample s.tables theta z else z := by
      rw [hz]
      rfl
    refine ⟨fun hf => ?_, fun hf hsel => ?_, fun hf hsel => ?_⟩
    · exact exec_epoch hv hc (htake.trans (hhears.trans (by rw [hf]; rfl)))
    · exact exec_epoch hv hc (htake.trans (hhears.trans (by rw [hf, hdeliver, if_neg hsel]; rfl)))
    · exact exec_epoch hv hc (htake.trans (hhears.trans (by rw [hf, hdeliver, if_pos hsel]; rfl)))

/-! ## Heads and duplicates that expire (R131, R132, R138) -/

theorem headExpired_iff (t : Tables) (now : Stamp) (h : HeadHeard) :
    headExpired t now h = true ↔ 3 * (t.ring.interval : Int) * 1000000000 ≤ interval h.heardAt now := by
  rw [headExpired, decide_eq_true_iff]

theorem statusWithoutHead_heads (v : Live) : (statusWithoutHead v).roll.heads = v.roll.heads := by
  unfold statusWithoutHead
  split <;> rfl

theorem expireHead_heads (t : Tables) (id : Nat) (v : Live) : (expireHead t id v).roll.heads =
    v.roll.heads.filter (fun h => !(h.id == id && headExpired t v.now h)) := statusWithoutHead_heads _

theorem statusWithoutHead_none {v : Live} (hactive : v.epoch.active = false) (hheads : v.roll.heads = []) :
    statusWithoutHead v = { v with roll := { v.roll with status := .unknown } } := if_pos ⟨hactive, hheads⟩

/-- Settles O43: the expiry of a head's entry and of the duplicate flag. -/
theorem headAndDuplicateExpire : Obligations.HeadAndDuplicateExpire := by
  unfold Obligations.HeadAndDuplicateExpire
  intro n s v hv
  refine ⟨fun o ho hgap => ?_, fun a ha hgap => ?_⟩
  · have hexpired : (o.id == o.id && headExpired s.tables v.now o) = true := by
      rw [beq_self_eq_true, Bool.true_and]
      exact (headExpired_iff _ _ _).mpr hgap
    have hexec : exec (.headEntryExpiry n o.id) s = .next (s.settled (expireHead s.tables o.id v)) :=
      congrArg Host.Outcome.next (State.timed_at hv (due := headDue o.id) (fun t v => expireHead t o.id v)
        (List.any_eq_true.mpr ⟨o, ho, hexpired⟩))
    refine ⟨⟨_, hexec, rfl, rfl, ?_, fun p hp hid => ?_, ?_⟩, fun honly hactive => ?_⟩
    · show o ∉ (finish s.tables _).roll.heads
      rw [finish_heads, expireHead_heads, List.mem_filter, hexpired]
      simp
    · show p ∈ (finish s.tables _).roll.heads
      rw [finish_heads, expireHead_heads, List.mem_filter, beq_eq_false_iff_ne.mpr hid]
      exact ⟨hp, rfl⟩
    · show (finish s.tables _).ts.value = _
      rw [finish_value]
      exact (expireHead_still _ _ _).value
    · have hempty : v.roll.heads.filter (fun h => !(h.id == o.id && headExpired s.tables v.now h)) = [] := by
        rw [honly, List.filter_cons_of_neg (by rw [hexpired]; decide), List.filter_nil]
      have hnone : expireHead s.tables o.id v = { v with roll := { v.roll with heads := [], status := .unknown } } := by
        unfold expireHead
        rw [hempty]
        exact statusWithoutHead_none (v := { v with roll := { v.roll with heads := [] } }) hactive rfl
      rw [hexec, hnone]
  · refine congrArg Host.Outcome.next (State.timed_at hv (due := duplicateExpired) (fun _ v => clearDuplicate v) ?_)
    unfold duplicateExpired
    rw [ha]
    exact decide_eq_true hgap

end Sys2Proof.Machine
end

section
/-! What can follow from an event, seen from the ports, the spans, the epoch engine and the roll sequence: a relation
whose steps are the hand-overs, the withdrawals, the probe timeouts and the takeover that `finish` may bring, and one
lemma for each operation that `finish` calls. What every step keeps is kept by all that follows. -/

namespace Sys2Proof.Machine

/-- The parts of the blocks that the steps of `Live.Flows` tell apart. -/
def Live.wires (v : Live) : Ports × Pair Span × Epoch × Seq16 × List Loss :=
  (v.io, v.spans, v.epoch, v.roll.seq, v.losses)

/-- One more probe timeout in a span's record (R96). -/
def Span.timedOut (s : Span) : Span :=
  { s with timeoutRun := min 3 (s.timeoutRun + 1), timeouts := bump s.timeouts }

/-- A span that has gone DOWN (R99). -/
def Span.atDown (s : Span) : Span := { s.toDown with state := .down }

/-- The second blocks stand after the first by steps that what follows from an event is made of. No probe is handed to
a port by any of them. -/
inductive Live.Flows : Live → Live → Prop
  | refl (v : Live) : v.Flows v
  | inside {u v w : Live} (h : u.Flows v) (hw : w.wires = v.wires) : u.Flows w
  | hand {u v : Live} (h : u.Flows v) (p : Port) (q : QFrame) (hnote : q.note ≠ .probe)
      (hbody : isProbeFrame q = false) : u.Flows (Sys2Proof.Machine.hand p q v)
  | withdraw {u v : Live} (h : u.Flows v) (i : Fin 4) (f : QFrame → Bool) :
      u.Flows (Sys2Proof.Machine.withdraw (.access i) f v)
  | takeover {u v w : Live} (h : u.Flows v) (hidle : v.epoch.active = false) (hactive : w.epoch.active = true)
      (hio : w.io = v.io) (hspans : w.spans = v.spans) (hlosses : w.losses = v.losses) : u.Flows w
  | drop {u v : Live} {l : Loss} {ls : List Loss} (h : u.Flows v) (hl : v.losses = l :: ls) :
      u.Flows { v with losses := ls }
  | timeout {u v : Live} {d : Side} {ls : List Loss} (h : u.Flows v) (hl : v.losses = .probe d :: ls) :
      u.Flows (Live.mapSpan { v with losses := ls } d Span.timedOut)
  | down {u v : Live} (h : u.Flows v) (d : Side) (hrun : (v.span d).timeoutRun = 3) :
      u.Flows (v.mapSpan d Span.atDown)

namespace Live.Flows

theorem trans {u v w : Live} (h : u.Flows v) (k : v.Flows w) : u.Flows w := by
  induction k with
  | refl => exact h
  | inside _ hw ih => exact ih.inside hw
  | hand _ p q hnote hbody ih => exact ih.hand p q hnote hbody
  | withdraw _ i f ih => exact ih.withdraw i f
  | takeover _ hidle hactive hio hspans hlosses ih => exact ih.takeover hidle hactive hio hspans hlosses
  | drop _ hl ih => exact ih.drop hl
  | timeout _ hl ih => exact ih.timeout hl
  | down _ d hrun ih => exact ih.down d hrun

/-- `trans` with the later change first. -/
theorem after {u v w : Live} (k : v.Flows w) (h : u.Flows v) : u.Flows w := h.trans k

/-- A change that the wires do not see. -/
theorem of_wires {v w : Live} (h : w.wires = v.wires) : v.Flows w := (refl v).inside h

end Live.Flows

/-- A frame handed to a port that is not a probe. -/
theorem hand_flows (p : Port) {q : QFrame} (v : Live) (hnote : q.note ≠ .probe) (hbody : isProbeFrame q = false) :
    v.Flows (hand p q v) := .hand (.refl v) p q hnote hbody

/-! ## The alarm unit -/

theorem mapPoint_flows (i : Nat) (f : Point → Point) (v : Live) : v.Flows (mapPoint i f v) := .of_wires rfl

theorem sendNotice_flows (t : Tables) (r : AlarmRecord) (d : Side) (v : Live) : v.Flows (sendNotice t r d v) :=
  (hand_flows _ _ (fun h => by cases h) rfl).after (.of_wires rfl)

theorem sendNotices_flows (t : Tables) (r : AlarmRecord) (v : Live) : v.Flows (sendNotices t r v) := by
  unfold sendNotices
  split
  · exact .refl v
  · exact sendNotice_flows _ _ _ _
  · exact sendNotice_flows _ _ _ _
  · exact .trans (sendNotice_flows _ _ _ _) (sendNotice_flows _ _ _ _)

theorem alarmEvent_flows (t : Tables) (i : Nat) (c : Bool) (sev : Severity) (v : Live) :
    v.Flows (alarmEvent t i c sev v) := by
  have summarised (w : Live) (h : v.Flows w) :
      v.Flows { w with alarms := { w.alarms with summary := severitySummary w.alarms.points } } := h.inside rfl
  unfold alarmEvent
  refine summarised _ ?_
  dsimp only
  split
  · refine (sendNotices_flows _ _ _).after ?_
    exact .of_wires rfl
  · exact .of_wires rfl

theorem raisePoint_flows (t : Tables) (i : Nat) (v : Live) : v.Flows (raisePoint t i v) :=
  .trans (mapPoint_flows _ _ _) (alarmEvent_flows _ _ _ _ _)

theorem clearPoint_flows (t : Tables) (i : Nat) (v : Live) : v.Flows (clearPoint t i v) := by
  unfold clearPoint
  split
  · exact .trans (mapPoint_flows _ _ _) (alarmEvent_flows _ _ _ _ _)
  · exact .refl v

theorem soakCheck_flows (t : Tables) (i : Nat) (v : Live) : v.Flows (soakCheck t i v) := by
  unfold soakCheck
  split
  · split
    · split
      · exact raisePoint_flows _ _ _
      · exact .refl v
    · split
      · exact clearPoint_flows _ _ _
      · exact .refl v
    · exact .refl v
  · exact .refl v

theorem handCondition_flows (t : Tables) (i : Nat) (b : Bool) (v : Live) : v.Flows (handCondition t i b v) := by
  unfold handCondition
  split
  · split
    · exact .refl v
    · split
      · exact .trans (mapPoint_flows _ _ _) (soakCheck_flows _ _ _)
      · exact mapPoint_flows _ _ _
      · exact .trans (mapPoint_flows _ _ _) (soakCheck_flows _ _ _)
      · exact mapPoint_flows _ _ _
      · exact mapPoint_flows _ _ _
  · exact .refl v

theorem handConditions_flows (t : Tables) (bs : List Bool) : ∀ (i : Nat) (v : Live),
    v.Flows (handConditions t i bs v) := by
  induction bs with
  | nil => exact fun _ v => .refl v
  | cons b bs ih => exact fun i v => .trans (handCondition_flows t i b v) (ih _ _)

theorem refreshAlarms_flows (t : Tables) (v : Live) : v.Flows (refreshAlarms t v) := by
  unfold refreshAlarms
  split
  · exact .refl v
  · exact handConditions_flows _ _ _ _

/-! ## The access unit and the selection -/

theorem withdrawOnEntry_flows (c : AccessCfg) (i : Fin 4) (st : AccessState) (v : Live) :
    v.Flows (withdrawOnEntry c i st v) := by
  unfold withdrawOnEntry
  split
  · exact .withdraw (.refl v) _ _
  · exact .withdraw (.refl v) _ _
  · split
    · exact .withdraw (.refl v) _ _
    · exact .refl v
  · exact .refl v

theorem judgeAccess_flows (t : Tables) (old new : QClass) (i : Fin 4) (v : Live) :
    v.Flows (judgeAccess t old new i v) := by
  unfold judgeAccess
  dsimp only
  split
  · exact .refl v
  · split
    · exact (withdrawOnEntry_flows _ _ _ _).after (.of_wires rfl)
    · exact .refl v
  · split
    · exact .of_wires rfl
    · split
      · exact .of_wires rfl
      · split
        · exact .of_wires rfl
        · exact .refl v

theorem judgeAll_flows (t : Tables) (old new : QClass) (v : Live) : v.Flows (judgeAll t old new v) :=
  (judgeAccess_flows _ _ _ _ _).after <| (judgeAccess_flows _ _ _ _ _).after <|
    (judgeAccess_flows _ _ _ _ _).after (judgeAccess_flows _ _ _ _ _)

theorem setClass_flows (t : Tables) (c : QClass) (v : Live) : v.Flows (setClass t c v) :=
  ((refreshAlarms_flows _ _).after (judgeAll_flows _ _ _ _)).after (.of_wires rfl)

theorem cancelManual_wires (v : Live) : (cancelManual v).wires = v.wires := by
  unfold cancelManual
  split
  · split <;> rfl
  · rfl

theorem leaveSelected_wires (o : Option Cand) (v : Live) : (leaveSelected o v).wires = v.wires := by cases o <;> rfl

theorem enterSelected_wires (n : Option Cand) (v : Live) : (enterSelected n v).wires = v.wires := by cases n <;> rfl

theorem enterAcquire_wires (t : Tables) (v : Live) : (enterAcquire t v).wires = v.wires := by
  unfold enterAcquire
  dsimp only
  split <;> rfl

theorem loseSelection_wires (t : Tables) (v : Live) : (loseSelection t v).wires = v.wires := by
  unfold loseSelection
  dsimp only
  split <;> rfl

theorem rearm_wires (v : Live) : (rearm v).wires = v.wires := by
  unfold rearm
  split <;> rfl

theorem handSelection_wires (t : Tables) (o n : Option Cand) (v : Live) :
    (handSelection t o n v).wires = v.wires := by
  cases o <;> cases n
  · rfl
  · exact enterAcquire_wires t v
  · exact loseSelection_wires t v
  · exact rearm_wires v

theorem evaluate_wires (t : Tables) (v : Live) : (evaluate t v).wires = v.wires := by
  unfold evaluate
  dsimp only
  split
  · exact cancelManual_wires v
  · rw [handSelection_wires, enterSelected_wires, leaveSelected_wires, cancelManual_wires]

/-! ## The roll engine -/

theorem rollFrame_plain (t : Tables) (rev : Bool) (seq : Seq16) (v : Live) :
    (rollFrame t rev seq v).note ≠ .probe ∧ isProbeFrame (rollFrame t rev seq v) = false :=
  ⟨fun h => (by cases h), rfl⟩

theorem fillOwnEntry_flows (t : Tables) (seq : Seq16) (v : Live) : v.Flows (fillOwnEntry t seq v) := .of_wires rfl

theorem sendRoll_flows (t : Tables) (rev : Bool) (seq : Seq16) (v : Live) : v.Flows (sendRoll t rev seq v) :=
  ((hand_flows _ _ (rollFrame_plain _ _ _ _).1 (rollFrame_plain _ _ _ _).2).after
    (fillOwnEntry_flows _ _ _)).after (refreshAlarms_flows t v)

theorem sendConfig_flows {t : Tables} {i : Nat} {v w : Live} (h : sendConfig t i v = some w) : v.Flows w := by
  unfold sendConfig at h
  split at h
  · cases h
  · cases h
    refine (hand_flows _ _ (fun h => by cases h) rfl).after ?_
    exact .of_wires rfl

theorem sendConfigs_flows (t : Tables) (l : List Nat) : ∀ (n : Nat) (v : Live), v.Flows (sendConfigs t n l v).2 := by
  induction l with
  | nil => intro n v; cases n <;> exact .refl v
  | cons i l ih =>
    intro n v
    cases n with
    | zero => exact .refl v
    | succ n =>
      rw [sendConfigs]
      split
      · next v' h => exact .trans (sendConfig_flows h) (ih _ _)
      · exact ih _ _

theorem configScan_flows (t : Tables) (v : Live) : v.Flows (configScan t v) := by
  unfold configScan
  split
  · exact .refl v
  · exact .trans (sendConfigs_flows _ _ _ _) (sendConfigs_flows _ _ _ _)

theorem endCycle_flows (t : Tables) (c : Cycle) (f : RollResult) (r : Option RollResult) (v : Live) :
    v.Flows (endCycle t c f r v) := (configScan_flows _ _).after (.of_wires rfl)

theorem startReverse_flows (t : Tables) (c : Cycle) (f : RollResult) (v : Live) : v.Flows (startReverse t c f v) := by
  unfold startReverse
  dsimp only
  split
  · exact endCycle_flows _ _ _ _ _
  · exact (sendRoll_flows _ _ _ _).after (.of_wires rfl)

theorem rollOutcome_flows (t : Tables) (o : RollResult) (v : Live) : v.Flows (rollOutcome t o v) := by
  unfold rollOutcome
  split
  · exact .refl v
  · split
    · split
      · exact endCycle_flows _ _ _ _ _
      · exact startReverse_flows _ _ _ _
    · exact endCycle_flows _ _ _ _ _

theorem rollLost_flows (t : Tables) (seq : Seq16) (rev : Bool) (v : Live) : v.Flows (rollLost t seq rev v) := by
  unfold rollLost
  split
  · split
    · exact (rollOutcome_flows _ _ _).after (.of_wires rfl)
    · exact .refl v
  · exact .refl v

/-- The blocks as a new cycle takes them, before its first ROLL is formed. -/
def Live.newCycle (t : Tables) (v : Live) : Live :=
  { v with roll := { v.roll with
    seq := v.roll.seq + 1
    cycle := some { seq := v.roll.seq + 1, timeout := t.ring.timeout, members := t.ring.members, rev := false,
                    sentAt := none, firstSent := none, fwd := none, seen := [] } } }

theorem beginCycle_flows (t : Tables) (v : Live) : (v.newCycle t).Flows (beginCycle t v) := by
  unfold beginCycle
  dsimp only
  split
  · exact startReverse_flows _ _ _ _
  · exact sendRoll_flows _ _ _ _

/-- The blocks as a node that becomes active stands at the start of its first cycle. -/
def Live.asActive (t : Tables) (v : Live) : Live :=
  Live.newCycle t { v with
    epoch := { v.epoch with active := true, takeover := none, revert := none }
    roll := { v.roll with
      map := v.roll.map.map MapEntry.clearHead, clock := some v.osc, cycle := none, status := .unknown } }

theorem becomeActive_flows (t : Tables) (v : Live) : (v.asActive t).Flows (becomeActive t v) := beginCycle_flows t _

theorem takeoverCheck_flows (t : Tables) (v : Live) : v.Flows (takeoverCheck t v) := by
  unfold takeoverCheck
  split
  · next hdue =>
    have hidle : v.epoch.active = false := by
      simp only [takeoverDue, Bool.and_eq_true, Bool.not_eq_true'] at hdue
      obtain ⟨⟨⟨⟨⟨_, h⟩, _⟩, _⟩, _⟩, _⟩ := hdue
      exact h
    exact (becomeActive_flows t _).after (.takeover (.refl v) hidle rfl rfl rfl rfl)
  · exact .refl v

/-! ## The span unit -/

theorem Live.mapSpan_mapSpan (v : Live) (d : Side) (f g : Span → Span) :
    (v.mapSpan d f).mapSpan d g = v.mapSpan d (fun x => g (f x)) := by
  simp only [Live.mapSpan, Pair.get_set_same, Pair.set_set]

@[simp] theorem Live.mapSpan_span (v : Live) (d : Side) (f : Span → Span) : (v.mapSpan d f).span d = f (v.span d) :=
  Pair.get_set_same _ _ _

theorem loseInput_wires (c : Cand) (v : Live) : (loseInput c v).wires = v.wires := by
  unfold loseInput
  split <;> rfl

theorem setSpanState_down (d : Side) (v : Live) : setSpanState d .down v =
    if (v.span d).state = .up then loseInput d.cand (v.mapSpan d (fun s => { s with state := .down }))
    else v.mapSpan d (fun s => { s with state := .down }) := by
  unfold setSpanState
  simp

/-- A span that is not DOWN goes DOWN, and its ring candidate loses its input where it was UP (R40, R99). -/
theorem enterDown_eq {d : Side} {v : Live} (h : (v.span d).state ≠ .down) (t : Tables) :
    enterDown t d v = refreshAlarms t
      (if (v.span d).state = .up then loseInput d.cand (v.mapSpan d Span.atDown) else v.mapSpan d Span.atDown) := by
  have hset : setSpanState d .down (v.mapSpan d Span.toDown) =
      if (v.span d).state = .up then loseInput d.cand (v.mapSpan d Span.atDown) else v.mapSpan d Span.atDown := by
    rw [setSpanState_down, Live.mapSpan_mapSpan, Live.mapSpan_span]
    rfl
  unfold enterDown
  split
  · next hd => exact absurd hd h
  · rw [hset]

theorem enterDown_down {d : Side} {v : Live} (h : (v.span d).state = .down) (t : Tables) : enterDown t d v = v := by
  unfold enterDown
  rw [h]

theorem enterDown_flows {d : Side} {v : Live} (hrun : (v.span d).timeoutRun = 3) (t : Tables) :
    v.Flows (enterDown t d v) := by
  by_cases h : (v.span d).state = .down
  · rw [enterDown_down h]
    exact .refl v
  · rw [enterDown_eq h]
    refine (refreshAlarms_flows _ _).after ?_
    split
    · exact .inside (.down (.refl v) d hrun) (loseInput_wires _ _)
    · exact .down (.refl v) d hrun

/-! ## What follows from an event -/

theorem takeLoss_flows {t : Tables} {l : Loss} {ls : List Loss} {v : Live} (hl : v.losses = l :: ls) :
    v.Flows (takeLoss t l { v with losses := ls }) := by
  cases l with
  | roll seq rev => exact (rollLost_flows _ _ _ _).after (.drop (.refl v) hl)
  | probe d =>
    have htimeout : v.Flows (Live.mapSpan { v with losses := ls } d Span.timedOut) := .timeout (.refl v) hl
    show v.Flows (probeTimeout t d _)
    unfold probeTimeout
    dsimp only
    split
    · next hrun => exact (enterDown_flows hrun t).after htimeout
    · exact htimeout

theorem settleSelection_flows (t : Tables) : ∀ (n : Nat) (v : Live), v.Flows (settleSelection t n v)
  | 0, v => .refl v
  | n + 1, v => by
    rw [settleSelection]
    split
    · exact (refreshAlarms_flows _ _).after (.of_wires (evaluate_wires t v))
    · exact ((settleSelection_flows t n _).after (setClass_flows _ _ _)).after (.of_wires (evaluate_wires t v))

theorem settle_flows (t : Tables) (v : Live) : v.Flows (settle t v) :=
  ((refreshAlarms_flows _ _).after (takeoverCheck_flows _ _)).after (settleSelection_flows _ _ _)

theorem workLosses_flows (t : Tables) : ∀ (n : Nat) (v : Live), v.Flows (workLosses t n v)
  | 0, v => .refl v
  | n + 1, v => by
    rw [workLosses]
    split
    · exact .refl v
    · next hl => exact ((workLosses_flows t n _).after (settle_flows _ _)).after (takeLoss_flows hl)

theorem finish_flows (t : Tables) (v : Live) : v.Flows (finish t v) :=
  (workLosses_flows _ _ _).after (settle_flows _ _)

end Sys2Proof.Machine
end

section
/-! What a hand-over does to the other ports, to the spans and to the losses, and what all that follows from an event
keeps: a port whose link is down, a span that is DOWN, a span without probes. -/

namespace Sys2Proof.Machine

/-! ## The frames of a split queue -/

theorem splitFirst_mem {α : Type} {f : α → Bool} {x : α} : ∀ {l r : List α},
    splitFirst f l = some (x, r) → x ∈ l ∧ ∀ y ∈ r, y ∈ l
  | [], _, h => by cases h
  | z :: l, r, h => by
    rw [splitFirst] at h
    split at h
    · cases h
      exact ⟨List.mem_cons_self, fun y hy => List.mem_cons_of_mem _ hy⟩
    · obtain ⟨⟨a, b⟩, hs, hab⟩ := Option.map_eq_some_iff.mp h
      cases hab
      obtain ⟨ha, hb⟩ := splitFirst_mem hs
      refine ⟨List.mem_cons_of_mem _ ha, fun y hy => ?_⟩
      rcases List.mem_cons.mp hy with rfl | hy
      · exact List.mem_cons_self
      · exact List.mem_cons_of_mem _ (hb y hy)

theorem splitLast_mem {α : Type} {f : α → Bool} {x : α} {l r : List α} (h : splitLast f l = some (x, r)) :
    x ∈ l ∧ ∀ y ∈ r, y ∈ l := by
  obtain ⟨⟨a, b⟩, hs, hab⟩ := Option.map_eq_some_iff.mp h
  cases hab
  obtain ⟨ha, hb⟩ := splitFirst_mem hs
  exact ⟨List.mem_reverse.mp ha, fun y hy => List.mem_reverse.mp (hb y (List.mem_reverse.mp hy))⟩

/-! ## The ways a grant and a hand-over can go -/

theorem grant_rule {P : Live → Prop} {p : Port} {v : Live} (hself : P v)
    (hown : ∀ q rest, q ∈ (v.port p).queue → (∀ y ∈ rest, y ∈ (v.port p).queue) →
      P (onTransmit p (complete v.now q)
        (v.mapPort p (fun x => { x with queue := rest, sending := some (.own (complete v.now q)) }))))
    (hthrough : ∀ f fs, P (v.mapPort p (fun x => { x with through := fs, sending := some (.through f) }))) :
    P (grant p v) := by
  unfold grant
  dsimp only
  split
  · exact hself
  · split
    · next q rest hs =>
      obtain ⟨hq, hrest⟩ := splitFirst_mem hs
      exact hown q rest hq hrest
    · split
      · exact hthrough _ _
      · exact hself

/-- A frame handed to a port is dropped, or joins the queue, or takes the place of an older one. -/
theorem hand_rule {P : Live → Prop} {p : Port} {q : QFrame} {v : Live} (hself : P v)
    (hdrop : P (noteLost false p q (insertDrop p v)))
    (hroom : (v.port p).link = true → P (grant p (v.mapPort p (fun x => { x with queue := x.queue ++ [q] }))))
    (hshed : ∀ old rest, (v.port p).link = true → old ∈ (v.port p).queue → (∀ y ∈ rest, y ∈ (v.port p).queue) →
      P (grant p (noteLost true p old (insertDrop p (v.mapPort p (fun x => { x with queue := rest ++ [q] })))))) :
    P (hand p q v) := by
  unfold hand
  dsimp only
  split
  · exact hdrop
  · next hl =>
    have hlink : (v.port p).link = true := by simpa using hl
    split
    · exact hroom hlink
    · split
      · exact hdrop
      · split
        · exact hdrop
        · split
          · next old rest hs =>
            obtain ⟨hold, hrest⟩ := splitLast_mem hs
            exact hshed old rest hlink hold hrest
          · exact hself

/-! ## The ports -/

theorem Live.mapPort_port_other (v : Live) {p r : Port} (h : r ≠ p) (f : PortIO → PortIO) :
    (v.mapPort p f).port r = v.port r := Ports.get_set_other _ (Ne.symm h) _

theorem grant_port_other {p r : Port} (h : r ≠ p) (v : Live) : (grant p v).port r = v.port r := by
  refine grant_rule (P := fun w => w.port r = v.port r) rfl (fun q rest _ _ => ?_) (fun f fs => ?_)
  · rw [onTransmit_port, Live.mapPort_port_other v h]
  · rw [Live.mapPort_port_other v h]

/-- A hand-over leaves the other ports. -/
theorem hand_port_other {p r : Port} (h : r ≠ p) (q : QFrame) (v : Live) : (hand p q v).port r = v.port r := by
  have hdrop : (insertDrop p v).port r = v.port r := Live.mapPort_port_other v h _
  refine hand_rule (P := fun w => w.port r = v.port r) rfl ?_ (fun _ => ?_) (fun old rest _ _ _ => ?_)
  · rw [noteLost_port, hdrop]
  · rw [grant_port_other h, Live.mapPort_port_other v h]
  · rw [grant_port_other h, noteLost_port, insertDrop, Live.mapPort_port_other _ h, Live.mapPort_port_other v h]

theorem grant_queue (p : Port) (v : Live) : ∀ x ∈ ((grant p v).port p).queue, x ∈ (v.port p).queue := by
  refine grant_rule (P := fun w => ∀ x ∈ (w.port p).queue, x ∈ (v.port p).queue) (fun x hx => hx)
    (fun q rest _ hrest x hx => ?_) (fun f fs x hx => ?_)
  · rw [onTransmit_port, Live.mapPort_port] at hx
    exact hrest x hx
  · rw [Live.mapPort_port] at hx
    exact hx

/-- After a hand-over a queue holds nothing but what it held and the frame handed to it. -/
theorem hand_queue (p r : Port) (q : QFrame) (v : Live) :
    ∀ x ∈ ((hand p q v).port r).queue, x ∈ (v.port r).queue ∨ r = p ∧ x = q := by
  by_cases h : r = p
  · subst h
    refine hand_rule (P := fun w => ∀ x ∈ (w.port r).queue, x ∈ (v.port r).queue ∨ r = r ∧ x = q)
      (fun x hx => .inl hx) (fun x hx => ?_) (fun _ x hx => ?_) (fun old rest _ _ hrest x hx => ?_)
    · rw [noteLost_port, insertDrop, Live.mapPort_port] at hx
      exact .inl hx
    · have hx := grant_queue _ _ x hx
      rw [Live.mapPort_port] at hx
      rcases List.mem_append.mp hx with hx | hx
      · exact .inl hx
      · exact .inr ⟨rfl, List.mem_singleton.mp hx⟩
    · have hx := grant_queue _ _ x hx
      rw [noteLost_port, insertDrop, Live.mapPort_port, Live.mapPort_port] at hx
      rcases List.mem_append.mp hx with hx | hx
      · exact .inl (hrest x hx)
      · exact .inr ⟨rfl, List.mem_singleton.mp hx⟩
  · intro x hx
    rw [hand_port_other h] at hx
    exact .inl hx

/-! ## The spans -/

theorem complete_note_mk (now : Stamp) (e : Eth) (f : Frame) (n : Note) : (complete now ⟨e, f, n⟩).note = n := by
  cases n <;> rfl

theorem complete_note (now : Stamp) (q : QFrame) : (complete now q).note = q.note := by
  obtain ⟨e, f, n⟩ := q
  exact complete_note_mk now e f n

theorem mapEpoch_kind (f : EpochBody → EpochBody) (b : Body) : (mapEpoch f b).kind = b.kind := by cases b <;> rfl

theorem fillReply_kind (now rx : Stamp) (b : Body) : (fillReply now rx b).kind = b.kind := by
  cases b with
  | reply seq t2 t3 =>
    have hreply : (fillReply now rx (.reply seq t2 t3)).kind = 3 := rfl
    exact hreply
  | _ => rfl

theorem complete_kind_mk (now : Stamp) (e : Eth) (f : Frame) (n : Note) :
    (complete now ⟨e, f, n⟩).frame.body.kind = f.body.kind := by
  cases n with
  | origEpoch => exact mapEpoch_kind _ f.body
  | fwdEpoch df rx => exact mapEpoch_kind _ f.body
  | reply rx => exact fillReply_kind now rx f.body
  | _ => rfl

theorem complete_isProbeFrame (now : Stamp) (q : QFrame) : isProbeFrame (complete now q) = isProbeFrame q := by
  obtain ⟨e, f, n⟩ := q
  exact congrArg (· == 2) (complete_kind_mk now e f n)

/-- How a span can stand after frames were sent at a port: as before, or with a probe of that port outstanding. -/
def SpanSent (p : Port) (d : Side) (l : List QFrame) (x y : Span) : Prop :=
  y = x ∨ x.state ≠ .down ∧ p = .line d ∧ (∃ q ∈ l, q.note = .probe ∧ isProbeFrame q = true) ∧
    ∃ o, y = { x with outstanding := some o }

theorem SpanSent.mono {p : Port} {d : Side} {l m : List QFrame} {x y : Span} (h : SpanSent p d l x y)
    (hlm : ∀ q ∈ l, q ∈ m) : SpanSent p d m x y := by
  rcases h with h | ⟨hs, hp, ⟨q, hq, hprobe⟩, ho⟩
  · exact .inl h
  · exact .inr ⟨hs, hp, ⟨q, hlm q hq, hprobe⟩, ho⟩

theorem onTransmit_span (p : Port) (d : Side) (q : QFrame) (v : Live) :
    SpanSent p d [q] (v.span d) ((onTransmit p q v).span d) := by
  by_cases hn : q.note = .probe
  · cases p with
    | site e => exact .inl (by simp only [onTransmit, hn, probeSent])
    | access i => exact .inl (by simp only [onTransmit, hn, probeSent])
    | line e =>
      by_cases hb : ∃ seq, q.frame.body = .probe seq
      · obtain ⟨seq, hb⟩ := hb
        rw [onTransmit_probe hn hb]
        by_cases he : e = d
        · subst he
          rw [Live.mapSpan_span]
          by_cases hdown : (v.span e).state = .down
          · rw [if_pos hdown]
            exact .inl rfl
          · rw [if_neg hdown]
            refine .inr ⟨hdown, rfl, ⟨q, List.mem_singleton.mpr rfl, hn, ?_⟩, _, rfl⟩
            simp [isProbeFrame, hb, Body.kind]
        · exact .inl (Pair.get_set_other _ he _)
      · refine .inl ?_
        simp only [onTransmit, hn, probeSent]
        split
        · next seq hseq => exact absurd ⟨seq, hseq⟩ hb
        · rfl
  · refine .inl ?_
    unfold onTransmit
    split
    · next h => exact absurd h hn
    · unfold rollSent
      split
      · dsimp only
        split <;> rfl
      · rfl
    all_goals rfl

theorem grant_span (p : Port) (d : Side) (v : Live) :
    SpanSent p d (v.port p).queue (v.span d) ((grant p v).span d) := by
  refine grant_rule (P := fun w => SpanSent p d (v.port p).queue (v.span d) (w.span d)) (.inl rfl)
    (fun q rest hq _ => ?_) (fun f fs => .inl rfl)
  rcases onTransmit_span p d (complete v.now q)
      (v.mapPort p (fun x => { x with queue := rest, sending := some (.own (complete v.now q)) })) with
    h | ⟨hs, hp, ⟨x, hx, hnote, hbody⟩, ho⟩
  · exact .inl h
  · rw [List.mem_singleton] at hx
    subst hx
    rw [complete_note] at hnote
    rw [complete_isProbeFrame] at hbody
    exact .inr ⟨hs, hp, ⟨q, hq, hnote, hbody⟩, ho⟩

theorem noteLost_spans (removed : Bool) (p : Port) (q : QFrame) (v : Live) : (noteLost removed p q v).spans = v.spans := by
  unfold noteLost
  split
  · split <;> rfl
  all_goals rfl

/-- A hand-over changes a span by nothing but a probe sent on its port. -/
theorem hand_span (p : Port) (d : Side) (q : QFrame) (v : Live) :
    SpanSent p d (q :: (v.port p).queue) (v.span d) ((hand p q v).span d) := by
  refine hand_rule (P := fun w => SpanSent p d (q :: (v.port p).queue) (v.span d) (w.span d)) (.inl rfl) (.inl ?_)
    (fun _ => ?_) (fun old rest _ _ hrest => ?_)
  · rw [Live.span, noteLost_spans]
    rfl
  · refine (grant_span p d (v.mapPort p (fun x => { x with queue := x.queue ++ [q] }))).mono fun x hx => ?_
    rw [Live.mapPort_port] at hx
    rcases List.mem_append.mp hx with hx | hx
    · exact List.mem_cons_of_mem _ hx
    · exact List.mem_cons.mpr (.inl (List.mem_singleton.mp hx))
  · have hspan : (noteLost true p old (insertDrop p (v.mapPort p (fun x => { x with queue := rest ++ [q] })))).span d =
        v.span d := by
      rw [Live.span, noteLost_spans]
      rfl
    have h := grant_span p d (noteLost true p old (insertDrop p (v.mapPort p (fun x => { x with queue := rest ++ [q] }))))
    rw [hspan] at h
    refine h.mono fun x hx => ?_
    rw [noteLost_port, insertDrop, Live.mapPort_port, Live.mapPort_port] at hx
    rcases List.mem_append.mp hx with hx | hx
    · exact List.mem_cons_of_mem _ (hrest x hx)
    · exact List.mem_cons.mpr (.inl (List.mem_singleton.mp hx))

/-! ## The losses -/

theorem onTransmit_losses (p : Port) (q : QFrame) (v : Live) : (onTransmit p q v).losses = v.losses := by
  unfold onTransmit
  split
  · unfold probeSent
    split
    · split <;> rfl
    all_goals rfl
  · unfold rollSent
    split
    · dsimp only
      split <;> rfl
    · rfl
  all_goals rfl

theorem grant_losses (p : Port) (v : Live) : (grant p v).losses = v.losses :=
  grant_rule (P := fun w => w.losses = v.losses) rfl (fun _ _ _ _ => onTransmit_losses _ _ _) (fun _ _ => rfl)

/-- A lost frame notes a probe's loss only where it is a probe of that line port, removed from its queue. -/
theorem noteLost_probes {removed : Bool} {p : Port} {q : QFrame} {v : Live} {d : Side}
    (h : Loss.probe d ∈ (noteLost removed p q v).losses) :
    Loss.probe d ∈ v.losses ∨ removed = true ∧ p = .line d ∧ q.note = .probe := by
  unfold noteLost at h
  split at h
  · next hn =>
    split at h
    · next hr =>
      rcases List.mem_append.mp h with h | h
      · exact .inl h
      · cases p with
        | line e =>
          rw [probeLoss, List.mem_singleton] at h
          cases h
          exact .inr ⟨hr, rfl, hn⟩
        | site e => cases h
        | access i => cases h
    · exact .inl h
  · rcases List.mem_append.mp h with h | h
    · exact .inl h
    · rw [List.mem_singleton] at h
      cases h
  all_goals exact .inl h

theorem hand_probes {p : Port} {q : QFrame} {v : Live} {d : Side} (h : Loss.probe d ∈ (hand p q v).losses) :
    Loss.probe d ∈ v.losses ∨ p = .line d ∧ ∃ x ∈ (v.port p).queue, x.note = .probe := by
  revert h
  refine hand_rule (P := fun w => Loss.probe d ∈ w.losses →
    Loss.probe d ∈ v.losses ∨ p = .line d ∧ ∃ x ∈ (v.port p).queue, x.note = .probe) .inl (fun h => ?_) (fun _ h => ?_)
    (fun old rest _ hold _ h => ?_)
  · rcases noteLost_probes h with h | ⟨hr, _⟩
    · exact .inl h
    · cases hr
  · rw [grant_losses] at h
    exact .inl h
  · rw [grant_losses] at h
    rcases noteLost_probes h with h | ⟨_, hp, hn⟩
    · exact .inl h
    · exact .inr ⟨hp, old, hold, hn⟩

/-! ## What is kept by all that follows -/

theorem Live.io_of_wires {v w : Live} (h : w.wires = v.wires) : w.io = v.io := congrArg Prod.fst h

theorem Live.spans_of_wires {v w : Live} (h : w.wires = v.wires) : w.spans = v.spans := congrArg (fun x => x.2.1) h

/-- A port whose link is down: nothing waits, nothing is sent, and the drops only grow. -/
def PortIO.Dead (k : Nat) (x : PortIO) : Prop :=
  x.link = false ∧ x.sending = none ∧ x.queue = [] ∧ x.through = [] ∧ k ≤ x.insertDrops

theorem hand_dead {k : Nat} (hk : k ≤ 65535) {r : Port} {v : Live} (h : (v.port r).Dead k) (p : Port) (q : QFrame) :
    ((hand p q v).port r).Dead k := by
  by_cases hp : r = p
  · subst hp
    obtain ⟨hl, hs, hq, ht, hd⟩ := h
    rw [hand_linkDown hl, noteLost_port, insertDrop, Live.mapPort_port]
    exact ⟨hl, hs, hq, ht, by show k ≤ min 65535 _; omega⟩
  · rw [hand_port_other hp]
    exact h

theorem Live.Flows.dead {k : Nat} (hk : k ≤ 65535) {r : Port} {v w : Live} (h : v.Flows w)
    (hv : (v.port r).Dead k) : (w.port r).Dead k := by
  induction h with
  | refl => exact hv
  | inside _ hw ih =>
    rw [Live.port, Live.io_of_wires hw]
    exact ih
  | hand _ p q _ _ ih => exact hand_dead hk ih p q
  | @withdraw v _ i f ih =>
    by_cases hr : r = .access i
    · subst hr
      obtain ⟨hl, hs, hq, ht, hd⟩ := ih
      rw [Sys2Proof.Machine.withdraw, Live.mapPort_port]
      exact ⟨hl, hs, by rw [hq]; rfl, ht, hd⟩
    · rw [Sys2Proof.Machine.withdraw, Live.mapPort_port_other _ hr]
      exact ih
  | takeover _ _ _ hio _ _ ih =>
    rw [Live.port, hio]
    exact ih
  | drop _ _ ih => exact ih
  | timeout _ _ ih => exact ih
  | down _ _ _ ih => exact ih

theorem Live.mapSpan_span_other (v : Live) {d e : Side} (h : e ≠ d) (f : Span → Span) : (v.mapSpan d f).span e = v.span e :=
  Pair.get_set_other _ (Ne.symm h) _

/-- A property of a DOWN span that timeouts and the entry to DOWN keep is kept. -/
theorem Live.Flows.span_down {P : Span → Prop} (hdown : ∀ x, P x → x.state = .down)
    (htimeout : ∀ x, P x → P x.timedOut) (hagain : ∀ x, P x → P x.atDown) {d : Side} {v w : Live} (h : v.Flows w)
    (hv : P (v.span d)) : P (w.span d) := by
  induction h with
  | refl => exact hv
  | inside _ hw ih =>
    rw [Live.span, Live.spans_of_wires hw]
    exact ih
  | @hand v _ p q _ _ ih =>
    rcases hand_span p d q v with h | ⟨hs, _⟩
    · rw [h]; exact ih
    · exact absurd (hdown _ ih) hs
  | withdraw _ _ _ ih => exact ih
  | takeover _ _ _ _ hspans _ ih =>
    rw [Live.span, hspans]
    exact ih
  | drop _ _ ih => exact ih
  | @timeout v e ls _ _ ih =>
    by_cases he : d = e
    · subst he
      rw [Live.mapSpan_span]
      exact htimeout _ ih
    · rw [Live.mapSpan_span_other _ he]
      exact ih
  | @down v _ e _ ih =>
    by_cases he : d = e
    · subst he
      rw [Live.mapSpan_span]
      exact hagain _ ih
    · rw [Live.mapSpan_span_other _ he]
      exact ih

/-- A span keeps its filtered delay unless it goes DOWN. -/
theorem Live.Flows.span_df {d : Side} {v w : Live} (h : v.Flows w) :
    (w.span d).state = .down ∨ (w.span d).df = (v.span d).df := by
  induction h with
  | refl => exact .inr rfl
  | inside _ hw ih =>
    rw [Live.span, Live.spans_of_wires hw]
    exact ih
  | @hand v _ p q _ _ ih =>
    rcases hand_span p d q v with h | ⟨_, _, _, o, h⟩
    · rw [h]; exact ih
    · rw [h]; exact ih
  | withdraw _ _ _ ih => exact ih
  | takeover _ _ _ _ hspans _ ih =>
    rw [Live.span, hspans]
    exact ih
  | drop _ _ ih => exact ih
  | @timeout v e ls _ _ ih =>
    by_cases he : d = e
    · subst he
      rw [Live.mapSpan_span]
      exact ih
    · rw [Live.mapSpan_span_other _ he]
      exact ih
  | @down v _ e _ ih =>
    by_cases he : d = e
    · subst he
      rw [Live.mapSpan_span]
      exact .inl rfl
    · rw [Live.mapSpan_span_other _ he]
      exact ih

/-- With no probe waiting at its port, a span without an outstanding probe gets none. -/
theorem Live.Flows.no_probe {d : Side} {v w : Live} (h : v.Flows w)
    (hv : (∀ q ∈ (v.port (.line d)).queue, isProbeFrame q = false) ∧ (v.span d).outstanding = none) :
    (∀ q ∈ (w.port (.line d)).queue, isProbeFrame q = false) ∧ (w.span d).outstanding = none := by
  induction h with
  | refl => exact hv
  | inside _ hw ih =>
    rw [Live.span, Live.spans_of_wires hw, Live.port, Live.io_of_wires hw]
    exact ih
  | @hand v _ p q _ hbody ih =>
    obtain ⟨hqueue, hnone⟩ := ih
    refine ⟨fun x hx => ?_, ?_⟩
    · rcases hand_queue p (.line d) q v x hx with hx | ⟨_, rfl⟩
      · exact hqueue x hx
      · exact hbody
    · rcases hand_span p d q v with h | ⟨_, hp, ⟨x, hx, _, hprobe⟩, _⟩
      · rw [h]; exact hnone
      · subst hp
        rcases List.mem_cons.mp hx with rfl | hx
        · rw [hbody] at hprobe; cases hprobe
        · rw [hqueue x hx] at hprobe; cases hprobe
  | @withdraw v _ i f ih =>
    rw [Sys2Proof.Machine.withdraw, Live.mapPort_port_other _ (by simp)]
    exact ih
  | takeover _ _ _ hio hspans _ ih =>
    rw [Live.span, hspans, Live.port, hio]
    exact ih
  | drop _ _ ih => exact ih
  | @timeout v e ls _ _ ih =>
    refine ⟨ih.1, ?_⟩
    by_cases he : d = e
    · subst he
      rw [Live.mapSpan_span]
      exact ih.2
    · rw [Live.mapSpan_span_other _ he]
      exact ih.2
  | @down v _ e _ ih =>
    refine ⟨ih.1, ?_⟩
    by_cases he : d = e
    · subst he
      rw [Live.mapSpan_span]
      rfl
    · rw [Live.mapSpan_span_other _ he]
      exact ih.2

/-- Nothing of a side's probes is under way: none is lost, none waits, none is outstanding, and no timeout counts. -/
structure Live.ProbeFree (d : Side) (v : Live) : Prop where
  losses : Loss.probe d ∉ v.losses
  queue : ∀ q ∈ (v.port (.line d)).queue, q.note ≠ .probe
  outstanding : (v.span d).outstanding = none
  run : (v.span d).timeoutRun = 0

theorem Live.Flows.probeFree {d : Side} {v w : Live} (h : v.Flows w) (hv : v.ProbeFree d) : w.ProbeFree d := by
  induction h with
  | refl => exact hv
  | inside _ hw ih =>
    simp only [Live.wires, Prod.mk.injEq] at hw
    obtain ⟨hio, hs, _, _, hl⟩ := hw
    exact ⟨by rw [hl]; exact ih.losses, by rw [Live.port, hio]; exact ih.queue,
      by rw [Live.span, hs]; exact ih.outstanding, by rw [Live.span, hs]; exact ih.run⟩
  | @hand v _ p q hnote _ ih =>
    have hspan : (Sys2Proof.Machine.hand p q v).span d = v.span d := by
      rcases hand_span p d q v with h | ⟨_, hp, ⟨x, hx, hprobe, _⟩, _⟩
      · exact h
      · subst hp
        rcases List.mem_cons.mp hx with rfl | hx
        · exact absurd hprobe hnote
        · exact absurd hprobe (ih.queue x hx)
    refine ⟨fun hl => ?_, fun x hx => ?_, by rw [hspan]; exact ih.outstanding, by rw [hspan]; exact ih.run⟩
    · rcases hand_probes hl with hl | ⟨rfl, x, hx, hprobe⟩
      · exact ih.losses hl
      · exact ih.queue x hx hprobe
    · rcases hand_queue p (.line d) q v x hx with hx | ⟨_, rfl⟩
      · exact ih.queue x hx
      · exact hnote
  | @withdraw v _ i f ih =>
    have hport : ((Sys2Proof.Machine.withdraw (.access i) f v).port (.line d)) = v.port (.line d) :=
      Live.mapPort_port_other _ (by simp) _
    exact ⟨ih.losses, by rw [hport]; exact ih.queue, ih.outstanding, ih.run⟩
  | takeover _ _ _ hio hspans hlosses ih =>
    exact ⟨by rw [hlosses]; exact ih.losses, by rw [Live.port, hio]; exact ih.queue,
      by rw [Live.span, hspans]; exact ih.outstanding, by rw [Live.span, hspans]; exact ih.run⟩
  | drop _ hl ih =>
    exact ⟨fun h => ih.losses (by rw [hl]; exact List.mem_cons_of_mem _ h), ih.queue, ih.outstanding, ih.run⟩
  | @timeout v e ls _ hl ih =>
    have he : d ≠ e := by
      rintro rfl
      exact ih.losses (by rw [hl]; exact List.mem_cons_self)
    have hspan : (Live.mapSpan { v with losses := ls } e Span.timedOut).span d = v.span d :=
      Live.mapSpan_span_other _ he _
    exact ⟨fun h => ih.losses (by rw [hl]; exact List.mem_cons_of_mem _ h), ih.queue,
      by rw [hspan]; exact ih.outstanding, by rw [hspan]; exact ih.run⟩
  | @down v _ e hrun ih =>
    have he : d ≠ e := by
      rintro rfl
      rw [ih.run] at hrun
      cases hrun
    have hspan : (v.mapSpan e Span.atDown).span d = v.span d := Live.mapSpan_span_other _ he _
    exact ⟨ih.losses, ih.queue, by rw [hspan]; exact ih.outstanding, by rw [hspan]; exact ih.run⟩

/-- An active origin stays as it is, and begins no further cycle. -/
theorem Live.Flows.active {v w : Live} (h : v.Flows w) (hv : v.epoch.active = true) :
    w.epoch = v.epoch ∧ w.roll.seq = v.roll.seq := by
  induction h with
  | refl => exact ⟨rfl, rfl⟩
  | inside _ hw ih =>
    simp only [Live.wires, Prod.mk.injEq] at hw
    obtain ⟨_, _, he, hseq, _⟩ := hw
    rw [he, hseq]
    exact ih
  | @hand v _ p q _ _ ih =>
    rw [(hand_egress p q v).epoch, (hand_egress p q v).roll]
    exact ih
  | withdraw _ _ _ ih => exact ih
  | takeover _ hidle _ _ _ _ ih =>
    rw [ih.1, hv] at hidle
    cases hidle
  | drop _ _ ih => exact ih
  | timeout _ _ ih => exact ih
  | down _ _ _ ih => exact ih

end Sys2Proof.Machine
end

section
/-! A link that goes down (R81, R99, R101), the probe clock and the reply wait (R95, R96). -/

namespace Sys2Proof.Machine

/-! ## What `kept` shows of one port and of one span -/

theorem Live.port_of_kept {v w : Live} (h : v.kept = w.kept) (p : Port) : (v.port p).kept = (w.port p).kept := by
  have hio : v.io.map PortIO.kept = w.io.map PortIO.kept := congrArg Live.io h
  rw [Live.port, Live.port, ← Ports.map_get PortIO.kept, ← Ports.map_get PortIO.kept, hio]

theorem Live.span_of_kept {v w : Live} (h : v.kept = w.kept) (d : Side) : (v.span d).kept = (w.span d).kept := by
  have hspans : Pair.map Span.kept v.spans = Pair.map Span.kept w.spans := congrArg Live.spans h
  rw [Live.span, Live.span, ← Pair.map_get Span.kept, ← Pair.map_get Span.kept, hspans]

theorem Live.link_of_kept {v w : Live} (h : v.kept = w.kept) (p : Port) : (v.port p).link = (w.port p).link := by
  have := congrArg PortIO.link (Live.port_of_kept h p)
  exact this

theorem Live.probeSeq_of_kept {v w : Live} (h : v.kept = w.kept) (d : Side) :
    (v.span d).probeSeq = (w.span d).probeSeq := by
  have := congrArg Span.probeSeq (Live.span_of_kept h d)
  exact this

/-! ## Links (R81) -/

/-- The loss that a ROLL notes for its owner (R124). -/
def QFrame.rollLoss (q : QFrame) : Option Loss :=
  match q.note with
  | .roll seq rev => some (.roll seq rev)
  | _ => none

/-- A frame lost with a queue is noted as the loss of a ROLL or of a SOFT-RESTART's response. -/
theorem noteLost_eq (p : Port) (q : QFrame) (v : Live) : noteLost false p q v =
    { v with losses := v.losses ++ q.rollLoss.toList, restartDue := v.restartDue || isRestartNote q.note } := by
  by_cases hroll : ∃ seq rev, q.note = .roll seq rev
  · obtain ⟨seq, rev, h⟩ := hroll
    have hloss : q.rollLoss = some (.roll seq rev) := by simp only [QFrame.rollLoss, h]
    have hnote : isRestartNote q.note = false := by rw [h]; rfl
    rw [noteLost_roll h, hloss, hnote, Bool.or_false]
    rfl
  · have hloss : q.rollLoss = none := by
      unfold QFrame.rollLoss
      split
      · next h => exact absurd ⟨_, _, h⟩ hroll
      · rfl
    by_cases hrestart : q.note = .restart
    · have hnote : isRestartNote q.note = true := decide_eq_true hrestart
      rw [noteLost_restart hrestart, hloss, hnote, Bool.or_true]
      simp
    · have hnote : isRestartNote q.note = false := decide_eq_false hrestart
      rw [noteLost_plain (fun seq rev h => hroll ⟨seq, rev, h⟩) hrestart (.inl rfl), hloss, hnote, Bool.or_false]
      simp

theorem noteLostAll_eq (p : Port) : ∀ (l : List QFrame) (v : Live), noteLostAll p l v =
    { v with
      losses := v.losses ++ l.filterMap QFrame.rollLoss
      restartDue := v.restartDue || l.any (fun q => isRestartNote q.note) }
  | [], v => by simp [noteLostAll]
  | q :: l, v => by
    rw [noteLostAll, noteLost_eq, noteLostAll_eq p l]
    have hl : (q :: l).filterMap QFrame.rollLoss = q.rollLoss.toList ++ l.filterMap QFrame.rollLoss := by
      rw [List.filterMap_cons]
      cases q.rollLoss <;> rfl
    simp only [hl, List.any_cons, List.append_assoc, Bool.or_assoc]

/-- Whether the frame in transmission is the response of a SOFT-RESTART. -/
def cutsRestart : Option Sending → Bool
  | some (.own q) => isRestartNote q.note
  | some (.through _) => false
  | none => false

theorem noteCut_eq (p : Port) (x : Option Sending) (v : Live) :
    noteCut p x v = { v with restartDue := v.restartDue || cutsRestart x } := by
  match x with
  | none => simp [noteCut, cutsRestart]
  | some (.through f) => simp [noteCut, cutsRestart]
  | some (.own q) =>
    rw [noteCut, cutsRestart]
    by_cases h : isRestartNote q.note = true
    · rw [if_pos h, noteLost_restart (of_decide_eq_true h), h, Bool.or_true]
    · rw [if_neg h, Bool.eq_false_iff.mpr h, Bool.or_false]

theorem cutsRestart_iff (x : Option Sending) :
    cutsRestart x = true ↔ ∃ q, x = some (.own q) ∧ q.note = .restart := by
  match x with
  | none => simp [cutsRestart]
  | some (.through f) => simp [cutsRestart]
  | some (.own q) => simp [cutsRestart, isRestartNote]

/-- The blocks where a port's link has gone down, before its span follows. -/
def Live.cutOff (p : Port) (v : Live) : Live :=
  { v.mapPort p (PortIO.cut p) with
    losses := v.losses ++ (v.port p).queue.filterMap QFrame.rollLoss
    restartDue := (v.restartDue || (v.port p).queue.any (fun q => isRestartNote q.note)) ||
      cutsRestart (v.port p).sending }

/-- The span of a line port whose link has gone down follows it; another port has none. -/
def followDown (t : Tables) : Port → Live → Live
  | .line d, v => enterDown t d v
  | .site _, v => v
  | .access _, v => v

theorem takeLinkDown_up {p : Port} {v : Live} (h : (v.port p).link = true) (t : Tables) :
    takeLinkDown t p v = followDown t p (v.cutOff p) := by
  have hcut : noteCut p (v.port p).sending (noteLostAll p (v.port p).queue (v.mapPort p (PortIO.cut p))) = v.cutOff p := by
    rw [noteLostAll_eq, noteCut_eq]
    rfl
  unfold takeLinkDown
  dsimp only
  rw [if_neg (by rw [h]; decide), hcut]
  cases p <;> rfl

theorem takeLinkDown_down {p : Port} {v : Live} (h : (v.port p).link = false) (t : Tables) :
    takeLinkDown t p v = v := if_pos h

/-- What a lost input makes of the candidates depends on the candidates alone. -/
theorem loseInput_cands (c : Cand) {v w : Live} (h : w.cands = v.cands) :
    (loseInput c w).cands = (loseInput c v).cands := by
  unfold loseInput
  rw [h]
  split
  · exact h
  · exact h
  · exact congrArg (fun x => x.set c (x.get c).unavail) h

/-- The entry of a span to DOWN as a change of the span and of its candidate's input, and what follows from it. -/
theorem enterDown_steps (t : Tables) (d : Side) (v : Live) : ∃ c : Live, c.Flows (enterDown t d v) ∧ c.io = v.io ∧
    ((v.span d).state = .down → c = v) ∧ ((v.span d).state ≠ .down → c.span d = (v.span d).atDown) ∧
    ((v.span d).state = .up → c.cands = (loseInput d.cand v).cands) ∧ (enterDown t d v).cands = c.cands := by
  by_cases h : (v.span d).state = .down
  · rw [enterDown_down h]
    exact ⟨v, .refl v, rfl, fun _ => rfl, fun hn => absurd h hn, fun hup => (by rw [h] at hup; cases hup), rfl⟩
  · rw [enterDown_eq h]
    refine ⟨_, refreshAlarms_flows t _, ?_, fun hd => absurd hd h, fun _ => ?_, fun hup => ?_,
      (refreshAlarms_still t _).cands⟩
    · split
      · exact Live.io_of_wires (v := v.mapSpan d Span.atDown) (loseInput_wires _ _)
      · rfl
    · split
      · rw [Live.span, Live.spans_of_wires (loseInput_wires _ _)]
        exact Live.mapSpan_span v d _
      · exact Live.mapSpan_span v d _
    · rw [if_pos hup]
      exact loseInput_cands d.cand rfl

/-- A candidate that is not DISABLED and loses its input is UNAVAILABLE. -/
theorem loseInput_unavailable {c : Cand} {v : Live} (h : (v.cands.get c).state ≠ .disabled) :
    ((loseInput c v).cands.get c).state = .unavailable := by
  by_cases hu : (v.cands.get c).state = .unavailable
  · rw [loseInput_idle (.inr hu)]
    exact hu
  · rw [loseInput_loses h hu, Trio.get_set_same]
    rfl

/-- Settles O29: the port is emptied and noted, and its span goes DOWN and stays so. -/
theorem linkDownEmptiesThePort : Obligations.LinkDownEmptiesThePort := by
  unfold Obligations.LinkDownEmptiesThePort
  intro n p s v hv
  have hexec : ∀ w, takeLinkDown s.tables p v = w → exec (.linkDown n p) s = .next (s.settled w) := fun w hw =>
    congrArg Host.Outcome.next ((State.act_at hv (fun t v => takeLinkDown t p v)).trans (State.settled_congr s hw))
  refine ⟨fun hl => hexec _ (takeLinkDown_down hl _), fun hl w z rolls due hw hrolls hdue hz => ?_, fun hl => ?_⟩
  · have hcut : v.cutOff p = z := by
      have hrestart : ((v.restartDue || (v.port p).queue.any (fun q => isRestartNote q.note)) ||
          cutsRestart (v.port p).sending) = due := by
        rw [Bool.eq_iff_iff, hdue, Bool.or_eq_true, Bool.or_eq_true, cutsRestart_iff, List.any_eq_true, or_assoc]
        simp [isRestartNote]
      rw [hz, hw, hrolls, ← hrestart]
      rfl
    refine ⟨fun d hp => hexec _ ?_, fun hp => hexec _ ?_⟩
    · rw [takeLinkDown_up hl, hcut, hp]
      rfl
    · rw [takeLinkDown_up hl, hcut]
      cases p with
      | line d => exact absurd rfl (hp d)
      | site d => rfl
      | access i => rfl
  · have hport : (v.cutOff p).port p = (v.port p).cut p := Live.mapPort_port v p _
    have hdead : ((v.cutOff p).port p).Dead (min 65535 ((v.port p).insertDrops + (v.port p).queue.length)) := by
      rw [hport]
      exact ⟨rfl, rfl, rfl, rfl, Nat.le_refl _⟩
    have hkept : (takeLinkDown s.tables p v).kept = (v.cutOff p).kept := by
      rw [takeLinkDown_up hl]
      cases p with
      | line d => exact enterDown_kept _ _ _
      | site d => rfl
      | access i => rfl
    have hall : (finish s.tables (takeLinkDown s.tables p v)).kept = (v.cutOff p).kept := (finish_kept _ _).trans hkept
    have hflow : ∃ c : Live, c.Flows (finish s.tables (takeLinkDown s.tables p v)) ∧ c.io = (v.cutOff p).io := by
      rw [takeLinkDown_up hl]
      cases p with
      | line d =>
        obtain ⟨c, hc, hio, _⟩ := enterDown_steps s.tables d (v.cutOff (.line d))
        exact ⟨c, hc.trans (finish_flows _ _), hio⟩
      | site d => exact ⟨_, finish_flows _ _, rfl⟩
      | access i => exact ⟨_, finish_flows _ _, rfl⟩
    obtain ⟨c, hc, hio⟩ := hflow
    have hstands := hc.dead (Nat.min_le_left _ _) (by rw [Live.port, hio]; exact hdead)
    obtain ⟨hlink, hsending, hqueue, hthrough, hdrops⟩ := hstands
    have hkeptPort := Live.port_of_kept hall p
    rw [hport] at hkeptPort
    refine ⟨_, hexec _ rfl, rfl, rfl, rfl, hlink, hsending, hqueue, hthrough, ?_, hdrops, fun d hp => ?_, ?_, ?_⟩
    · have := congrArg PortIO.throughDrops hkeptPort
      exact this
    · subst hp
      have hcutSpan : ∀ e, (v.cutOff (.line d)).span e = v.span e := fun _ => rfl
      have htake : takeLinkDown s.tables (.line d) v = enterDown s.tables d (v.cutOff (.line d)) := takeLinkDown_up hl _
      obtain ⟨c, hc, _, hsame, hdown, hup, hcands⟩ := enterDown_steps s.tables d (v.cutOff (.line d))
      rw [hcutSpan] at hsame hdown hup
      have hfull : c.Flows (s.settled (takeLinkDown s.tables (.line d) v)).live := by
        show c.Flows (finish _ _)
        rw [htake]
        exact hc.trans (finish_flows _ _)
      refine ⟨?_, ?_, fun hnot => ?_, fun hstate hen => ?_⟩
      · have := congrArg PortIO.linkLost hkeptPort
        exact this
      · refine hfull.span_down (P := fun x => x.state = .down) (fun _ h => h) (fun _ h => h) (fun _ _ => rfl) ?_
        by_cases h : (v.span d).state = .down
        · rw [hsame h]
          exact h
        · rw [hdown h]
          rfl
      · exact (hfull.span_down (P := fun x => x.state = .down ∧ x.learned = none ∧ x.df = none ∧
          x.outstanding = none ∧ x.accepted = 0) (fun _ h => h.1) (fun _ h => h) (fun _ _ => ⟨rfl, rfl, rfl, rfl, rfl⟩)
          (by rw [hdown hnot]; exact ⟨rfl, rfl, rfl, rfl, rfl⟩)).2
      · have hlost : ((takeLinkDown s.tables (.line d) v).cands.get d.cand).state = .unavailable := by
          rw [htake, hcands, hup hstate]
          exact loseInput_unavailable hen
        exact ((finish_follows s.tables d.cand _).unavailable hlost).1
    · have := Live.value_of_kept hall
      exact this
    · have := Live.mgmt_of_kept hall
      exact this

end Sys2Proof.Machine
end

section
/-! The probe clock and the reply wait (R95, R96, R99), and a matched reply (R98, R100). -/

namespace Sys2Proof.Machine

/-! ## Changes of a span's state -/

theorem setSpanState_probing (d : Side) (v : Live) : setSpanState d .probing v =
    if (v.span d).state = .up then loseInput d.cand (v.mapSpan d (fun s => { s with state := .probing }))
    else v.mapSpan d (fun s => { s with state := .probing }) := by
  unfold setSpanState
  simp

theorem setSpanState_up (d : Side) (v : Live) :
    setSpanState d .up v = v.mapSpan d (fun s => { s with state := .up }) := by
  unfold setSpanState
  exact if_neg fun h => h.2 rfl

/-- A probe timeout below a run of 3 is counted and no more. -/
theorem probeTimeout_counts {d : Side} {v : Live} (h : (v.span d).timeoutRun < 2) (t : Tables) :
    probeTimeout t d v = v.mapSpan d Span.timedOut := by
  have hrun : ¬ ((v.mapSpan d Span.timedOut).span d).timeoutRun = 3 := by
    rw [Live.mapSpan_span]
    show ¬ min 3 ((v.span d).timeoutRun + 1) = 3
    omega
  exact if_neg hrun

/-- At a run of 3 a probe timeout takes the span DOWN. -/
theorem probeTimeout_downs {d : Side} {v : Live} (h : 2 ≤ (v.span d).timeoutRun) (t : Tables) :
    probeTimeout t d v = enterDown t d (v.mapSpan d Span.timedOut) := by
  have hrun : ((v.mapSpan d Span.timedOut).span d).timeoutRun = 3 := by
    rw [Live.mapSpan_span]
    show min 3 ((v.span d).timeoutRun + 1) = 3
    omega
  exact if_pos hrun

/-! ## A probe interval (R95) -/

/-- The blocks at the start of a probe interval, the clock set and the FCS count 0. -/
def Live.intervalStart (d : Side) (k : Nat) (v : Live) : Live :=
  v.mapSpan d (fun x => { x with nextProbe := some (k + 125000000), fcsCount := 0 })

theorem Live.intervalStart_span (d : Side) (k : Nat) (v : Live) : (v.intervalStart d k).span d =
    { v.span d with nextProbe := some (k + 125000000), fcsCount := 0 } := Live.mapSpan_span v d _

/-- The blocks where the stale probe of a port has been withdrawn, before its timeout is counted. -/
def Live.staleWithdrawn (d : Side) (v : Live) : Live :=
  insertDrop (.line d) (withdraw (.line d) isProbeFrame v)

/-- Steps 3 and 4 of a probe interval: the span leaves DOWN, and the next probe is handed to its port. -/
def sendProbe (t : Tables) (d : Side) (v : Live) : Live :=
  let w := if v.spanIs d .down then refreshAlarms t (setSpanState d .probing v) else v
  let seq := (w.span d).probeSeq + 1
  hand (.line d) (probeFrame t d seq w) (w.mapSpan d (fun s => { s with probeSeq := seq }))

theorem beginInterval_eq (t : Tables) (d : Side) (v : Live) : beginInterval t d v =
    (let w := withdrawStale t d (v.mapSpan d (fun s => { s with fcsCount := 0 }))
    if (w.port (.line d)).link = false then w else sendProbe t d w) := rfl

theorem nextInterval_eq {d : Side} {k : Nat} {v : Live} (h : (v.span d).nextProbe = some k) (t : Tables) :
    nextInterval t d v =
      beginInterval t d (v.mapSpan d (fun x => { x with nextProbe := some (k + 125000000) })) := by
  unfold nextInterval
  refine congrArg _ (Live.mapSpan_congr v d ?_)
  rw [h]
  rfl

theorem nextInterval_withdraws {d : Side} {k : Nat} {v : Live} (h : (v.span d).nextProbe = some k) (t : Tables) :
    nextInterval t d v =
      (let w := withdrawStale t d (v.intervalStart d k)
      if (w.port (.line d)).link = false then w else sendProbe t d w) := by
  rw [nextInterval_eq h, beginInterval_eq, Live.mapSpan_mapSpan]
  rfl

theorem sendProbe_open {d : Side} {v : Live} (h : (v.span d).state ≠ .down) (t : Tables) : sendProbe t d v =
    hand (.line d) (probeFrame t d ((v.span d).probeSeq + 1) v)
      (v.mapSpan d (fun s => { s with probeSeq := (v.span d).probeSeq + 1 })) := by
  have hopen : (if v.spanIs d .down = true then refreshAlarms t (setSpanState d .probing v) else v) = v :=
    if_neg (mt (Live.spanIs_iff v d .down).mp h)
  unfold sendProbe
  dsimp only
  rw [hopen]

theorem sendProbe_down {d : Side} {v x : Live} (h : (v.span d).state = .down) (t : Tables)
    (hx : x = refreshAlarms t (v.mapSpan d (fun y => { y with state := .probing }))) : sendProbe t d v =
    hand (.line d) (probeFrame t d ((v.span d).probeSeq + 1) x)
      (x.mapSpan d (fun s => { s with probeSeq := (v.span d).probeSeq + 1 })) := by
  have hprobing : (if v.spanIs d .down = true then refreshAlarms t (setSpanState d .probing v) else v) = x := by
    rw [if_pos ((Live.spanIs_iff v d .down).mpr h), setSpanState_probing, if_neg (by rw [h]; decide), hx]
  have hkept : x.kept = v.kept := by
    rw [hx, refreshAlarms_kept]
    exact Live.mapSpan_kept _ _ _ (fun _ => rfl)
  unfold sendProbe
  dsimp only
  rw [hprobing, Live.probeSeq_of_kept hkept d]

theorem sendProbe_probeSeq (t : Tables) (d : Side) (v : Live) :
    ((sendProbe t d v).span d).kept = { (v.span d).kept with probeSeq := (v.span d).probeSeq + 1 } := by
  by_cases h : (v.span d).state = .down
  · obtain ⟨x, hx⟩ : ∃ x, x = refreshAlarms t (v.mapSpan d (fun y => { y with state := .probing })) := ⟨_, rfl⟩
    have hkept : (x.span d).kept = (v.span d).kept := by
      refine Live.span_of_kept ?_ d
      rw [hx, refreshAlarms_kept]
      exact Live.mapSpan_kept _ _ _ (fun _ => rfl)
    rw [sendProbe_down h t hx, Live.span_of_kept (hand_kept _ _ _) d, Live.mapSpan_span]
    exact congrArg (fun s : Span => { s with probeSeq := (v.span d).probeSeq + 1 }) hkept
  · rw [sendProbe_open h, Live.span_of_kept (hand_kept _ _ _) d, Live.mapSpan_span]
    rfl

theorem withdrawStale_none {d : Side} {v : Live} (h : (v.port (.line d)).queue.any isProbeFrame = false)
    (t : Tables) : withdrawStale t d v = v := if_neg (by rw [h]; decide)

theorem withdrawStale_some {d : Side} {v : Live} (h : (v.port (.line d)).queue.any isProbeFrame = true)
    (t : Tables) : withdrawStale t d v = probeTimeout t d (v.staleWithdrawn d) := if_pos h

theorem staleWithdrawn_span (d e : Side) (v : Live) : (v.staleWithdrawn d).span e = v.span e := rfl

theorem staleWithdrawn_kept (d : Side) (v : Live) : (v.staleWithdrawn d).kept = v.kept := by
  rw [Live.staleWithdrawn, insertDrop_kept, withdraw_kept]

theorem replyWaitOver_iff {d : Side} {v : Live} {o : Outstanding} (h : (v.span d).outstanding = some o) :
    replyWaitOver d v = true ↔ 1250000 ≤ v.osc - o.since := by
  unfold replyWaitOver
  rw [h]
  exact decide_eq_true_iff

/-- Settles O31: the probe interval step by step, and the reply wait. -/
theorem probeClockAndReplyWait : Obligations.ProbeClockAndReplyWait := by
  unfold Obligations.ProbeClockAndReplyWait
  intro n d s v hv
  have hexec : ∀ k w, (v.span d).nextProbe = some k → k ≤ v.osc → nextInterval s.tables d v = w →
      exec (.probeInterval n d) s = .next (s.settled w) := fun k w hk hdue hw => by
    have hdue' : probeDue d v = true := by
      unfold probeDue
      rw [hk]
      exact decide_eq_true hdue
    exact congrArg Host.Outcome.next ((State.timed_at hv (due := fun _ v => probeDue d v)
      (fun t v => nextInterval t d v) hdue').trans (State.settled_congr s hw))
  have hreply : ∀ o w, (v.span d).outstanding = some o → 1250000 ≤ v.osc - o.since → replyTimedOut s.tables d v = w →
      exec (.replyWaitTimeout n d) s = .next (s.settled w) := fun o w ho hwait hw =>
    congrArg Host.Outcome.next ((State.timed_at hv (due := fun _ v => replyWaitOver d v)
      (fun t v => replyTimedOut t d v) ((replyWaitOver_iff ho).mpr hwait)).trans (State.settled_congr s hw))
  refine ⟨fun k hk hdue => hexec k _ hk hdue (nextInterval_eq hk _), fun k w hk hdue hnone hw => ?_,
    fun k w u y hk hdue hsome hw hu hlow hprobing hup => ?_, fun seq w => ⟨_, rfl, rfl, rfl, rfl, rfl, rfl, rfl⟩,
    fun o ho hwait => ⟨fun hrun => ?_, fun hrun => ?_⟩, fun x u hu => ⟨fun h => enterDown_down h _, fun h => ?_,
      fun h => ?_⟩⟩
  · have hstart : withdrawStale s.tables d (v.intervalStart d k) = w := by
      rw [withdrawStale_none (v := v.intervalStart d k) hnone, hw]
      rfl
    have hspan : w.span d = { v.span d with nextProbe := some (k + 125000000), fcsCount := 0 } := by
      rw [hw, Live.mapSpan_span]
    have hport : w.port (.line d) = v.port (.line d) := by rw [hw]; rfl
    have hnext := nextInterval_withdraws hk s.tables
    dsimp only at hnext
    rw [hstart, hport] at hnext
    have hseq : (w.span d).probeSeq = (v.span d).probeSeq := by rw [hspan]
    have hstate : (w.span d).state = (v.span d).state := by rw [hspan]
    have hnext0 : (w.span d).nextProbe = some (k + 125000000) := by rw [hspan]
    refine ⟨fun hl => ?_, fun hl hup => ?_, fun x hx hl hdown => ?_, ?_⟩
    · rw [if_pos hl] at hnext
      exact hexec k _ hk hdue hnext
    · rw [if_neg (by rw [hl]; decide), sendProbe_open (by rw [hstate]; exact hup), hseq] at hnext
      exact hexec k _ hk hdue hnext
    · rw [if_neg (by rw [hl]; decide), sendProbe_down (by rw [hstate]; exact hdown) _ hx, hseq] at hnext
      exact hexec k _ hk hdue hnext
    · refine ⟨_, hexec k _ hk hdue rfl, rfl, ?_, ?_⟩
      · have hkept := Live.span_of_kept (finish_kept s.tables (nextInterval s.tables d v)) d
        have hfield := congrArg Span.nextProbe hkept
        refine Eq.trans hfield ?_
        show (Span.kept _).nextProbe = _
        rw [hnext]
        split
        · exact hnext0
        · rw [sendProbe_probeSeq]
          exact hnext0
      · have hkept := Live.probeSeq_of_kept (finish_kept s.tables (nextInterval s.tables d v)) d
        refine Eq.trans hkept ?_
        rw [hnext]
        cases hl : (v.port (.line d)).link with
        | false =>
          rw [if_pos rfl, if_neg (by decide)]
          exact hseq
        | true =>
          rw [if_neg (by decide), if_pos rfl, ← hseq]
          have := congrArg Span.probeSeq (sendProbe_probeSeq s.tables d w)
          exact this
  · have hwdef : (Live.staleWithdrawn d (v.intervalStart d k)).mapSpan d Span.timedOut = w := by
      have hports : (Live.staleWithdrawn d (v.intervalStart d k)).mapSpan d Span.timedOut =
          ((v.intervalStart d k).mapSpan d Span.timedOut).staleWithdrawn d := rfl
      rw [hports, hw, Live.intervalStart, Live.mapSpan_mapSpan, Live.staleWithdrawn, insertDrop, withdraw,
        Live.mapPort_mapPort]
      rfl
    have hrun : ((Live.staleWithdrawn d (v.intervalStart d k)).span d).timeoutRun = (v.span d).timeoutRun := by
      rw [staleWithdrawn_span, Live.intervalStart_span]
    have hstate : (w.span d).state = (v.span d).state := by
      rw [← hwdef, Live.mapSpan_span, staleWithdrawn_span, Live.intervalStart_span]
      rfl
    have hu' : w.mapSpan d Span.atDown = u := hu.symm
    have hy : withdrawStale s.tables d (v.intervalStart d k) = y := by
      rw [withdrawStale_some (v := v.intervalStart d k) hsome]
      by_cases h2 : 2 ≤ (v.span d).timeoutRun
      · rw [probeTimeout_downs (by rw [hrun]; exact h2), hwdef]
        cases hs : (v.span d).state with
        | down => rw [enterDown_down (hstate.trans hs), hlow (.inr hs)]
        | probing =>
          rw [enterDown_eq (by rw [hstate, hs]; decide), if_neg (by rw [hstate, hs]; decide), hu', hprobing h2 hs]
        | up => rw [enterDown_eq (by rw [hstate, hs]; decide), if_pos (hstate.trans hs), hu', hup h2 hs]
      · rw [probeTimeout_counts (by rw [hrun]; exact Nat.lt_of_not_le h2), hwdef, hlow (.inl (Nat.lt_of_not_le h2))]
    have hkept : y.kept = (v.intervalStart d k).kept := by
      rw [← hy, withdrawStale_some (v := v.intervalStart d k) hsome, probeTimeout_kept, staleWithdrawn_kept]
    have hlink : (y.port (.line d)).link = (v.port (.line d)).link := Live.link_of_kept hkept _
    have hseq : (y.span d).probeSeq = (v.span d).probeSeq :=
      (Live.probeSeq_of_kept hkept d).trans (by rw [Live.intervalStart_span])
    have hnext := nextInterval_withdraws hk s.tables
    dsimp only at hnext
    rw [hy, hlink] at hnext
    refine ⟨fun hl => ?_, fun hl hopen => ?_, fun z hz hl hdown => ?_⟩
    · rw [if_pos hl] at hnext
      exact hexec k _ hk hdue hnext
    · rw [if_neg (by rw [hl]; decide), sendProbe_open hopen, hseq] at hnext
      exact hexec k _ hk hdue hnext
    · rw [if_neg (by rw [hl]; decide), sendProbe_down hdown _ hz, hseq] at hnext
      exact hexec k _ hk hdue hnext
  · have hkeep : ((v.mapSpan d (fun x => { x with outstanding := none })).span d).timeoutRun < 2 := by
      rw [Live.mapSpan_span]
      exact hrun
    refine hreply o _ ho hwait ((probeTimeout_counts hkeep _).trans ?_)
    rw [Live.mapSpan_mapSpan]
    refine Live.mapSpan_congr v d ?_
    have hmin : min 3 ((v.span d).timeoutRun + 1) = (v.span d).timeoutRun + 1 := by omega
    simp only [Span.timedOut, hmin, bump]
  · have hkeep : 2 ≤ ((v.mapSpan d (fun x => { x with outstanding := none })).span d).timeoutRun := by
      rw [Live.mapSpan_span]
      exact hrun
    have hgone : replyTimedOut s.tables d v = enterDown s.tables d (v.mapSpan d (fun x => { x with
        outstanding := none, timeoutRun := 3, timeouts := min 65535 (x.timeouts + 1) })) := by
      refine (probeTimeout_downs hkeep _).trans (congrArg _ ?_)
      rw [Live.mapSpan_mapSpan]
      refine Live.mapSpan_congr v d ?_
      have hmin : min 3 ((v.span d).timeoutRun + 1) = 3 := by omega
      simp only [Span.timedOut, hmin, bump]
    refine ⟨hreply o _ ho hwait hgone, _, hreply o _ ho hwait hgone, rfl, ?_⟩
    obtain ⟨c, hc, _, hsame, hdown, _⟩ := enterDown_steps s.tables d (v.mapSpan d (fun x => { x with
        outstanding := none, timeoutRun := 3, timeouts := min 65535 (x.timeouts + 1) }))
    refine (hc.trans (finish_flows s.tables _)).span_down (P := fun x => x.state = .down ∧ x.outstanding = none)
      (fun _ h => h.1) (fun _ h => h) (fun _ _ => ⟨rfl, rfl⟩) ?_
    rw [Live.mapSpan_span] at hsame hdown
    by_cases h : (v.span d).state = .down
    · rw [hsame h, Live.mapSpan_span]
      exact ⟨h, rfl⟩
    · rw [hdown h]
      exact ⟨rfl, rfl⟩
  · rw [enterDown_eq (by rw [h]; decide), if_neg (by rw [h]; decide), hu]
    rfl
  · rw [enterDown_eq (by rw [h]; decide), if_pos h, hu]
    rfl

end Sys2Proof.Machine
end

section
/-! A reply to a probe: the neighbour it names, the neighbour check, and the span sample (R98, R99, R100). -/

namespace Sys2Proof.Machine

theorem neighbourFails_iff (c : LineCfg) (x : Span) : neighbourFails c x = true ↔
    c.freeze = true ∧ ∃ a b, c.neighbour = some a ∧ x.learned = some b ∧ a ≠ b := by
  unfold neighbourFails
  rw [Bool.and_eq_true]
  refine and_congr_right fun _ => ?_
  split
  · next a b ha hb =>
    rw [decide_eq_true_iff, ha, hb]
    exact ⟨fun h => ⟨a, b, rfl, rfl, h⟩, fun ⟨a', b', ha', hb', h⟩ => by cases ha'; cases hb'; exact h⟩
  · next hnone =>
    refine ⟨fun h => (by cases h), fun ⟨a, b, ha, hb, _⟩ => absurd hb (hnone a b ha)⟩

/-- The neighbour check reads the learned neighbour alone. -/
theorem neighbourFails_congr (c : LineCfg) {x y : Span} (h : y.learned = x.learned) :
    neighbourFails c y = neighbourFails c x := by
  simp only [neighbourFails, h]

/-- A span's record where PROBING with four samples and a passing check has gone UP (R99). -/
def Span.triedUp (c : LineCfg) (s : Span) : Span :=
  { s with state := if s.state = .probing ∧ 4 ≤ s.accepted ∧ neighbourFails c s = false then .up else s.state }

theorem tryUp_eq (c : LineCfg) (d : Side) (v : Live) : tryUp c d v = v.mapSpan d (Span.triedUp c) := by
  unfold tryUp
  dsimp only
  split
  · next h =>
    rw [setSpanState_up]
    refine Live.mapSpan_congr v d ?_
    rw [Span.triedUp, if_pos h]
  · next h =>
    refine (Live.mapSpan_self v d ?_).symm
    rw [Span.triedUp, if_neg h]

/-! ## The neighbour check (R100) -/

theorem neighbourCheck_passes {t : Tables} {d : Side} {v : Live}
    (h : neighbourFails (t.port.line.get d) (v.span d) = false) : neighbourCheck t d v =
      refreshAlarms t (v.mapSpan d (fun s => Span.triedUp (t.port.line.get d) { s with mismatch := false })) := by
  unfold neighbourCheck
  dsimp only
  rw [h, if_neg (by decide), tryUp_eq, Live.mapSpan_mapSpan]

theorem neighbourCheck_fails_up {t : Tables} {d : Side} {v : Live}
    (h : neighbourFails (t.port.line.get d) (v.span d) = true) (hup : (v.span d).state = .up) :
    neighbourCheck t d v = refreshAlarms t (loseInput d.cand
      (v.mapSpan d (fun s => { s with mismatch := true, state := .probing }))) := by
  unfold neighbourCheck
  dsimp only
  rw [h, if_pos rfl, if_pos ((Live.spanIs_iff _ d .up).mpr (by rw [Live.mapSpan_span]; exact hup)),
    setSpanState_probing, if_pos (by rw [Live.mapSpan_span]; exact hup), Live.mapSpan_mapSpan]

theorem neighbourCheck_fails {t : Tables} {d : Side} {v : Live}
    (h : neighbourFails (t.port.line.get d) (v.span d) = true) (hup : (v.span d).state ≠ .up) :
    neighbourCheck t d v = refreshAlarms t (v.mapSpan d (fun s => { s with mismatch := true })) := by
  have hnot : ¬ Live.spanIs (v.mapSpan d (fun s => { s with mismatch := true })) d .up = true := fun hs => by
    have := (Live.spanIs_iff _ d .up).mp hs
    rw [Live.mapSpan_span] at this
    exact hup this
  unfold neighbourCheck
  dsimp only
  rw [h, if_pos rfl, if_neg hnot]

/-! ## The sample (R98) -/

theorem spanSample_rejects {rt : Int} (h : rt < 0 ∨ 2000000000 < rt) (t : Tables) (d : Side) (v : Live) :
    spanSample t d rt v = v.mapSpan d (fun s => { s with rejected := bump s.rejected }) := if_pos h

/-- A span's record with one more accepted sample (R98). -/
def Span.sampled (rt dd : Int) (s : Span) : Span :=
  { s with df := some (filterDelay s.df dd), accepted := bump s.accepted, last := some (rt, dd) }

theorem spanSample_accepts {rt : Int} (h0 : 0 ≤ rt) (h1 : rt ≤ 2000000000) (t : Tables) (d : Side) (v : Live) :
    spanSample t d rt v = refreshAlarms t (v.mapSpan d (fun s => Span.triedUp (t.port.line.get d)
      (s.sampled rt (max 0 (Int.tdiv rt 2 + (t.port.line.get d).asym))))) := by
  unfold spanSample
  dsimp only
  rw [if_neg (by rw [maxRoundTrip]; omega), tryUp_eq, Live.mapSpan_mapSpan]
  rfl

/-! ## A matched reply -/

theorem takeReply_unmatched {d : Side} {seq : Seq16} {v : Live}
    (h : ∀ o, (v.span d).outstanding = some o → o.seq ≠ seq) (t : Tables) (rx : Stamp) (sender : Nat) (t2 t3 : NsTime) :
    takeReply t d rx sender seq t2 t3 v = v.mapSpan d (fun s => { s with unmatched := bump s.unmatched }) := by
  unfold takeReply
  split
  · next o ho => exact if_neg (h o ho)
  · rfl

theorem takeReply_matched {d : Side} {seq : Seq16} {v : Live} {o : Outstanding} (ho : (v.span d).outstanding = some o)
    (hseq : o.seq = seq) (t : Tables) (rx : Stamp) (sender : Nat) (t2 t3 : NsTime) :
    takeReply t d rx sender seq t2 t3 v = spanSample t d (roundTrip o.t1 rx t2 t3) (neighbourCheck t d
      (learnNeighbour d sender (v.mapSpan d (fun s => { s with outstanding := none, timeoutRun := 0 })))) := by
  unfold takeReply
  rw [ho]
  exact if_pos hseq

/-- What a span's record holds once a matched reply has ended its wait and named its neighbour. -/
def Span.answered (sender : Nat) (s : Span) : Span :=
  { s with outstanding := none, timeoutRun := 0, learned := some sender }

/-- The first neighbour, or the same one again. -/
theorem learnNeighbour_keeps {d : Side} {id : Nat} {v : Live}
    (h : (v.span d).learned = none ∨ (v.span d).learned = some id) :
    learnNeighbour d id (v.mapSpan d (fun s => { s with outstanding := none, timeoutRun := 0 })) =
      v.mapSpan d (Span.answered id) := by
  unfold learnNeighbour
  rw [Live.mapSpan_span]
  rcases h with h | h
  · simp only [h]
    rw [Live.mapSpan_mapSpan]
    rfl
  · simp only [h, if_true]
    refine Live.mapSpan_congr v d ?_
    rw [Span.answered, ← h]

/-- Another neighbour at a span that is not UP. -/
theorem learnNeighbour_changes {d : Side} {id : Nat} {v : Live} (hnone : (v.span d).learned ≠ none)
    (hid : (v.span d).learned ≠ some id) (hup : (v.span d).state ≠ .up) :
    learnNeighbour d id (v.mapSpan d (fun s => { s with outstanding := none, timeoutRun := 0 })) =
      v.mapSpan d (fun s => { s.answered id with df := none, accepted := 0 }) := by
  obtain ⟨l, hl⟩ := Option.ne_none_iff_exists'.mp hnone
  have hne : l ≠ id := fun h => hid (by rw [hl, h])
  have hnot : ¬ Live.spanIs (v.mapSpan d (fun s => { s.answered id with df := none, accepted := 0 })) d .up = true :=
    fun hs => by
      have := (Live.spanIs_iff _ d .up).mp hs
      rw [Live.mapSpan_span] at this
      exact hup this
  unfold learnNeighbour
  rw [Live.mapSpan_span]
  simp only [hl]
  rw [if_neg hne, Live.mapSpan_mapSpan]
  exact if_neg hnot

/-- Another neighbour at a span that is UP. -/
theorem learnNeighbour_changes_up {d : Side} {id : Nat} {v : Live} (hnone : (v.span d).learned ≠ none)
    (hid : (v.span d).learned ≠ some id) (hup : (v.span d).state = .up) :
    learnNeighbour d id (v.mapSpan d (fun s => { s with outstanding := none, timeoutRun := 0 })) =
      loseInput d.cand (v.mapSpan d (fun s => { s.answered id with df := none, accepted := 0, state := .probing })) := by
  obtain ⟨l, hl⟩ := Option.ne_none_iff_exists'.mp hnone
  have hne : l ≠ id := fun h => hid (by rw [hl, h])
  obtain ⟨w, hw⟩ : ∃ w, w = v.mapSpan d (fun s => { s.answered id with df := none, accepted := 0 }) := ⟨_, rfl⟩
  have hwup : (w.span d).state = .up := by
    rw [hw, Live.mapSpan_span]
    exact hup
  have hchange : learnNeighbour d id (v.mapSpan d (fun s => { s with outstanding := none, timeoutRun := 0 })) =
      if w.spanIs d .up then setSpanState d .probing w else w := by
    unfold learnNeighbour
    rw [Live.mapSpan_span]
    simp only [hl]
    rw [if_neg hne, Live.mapSpan_mapSpan, hw]
    rfl
  rw [hchange, if_pos ((Live.spanIs_iff w d .up).mpr hwup), setSpanState_probing, if_pos hwup, hw,
    Live.mapSpan_mapSpan]

/-- A change of a span's record that leaves its probe's wait leaves it free of probes. -/
theorem Live.ProbeFree.mapSpan {d : Side} {v : Live} (h : v.ProbeFree d) {f : Span → Span}
    (ho : (f (v.span d)).outstanding = (v.span d).outstanding)
    (hr : (f (v.span d)).timeoutRun = (v.span d).timeoutRun) : (v.mapSpan d f).ProbeFree d :=
  ⟨h.losses, h.queue, by rw [Live.mapSpan_span, ho]; exact h.outstanding, by
    rw [Live.mapSpan_span, hr]; exact h.run⟩

/-! ## A matched reply of the known neighbour -/

theorem Span.triedUp_down {c : LineCfg} {s : Span} (h : s.state = .down) : (s.triedUp c).state = .down := by
  have hnot : ¬ (s.state = .probing ∧ 4 ≤ s.accepted ∧ neighbourFails c s = false) := fun hp => by
    rw [h] at hp
    cases hp.1
  exact (if_neg hnot).trans h

/-- The blocks where a matched reply of the known neighbour has passed the neighbour check. -/
def Live.replied (t : Tables) (d : Side) (id : Nat) (v : Live) : Live :=
  refreshAlarms t (v.mapSpan d (fun x => Span.triedUp (t.port.line.get d) { x.answered id with mismatch := false }))

theorem takeReply_passes {t : Tables} {d : Side} {seq : Seq16} {v : Live} {o : Outstanding} {id : Nat}
    (ho : (v.span d).outstanding = some o) (hseq : o.seq = seq) (hlearned : (v.span d).learned = some id)
    (hpass : neighbourFails (t.port.line.get d) (v.span d) = false) (rx : Stamp) (t2 t3 : NsTime) :
    takeReply t d rx id seq t2 t3 v = spanSample t d (roundTrip o.t1 rx t2 t3) (v.replied t d id) := by
  have hpasses : neighbourFails (t.port.line.get d) ((v.mapSpan d (Span.answered id)).span d) = false := by
    rw [Live.mapSpan_span, neighbourFails_congr (x := v.span d) _ hlearned.symm]
    exact hpass
  rw [takeReply_matched ho hseq, learnNeighbour_keeps (.inr hlearned), neighbourCheck_passes hpasses,
    Live.mapSpan_mapSpan]
  rfl

theorem replied_kept (t : Tables) (d : Side) (id : Nat) (v : Live) :
    ((v.replied t d id).span d).kept = (v.span d).kept := by
  rw [Live.replied, Live.span_of_kept (refreshAlarms_kept _ _), Live.mapSpan_span]
  rfl

theorem replied_probeFree {t : Tables} {d : Side} {id : Nat} {v : Live} (hl : Loss.probe d ∉ v.losses)
    (hq : ∀ q ∈ (v.port (.line d)).queue, q.note ≠ .probe) : (v.replied t d id).ProbeFree d := by
  refine (refreshAlarms_flows _ _).probeFree ⟨hl, hq, ?_, ?_⟩ <;> rw [Live.mapSpan_span] <;> rfl

theorem replied_no_probe {t : Tables} {d : Side} {id : Nat} {v : Live}
    (hq : ∀ q ∈ (v.port (.line d)).queue, isProbeFrame q = false) :
    (∀ q ∈ ((v.replied t d id).port (.line d)).queue, isProbeFrame q = false) ∧
      ((v.replied t d id).span d).outstanding = none := by
  refine (refreshAlarms_flows _ _).no_probe ⟨hq, ?_⟩
  rw [Live.mapSpan_span]
  rfl

theorem replied_df (t : Tables) (d : Side) (id : Nat) (v : Live) :
    ((v.replied t d id).span d).state = .down ∨ ((v.replied t d id).span d).df = (v.span d).df := by
  have h := (refreshAlarms_flows t (v.mapSpan d
    (fun x => Span.triedUp (t.port.line.get d) { x.answered id with mismatch := false }))).span_df (d := d)
  rw [Live.mapSpan_span] at h
  exact h

theorem spanSample_probeFree {t : Tables} {d : Side} {rt : Int} {v : Live} (h : v.ProbeFree d) :
    (spanSample t d rt v).ProbeFree d := by
  by_cases hin : 0 ≤ rt ∧ rt ≤ 2000000000
  · rw [spanSample_accepts hin.1 hin.2]
    exact (refreshAlarms_flows _ _).probeFree (h.mapSpan rfl rfl)
  · rw [spanSample_rejects (by omega)]
    exact h.mapSpan rfl rfl

theorem spanSample_rejects_kept {t : Tables} {d : Side} {rt : Int} {v : Live} (h : rt < 0 ∨ 2000000000 < rt) :
    ((spanSample t d rt v).span d).kept = { (v.span d).kept with rejected := bump (v.span d).kept.rejected } := by
  rw [spanSample_rejects h, Live.mapSpan_span]
  rfl

theorem spanSample_accepts_kept {t : Tables} {d : Side} {rt : Int} {v : Live} (h0 : 0 ≤ rt) (h1 : rt ≤ 2000000000) :
    ((spanSample t d rt v).span d).kept = { (v.span d).kept with
      last := some (rt, max 0 (Int.tdiv rt 2 + (t.port.line.get d).asym)) } := by
  rw [spanSample_accepts h0 h1, Live.span_of_kept (refreshAlarms_kept _ _), Live.mapSpan_span]
  rfl

theorem spanSample_no_probe {t : Tables} {d : Side} {rt : Int} {v : Live} (h0 : 0 ≤ rt) (h1 : rt ≤ 2000000000)
    (h : (∀ q ∈ (v.port (.line d)).queue, isProbeFrame q = false) ∧ (v.span d).outstanding = none) :
    (∀ q ∈ ((spanSample t d rt v).port (.line d)).queue, isProbeFrame q = false) ∧
      ((spanSample t d rt v).span d).outstanding = none := by
  rw [spanSample_accepts h0 h1]
  refine (refreshAlarms_flows _ _).no_probe ⟨h.1, ?_⟩
  rw [Live.mapSpan_span]
  exact h.2

/-- What follows from an event leaves a DOWN span DOWN. -/
theorem Live.Flows.stays_down {d : Side} {v w : Live} (h : v.Flows w) (hd : (v.span d).state = .down) :
    (w.span d).state = .down :=
  h.span_down (P := fun y => y.state = .down) (fun _ h => h) (fun _ h => h) (fun _ _ => rfl) hd

/-- An accepted sample moves the filtered delay of a span that is not DOWN. -/
theorem spanSample_df {t : Tables} {d : Side} {rt dd : Int} {v : Live} (h0 : 0 ≤ rt) (h1 : rt ≤ 2000000000)
    (hdd : dd = max 0 (Int.tdiv rt 2 + (t.port.line.get d).asym)) :
    ((spanSample t d rt v).span d).state = .down ∨
      (v.span d).state ≠ .down ∧ ((spanSample t d rt v).span d).df = some (filterDelay (v.span d).df dd) := by
  obtain ⟨w, hw⟩ : ∃ w, w = v.mapSpan d (fun y => Span.triedUp (t.port.line.get d) (y.sampled rt dd)) := ⟨_, rfl⟩
  have hwspan : w.span d = Span.triedUp (t.port.line.get d) ((v.span d).sampled rt dd) := by rw [hw, Live.mapSpan_span]
  have hend : spanSample t d rt v = refreshAlarms t w := by rw [spanSample_accepts h0 h1, ← hdd, hw]
  rw [hend]
  by_cases hdown : (v.span d).state = .down
  · refine .inl ((refreshAlarms_flows t w).stays_down ?_)
    rw [hwspan]
    exact Span.triedUp_down hdown
  · rcases (refreshAlarms_flows t w).span_df (d := d) with h | h
    · exact .inl h
    · refine .inr ⟨hdown, h.trans ?_⟩
      rw [hwspan]
      rfl

/-- Settles O33: the matched reply, the neighbour check and the sample. -/
theorem matchedReplyMovesTheDelay : Obligations.MatchedReplyMovesTheDelay := by
  unfold Obligations.MatchedReplyMovesTheDelay
  refine ⟨fun n d rx f h seq t2 t3 s v hv hc => ?_, fun t d v x c hx hcfg => ?_⟩
  · have hexec : ∀ w, takeReply s.tables d rx h.sender seq t2 t3 v = w →
        exec (.spanReplyArrival n d .ends f) s = .next (s.settled w) := fun w hw =>
      congrArg Host.Outcome.next ((State.receive_claimed hv hc).trans (State.settled_congr s hw))
    refine ⟨fun hun => hexec _ (takeReply_unmatched hun _ _ _ _ _), fun o rt ho hseq hrt => ⟨?_, ?_⟩⟩
    · intro x y z u hx hy hz hsame hchange hchangeUp
      refine hexec _ ((takeReply_matched ho hseq _ _ _ _ _).trans ?_)
      have hu : learnNeighbour d h.sender (v.mapSpan d (fun s => { s with outstanding := none, timeoutRun := 0 })) = u := by
        by_cases hkeep : x.learned = none ∨ x.learned = some h.sender
        · rw [learnNeighbour_keeps (by rw [← hx]; exact hkeep), hsame hkeep]
          refine Live.mapSpan_congr v d ?_
          rw [hy, hx]
          rfl
        · obtain ⟨hnone, hid⟩ := not_or.mp hkeep
          by_cases hup : x.state = .up
          · rw [hchangeUp hnone hid hup, learnNeighbour_changes_up (by rw [← hx]; exact hnone)
              (by rw [← hx]; exact hid) (by rw [← hx]; exact hup)]
            refine congrArg (loseInput d.cand) (Live.mapSpan_congr v d ?_)
            rw [hz, hy, hx]
            rfl
          · rw [hchange hnone hid hup, learnNeighbour_changes (by rw [← hx]; exact hnone)
              (by rw [← hx]; exact hid) (by rw [← hx]; exact hup)]
            refine Live.mapSpan_congr v d ?_
            rw [hz, hy, hx]
            rfl
      rw [hu, hrt]
      rfl
    · intro dd hlearned hpass hdd
      have htake : takeReply s.tables d rx h.sender seq t2 t3 v =
          spanSample s.tables d rt (v.replied s.tables d h.sender) := by
        rw [takeReply_passes ho hseq hlearned hpass, hrt]
        rfl
      have hbefore := replied_kept s.tables d h.sender v
      have hfinal := Live.span_of_kept (finish_kept s.tables (takeReply s.tables d rx h.sender seq t2 t3 v)) d
      have hend := finish_flows s.tables (takeReply s.tables d rx h.sender seq t2 t3 v)
      refine ⟨_, hexec _ rfl, rfl, rfl, ?_, fun hlosses hqueue => ?_, fun hout => ?_, fun h0 h1 =>
        ⟨?_, ?_, fun hstate => ⟨fun hnone => ?_, ?_⟩⟩⟩
      · show (finish _ _).ts.value = _
        rw [finish_value]
        exact (takeReply_calm _ _ _ _ _ _ _ _).value
      · have hfree : (takeReply s.tables d rx h.sender seq t2 t3 v).ProbeFree d := by
          rw [htake]
          exact spanSample_probeFree (replied_probeFree (by rw [hlosses]; exact List.not_mem_nil) hqueue)
        have := hend.probeFree hfree
        exact ⟨this.outstanding, this.run⟩
      · rw [htake, spanSample_rejects_kept hout, hbefore] at hfinal
        have hrejected := congrArg Span.rejected hfinal
        have hlast := congrArg Span.last hfinal
        rw [← htake] at hrejected hlast
        exact ⟨hrejected, hlast⟩
      · rw [htake, spanSample_accepts_kept h0 h1, ← hdd, ← htake] at hfinal
        have := congrArg Span.last hfinal
        exact this
      · rw [htake, spanSample_accepts_kept h0 h1, hbefore, ← htake] at hfinal
        have := congrArg Span.rejected hfinal
        exact this
      · have hfree := spanSample_no_probe (t := s.tables) h0 h1 (replied_no_probe (t := s.tables) (id := h.sender)
          (fun q hq => Bool.eq_false_iff.mpr (List.any_eq_false.mp hnone q hq)))
        rw [← htake] at hfree
        exact (hend.no_probe hfree).2
      · have hopen : ((takeReply s.tables d rx h.sender seq t2 t3 v).span d).state ≠ .down := fun hd =>
          hstate (hend.stays_down hd)
        have hdf := spanSample_df (v := v.replied s.tables d h.sender) h0 h1 hdd
        rw [← htake] at hdf
        obtain ⟨hup, hmoved⟩ := hdf.resolve_left hopen
        rw [(replied_df _ _ _ _).resolve_left hup] at hmoved
        refine (hend.span_df.resolve_left hstate).trans (hmoved.trans ?_)
        cases (v.span d).df <;> rfl
  · refine ⟨neighbourFails_iff c x, fun hf hup => ?_, fun hf hup => ?_, fun hf => ?_, fun rt dd y hdd hy =>
      ⟨fun hout => ?_, fun h0 h1 => ?_⟩⟩
    · rw [neighbourCheck_fails_up (by rw [← hcfg, ← hx]; exact hf) (by rw [← hx]; exact hup)]
      refine congrArg (fun w => refreshAlarms t (loseInput d.cand w)) (Live.mapSpan_congr v d ?_)
      rw [hx]
    · rw [neighbourCheck_fails (by rw [← hcfg, ← hx]; exact hf) (by rw [← hx]; exact hup)]
      refine congrArg (refreshAlarms t) (Live.mapSpan_congr v d ?_)
      rw [hx]
    · rw [neighbourCheck_passes (by rw [← hcfg, ← hx]; exact hf)]
      refine congrArg (refreshAlarms t) (Live.mapSpan_congr v d ?_)
      have hsame : neighbourFails c { x with mismatch := false } = false :=
        (neighbourFails_congr c (x := x) rfl).trans hf
      rw [← hx, ← hcfg, Span.triedUp]
      simp only [hsame, and_true]
    · rw [spanSample_rejects hout]
      refine Live.mapSpan_congr v d ?_
      rw [hx]
      rfl
    · rw [spanSample_accepts h0 h1]
      refine congrArg (refreshAlarms t) (Live.mapSpan_congr v d ?_)
      have hysame : x.sampled rt dd = y := by
        rw [hy, Span.sampled]
        cases x.df <;> rfl
      have hfails : neighbourFails c y = neighbourFails c x := by
        rw [hy]
        exact neighbourFails_congr c rfl
      have hystate : y.state = x.state := by rw [hy]
      rw [← hx, ← hcfg, ← hdd, hysame, Span.triedUp, hfails, hystate]

end Sys2Proof.Machine
end

section
/-! The roll cycle's clock, timeouts and losses (R122 to R128), and the standby's watches and takeover (R114 to R117,
R122, R136, R138). -/

namespace Sys2Proof.Machine

/-! ## A cycle begins and goes on (R122 to R126) -/

/-- The cycle that begins under the next sequence (R123, R124). -/
def Live.freshCycle (t : Tables) (v : Live) : Cycle :=
  { seq := v.roll.seq + 1, timeout := t.ring.timeout, members := t.ring.members, rev := false, sentAt := none,
    firstSent := none, fwd := none, seen := [] }

theorem startReverse_open {v : Live} (h : (v.span .west).state ≠ .down) (t : Tables) (c : Cycle) (f : RollResult) :
    startReverse t c f v = sendRoll t true c.seq
      { v with roll := { v.roll with cycle := some { c with rev := true, sentAt := none, fwd := some f } } } :=
  if_neg (mt (Live.spanIs_iff v .west .down).mp h)

theorem startReverse_down {v : Live} (h : (v.span .west).state = .down) (t : Tables) (c : Cycle) (f : RollResult) :
    startReverse t c f v = endCycle t { c with rev := true, sentAt := none, fwd := some f } f
      (some { outcome := .looped, loopId := some t.node.id }) v :=
  if_pos ((Live.spanIs_iff v .west .down).mpr h)

/-- The blocks where the roll clock has ticked. -/
def Live.ticked (v : Live) : Live := { v with roll := { v.roll with clock := some v.osc } }

theorem rollTick_busy {v : Live} (h : v.roll.cycle ≠ none) (t : Tables) : rollTick t v = v.ticked := by
  unfold rollTick
  dsimp only
  split
  · next hc => exact absurd hc h
  · rfl

theorem rollTick_idle {v : Live} (h : v.roll.cycle = none) (t : Tables) : rollTick t v = beginCycle t v.ticked := by
  unfold rollTick
  dsimp only
  split
  · rfl
  · next c hc => rw [h] at hc; cases hc

/-- A new cycle sends its forward ROLL, or, at a DOWN span on LE, goes on to its reverse ROLL. -/
theorem beginCycle_eq (t : Tables) (v : Live) : beginCycle t v =
    if v.spanIs .east .down then
      startReverse t (v.freshCycle t) { outcome := .looped, loopId := some t.node.id } (v.newCycle t)
    else sendRoll t false (v.roll.seq + 1) (v.newCycle t) := rfl

theorem rollTick_forward {t : Tables} {v w : Live} {fresh : Cycle} (hc : v.roll.cycle = none)
    (hfresh : fresh = v.freshCycle t)
    (hw : w = { v with roll := { v.roll with clock := some v.osc, seq := fresh.seq, cycle := some fresh } })
    (he : (v.span .east).state ≠ .down) : rollTick t v = sendRoll t false fresh.seq w := by
  rw [rollTick_idle hc, beginCycle_eq, if_neg (mt (Live.spanIs_iff v.ticked .east .down).mp he), hw, hfresh]
  rfl

theorem rollTick_reverse {t : Tables} {v w : Live} {fresh : Cycle} {o : RollResult} (hc : v.roll.cycle = none)
    (hfresh : fresh = v.freshCycle t) (ho : o = { outcome := .looped, loopId := some t.node.id })
    (hw : w = { v with roll := { v.roll with clock := some v.osc, seq := fresh.seq, cycle := some fresh } })
    (he : (v.span .east).state = .down) (hwest : (v.span .west).state ≠ .down) :
    rollTick t v = sendRoll t true fresh.seq
      { w with roll := { w.roll with cycle := some { fresh with rev := true, fwd := some o } } } := by
  rw [rollTick_idle hc, beginCycle_eq, if_pos ((Live.spanIs_iff v.ticked .east .down).mpr he),
    startReverse_open (v := v.ticked.newCycle t) hwest, hw, ho, hfresh]
  rfl

theorem rollTick_ends {t : Tables} {v w : Live} {fresh : Cycle} {o : RollResult} (hc : v.roll.cycle = none)
    (hfresh : fresh = v.freshCycle t) (ho : o = { outcome := .looped, loopId := some t.node.id })
    (hw : w = { v with roll := { v.roll with clock := some v.osc, seq := fresh.seq, cycle := some fresh } })
    (hdown : ∀ d, (v.span d).state = .down) :
    rollTick t v = endCycle t { fresh with rev := true, fwd := some o } o (some o) w := by
  rw [rollTick_idle hc, beginCycle_eq, if_pos ((Live.spanIs_iff v.ticked .east .down).mpr (hdown .east)),
    startReverse_down (v := v.ticked.newCycle t) (hdown .west), hw, ho, hfresh]
  rfl

theorem rollTickDue_of {t : Tables} {v : Live} {k : Nat} (hk : v.roll.clock = some k)
    (h : 125000 * t.ring.interval ≤ v.osc - k) : rollTickDue t v = true := by
  unfold rollTickDue
  rw [hk]
  exact decide_eq_true h

theorem rollTimeoutDue_of {v : Live} {c : Cycle} {a : Stamp} (hc : v.roll.cycle = some c) (ha : c.sentAt = some a)
    (h : (c.timeout : Int) * 100000000 ≤ interval a v.now) : rollTimeoutDue v = true := by
  unfold rollTimeoutDue
  rw [hc]
  dsimp only
  rw [ha]
  exact decide_eq_true h

/-! ## Outcomes (R125, R126) -/

theorem rollOutcome_second {v : Live} {c : Cycle} {f : RollResult} (hc : v.roll.cycle = some c) (hf : c.fwd = some f)
    (t : Tables) (o : RollResult) : rollOutcome t o v = endCycle t c f (some o) v := by
  unfold rollOutcome
  rw [hc]
  dsimp only
  rw [hf]

theorem rollOutcome_returned {v : Live} {c : Cycle} {o : RollResult} (hc : v.roll.cycle = some c) (hf : c.fwd = none)
    (ho : o.outcome = .returned) (t : Tables) : rollOutcome t o v = endCycle t c o none v := by
  unfold rollOutcome
  rw [hc]
  dsimp only
  rw [hf]
  exact if_pos ho

theorem rollOutcome_first {v : Live} {c : Cycle} {o : RollResult} (hc : v.roll.cycle = some c) (hf : c.fwd = none)
    (ho : o.outcome ≠ .returned) (t : Tables) : rollOutcome t o v = startReverse t c o v := by
  unfold rollOutcome
  rw [hc]
  dsimp only
  rw [hf]
  exact if_neg ho

/-! ## Losses (R95, R124) -/

theorem rollLost_outstanding {v : Live} {c : Cycle} {seq : Seq16} {rev : Bool} (hc : v.roll.cycle = some c)
    (hs : c.seq = seq) (hr : c.rev = rev) (t : Tables) : rollLost t seq rev v = rollTimedOut t v := by
  unfold rollLost
  rw [hc]
  exact if_pos ⟨hs, hr⟩

theorem rollLost_other {v : Live} {seq : Seq16} {rev : Bool}
    (h : ∀ c, v.roll.cycle = some c → ¬ (c.seq = seq ∧ c.rev = rev)) (t : Tables) : rollLost t seq rev v = v := by
  unfold rollLost
  split
  · next c hc => exact if_neg (h c hc)
  · rfl

theorem workLosses_none {v : Live} (h : v.losses = []) (t : Tables) : ∀ n, workLosses t n v = v
  | 0 => rfl
  | n + 1 => by rw [workLosses, h]

theorem workLosses_cons {v : Live} {l : Loss} {ls : List Loss} (h : v.losses = l :: ls) (t : Tables) (n : Nat) :
    workLosses t (n + 1) v = workLosses t n (settle t (takeLoss t l { v with losses := ls })) := by
  rw [workLosses, h]

/-- Settles O38: the tick, the timeout, and what follows every event. -/
theorem rollClockAndTimeoutDriveTheCycle : Obligations.RollClockAndTimeoutDriveTheCycle := by
  unfold Obligations.RollClockAndTimeoutDriveTheCycle
  refine ⟨fun n s v fresh hv hfresh => ⟨fun k hk hdue => ?_, fun c a hc ha hdue => ?_⟩, fun t v w fresh o ho hfresh hw =>
    ⟨fun hbusy => rollTick_busy hbusy t, fun hidle => ⟨fun he => rollTick_forward hidle hfresh hw he,
      fun he hwest => rollTick_reverse hidle hfresh ho hw he hwest, fun hdown => rollTick_ends hidle hfresh ho hw hdown⟩⟩,
    fun t d seq rev v w u => ⟨fun c hc hs hr => rollLost_outstanding hc hs hr t, fun h => rollLost_other h t,
      fun hw => ⟨fun h => ?_, fun hrun hstate => ?_⟩, rfl, rfl, rfl, fun k => ⟨fun h => workLosses_none h t _,
        fun l ls h => workLosses_cons h t k⟩, fun hu => ⟨fun h => ?_, fun l hl y hy hlosses => ?_⟩⟩⟩
  · have hexec : ∀ x, rollTick s.tables v = x → exec (.rollClockTick n) s = .next (s.settled x) := fun x hx =>
      congrArg Host.Outcome.next ((State.timed_at hv (due := rollTickDue) rollTick (rollTickDue_of hk hdue)).trans
        (State.settled_congr s hx))
    exact ⟨fun hbusy => hexec _ (rollTick_busy hbusy _), fun hidle he => hexec _ (rollTick_forward hidle hfresh rfl he),
      fun hidle he hwest => hexec _ (rollTick_reverse hidle hfresh rfl rfl he hwest),
      fun o ho hidle hdown => hexec _ (rollTick_ends hidle hfresh ho rfl hdown)⟩
  · have hexec : ∀ x, rollTimedOut s.tables v = x → exec (.rollTimeout n) s = .next (s.settled x) := fun x hx =>
      congrArg Host.Outcome.next ((State.timed_at hv (due := fun _ v => rollTimeoutDue v) rollTimedOut
        (rollTimeoutDue_of hc ha hdue)).trans (State.settled_congr s hx))
    obtain ⟨x, hx⟩ : ∃ x : Live, x = { v with roll := { v.roll with rollTimeouts := bump v.roll.rollTimeouts } } :=
      ⟨_, rfl⟩
    have hxc : x.roll.cycle = some c := by rw [hx]; exact hc
    have hxspan : ∀ d, x.span d = v.span d := fun d => by rw [hx]; rfl
    have htimed : rollTimedOut s.tables v = rollOutcome s.tables { outcome := .timedOut, loopId := none } x := by
      rw [hx]
      rfl
    refine ⟨fun hf hwest => hexec _ ?_, fun o ho hf hwest => hexec _ ?_, fun f hf => hexec _ ?_⟩
    · rw [htimed, rollOutcome_first hxc hf (by decide), startReverse_open (by rw [hxspan]; exact hwest), hx]
      rfl
    · rw [htimed, rollOutcome_first hxc hf (by decide), startReverse_down (by rw [hxspan]; exact hwest), hx, ho]
      rfl
    · rw [htimed, rollOutcome_second hxc hf, hx]
      rfl
  · by_cases hrun : (v.span d).timeoutRun < 2
    · rw [hw]
      exact probeTimeout_counts hrun t
    · have hdown := h.resolve_left hrun
      rw [hw]
      refine (probeTimeout_downs (Nat.le_of_not_lt hrun) t).trans (enterDown_down ?_ t)
      rw [Live.mapSpan_span]
      exact hdown
  · rw [hw]
    exact probeTimeout_downs hrun t
  · rw [hu] at h ⊢
    exact workLosses_none h t _
  · show workLosses t (15 + 1) (settle t v) = y
    rw [← hu, workLosses_cons hl t 15, ← hy, workLosses_none hlosses]

/-! ## The standby (R114 to R117) -/

theorem startTakeover_ceaseHead (v : Live) : startTakeover (ceaseHead v) = ceaseHead (startTakeover v) := by
  unfold ceaseHead statusWithoutHead startTakeover
  dsimp only
  split <;> rfl

theorem takeoverReached_iff {t : Tables} {v : Live} {tm : Timer} (h : v.epoch.takeover = some tm) :
    takeoverReached t v = true ↔ (t.ring.takeover : Int) * 1000000000000 ≤ tm.base + interval tm.since v.now := by
  unfold takeoverReached
  rw [h]
  exact decide_eq_true_iff

theorem takeoverDue_iff {t : Tables} {v : Live} : takeoverDue t v = true ↔ originRole t = .standby ∧
    v.epoch.active = false ∧ takeoverReached t v = true ∧ v.part = .running ∧ v.servo.state = .locked ∧
    v.selection = some .ref := by
  simp only [takeoverDue, Bool.and_eq_true, Bool.not_eq_true', decide_eq_true_eq, and_assoc]

theorem takeoverCheck_due {t : Tables} {v : Live} (h : takeoverDue t v = true) :
    takeoverCheck t v = becomeActive t { v with epoch := { v.epoch with takeovers := bump v.epoch.takeovers } } :=
  if_pos h

theorem revertReached_iff {t : Tables} {v : Live} {r : RevertWatch} (h : v.epoch.revert = some r) :
    revertReached t v = true ↔ (t.ring.revert : Int) * 1000000000000 ≤ interval r.start v.now := by
  unfold revertReached
  rw [h]
  exact decide_eq_true_iff

/-- A takeover holds through what follows from it, and so does its first cycle's sequence. -/
theorem takeover_stands (t : Tables) (v : Live) :
    (finish t (becomeActive t v)).epoch = { v.epoch with active := true, takeover := none, revert := none } ∧
      (finish t (becomeActive t v)).roll.seq = v.roll.seq + 1 :=
  ((becomeActive_flows t v).trans (finish_flows t _)).active rfl

theorem watchPrimary_other {t : Tables} {h : Header} (hn : originRole t ≠ .standby ∨ h.origin ≠ t.ring.primary)
    (b : EpochBody) (v : Live) : watchPrimary t h b v = v :=
  if_neg fun hp => hn.elim (fun hr => hr hp.1) (fun ho => ho hp.2)

theorem watchPrimary_idle {t : Tables} {h : Header} {v : Live} (hr : originRole t = .standby)
    (ho : h.origin = t.ring.primary) (ha : v.epoch.active = false) (b : EpochBody) :
    watchPrimary t h b v = if b.cls ≠ .q4 then startTakeover v else v :=
  (if_pos ⟨hr, ho⟩).trans (if_neg (by rw [ha]; decide))

theorem watchPrimary_active {t : Tables} {h : Header} {v : Live} (hr : originRole t = .standby)
    (ho : h.origin = t.ring.primary) (ha : v.epoch.active = true) (b : EpochBody) :
    watchPrimary t h b v = if b.cls.num ≤ v.ownClass.num then
      { v with epoch := { v.epoch with
          revert := some {
            start := (match v.epoch.revert with
              | some w => w.start
              | none => v.now)
            lastQual := v.now, gapSince := v.now } } }
      else v :=
  (if_pos ⟨hr, ho⟩).trans (if_pos ha)

/-- Settles O37: the takeover, the revert watch, and what becomes of a head's items. -/
theorem standbyTakesOverAndReverts : Obligations.StandbyTakesOverAndReverts := by
  unfold Obligations.StandbyTakesOverAndReverts
  refine ⟨fun n s v hv hrole => ⟨fun tm hpart hidle htm hreached hlocked hsel => ?_, fun r hr =>
    ⟨fun hgap => ?_, fun hactive hreached => ?_⟩⟩, fun t h b v => ⟨fun hn => watchPrimary_other hn b v,
      fun hrole ho hidle => ⟨fun hc => ?_, fun hc => ?_⟩, fun hrole ho hactive => ⟨fun hc => ?_, fun hc =>
        ⟨fun hnone => ?_, fun r hr => ?_⟩⟩⟩, fun t v cleared hcleared => ⟨rfl, ?_, ?_,
          fun tm hrole hidle htm hreached hpart hlocked hsel => ?_, fun hnot => ?_⟩⟩
  · have hdue : takeoverDue s.tables v = true := takeoverDue_iff.mpr
      ⟨hrole, hidle, (takeoverReached_iff htm).mpr hreached, by rw [hv]; exact hpart, hlocked, hsel⟩
    have hexec : exec (.takeoverTimeReached n) s = .next (s.settled (takeoverCheck s.tables v)) :=
      congrArg Host.Outcome.next (State.timed_at hv (due := takeoverDue) takeoverCheck hdue)
    have hstands := takeover_stands s.tables { v with epoch := { v.epoch with takeovers := bump v.epoch.takeovers } }
    rw [← takeoverCheck_due hdue] at hstands
    obtain ⟨hepoch, hseq⟩ := hstands
    refine ⟨_, hexec, rfl, rfl, congrArg Epoch.active hepoch, congrArg Epoch.takeover hepoch,
      congrArg Epoch.revert hepoch, congrArg Epoch.takeovers hepoch, hseq, ?_⟩
    show (finish _ _).ts.value = _
    rw [finish_value]
    exact (takeoverCheck_still _ _).value
  · refine congrArg Host.Outcome.next (State.timed_at hv (due := revertGapOver) (fun _ v => stopRevert v) ?_)
    unfold revertGapOver
    rw [hr]
    exact decide_eq_true hgap
  · have hreach := (revertReached_iff (t := s.tables) hr).mpr hreached
    have hdue : (decide (originRole s.tables = .standby) && v.epoch.active && revertReached s.tables v) = true := by
      rw [hrole, hactive, hreach]
      rfl
    refine congrArg Host.Outcome.next ((State.timed_at hv (due := revertDue) revertCheck hdue).trans
      (State.settled_congr s ?_))
    exact (if_pos hdue).trans (startTakeover_ceaseHead _)
  · rw [watchPrimary_idle hrole ho hidle, if_pos hc]
    rfl
  · rw [watchPrimary_idle hrole ho hidle, if_neg (not_not_intro hc)]
  · rw [watchPrimary_active hrole ho hactive, if_neg (Nat.not_le.mpr hc)]
  · rw [watchPrimary_active hrole ho hactive, if_pos hc, hnone]
  · rw [watchPrimary_active hrole ho hactive, if_pos hc, hr]
  · rw [hcleared]
    rfl
  · rw [hcleared]
    unfold ceaseHead statusWithoutHead
    dsimp only
    split <;> rfl
  · exact takeoverCheck_due (takeoverDue_iff.mpr
      ⟨hrole, hidle, (takeoverReached_iff htm).mpr hreached, hpart, hlocked, hsel⟩)
  · refine if_neg fun hdue => ?_
    obtain ⟨hrole, hidle, hreached, hpart, hlocked, hsel⟩ := takeoverDue_iff.mp hdue
    rcases hnot with h | h | h | ⟨tm, htm, h⟩ | h | h | h
    · exact h hrole
    · rw [hidle] at h; cases h
    · rw [takeoverReached, h] at hreached; cases hreached
    · exact absurd ((takeoverReached_iff htm).mp hreached) (not_le.mpr h)
    · rw [hpart] at h; cases h
    · exact h hlocked
    · exact h hsel

end Sys2Proof.Machine
end

section
/-! The ROLL a head forms (R123, R126), the end of a cycle (R126 to R128, R137, R144), and the arrival of a ROLL
(R125, R130, R136). -/

namespace Sys2Proof.Machine

/-! ## Lists and sets of ids -/

theorem modifyAt_get_map {α : Type} (f : α → α) : ∀ (l : List α) (i : Nat), (modifyAt i f l)[i]? = l[i]?.map f
  | [], i => by simp [modifyAt]
  | a :: l, 0 => by simp [modifyAt]
  | a :: l, i + 1 => by simpa [modifyAt] using modifyAt_get_map f l i

theorem modifyAt_get_other {α : Type} (f : α → α) : ∀ (l : List α) {i j : Nat}, i ≠ j → (modifyAt i f l)[j]? = l[j]?
  | [], i, j, _ => by simp [modifyAt]
  | a :: l, 0, 0, h => absurd rfl h
  | a :: l, 0, j + 1, _ => by simp [modifyAt]
  | a :: l, i + 1, 0, _ => by simp [modifyAt]
  | a :: l, i + 1, j + 1, h => by
    simpa [modifyAt] using modifyAt_get_other f l (i := i) (j := j) (fun e => h (by rw [e]))

/-- The number whose bits below `n` are those of the ids that satisfy a test. -/
def bitsBelow (f : Nat → Bool) (n : Nat) : Nat := (List.range n).foldl (fun a i => if f i then a + 2 ^ i else a) 0

theorem bitsBelow_succ (f : Nat → Bool) (n : Nat) :
    bitsBelow f (n + 1) = if f n then bitsBelow f n + 2 ^ n else bitsBelow f n := by
  rw [bitsBelow, List.range_succ, List.foldl_append]
  rfl

theorem bitsBelow_lt (f : Nat → Bool) : ∀ n, bitsBelow f n < 2 ^ n
  | 0 => by simp [bitsBelow]
  | n + 1 => by
    have h := bitsBelow_lt f n
    rw [bitsBelow_succ, Nat.pow_succ]
    split <;> omega

theorem bitsBelow_testBit (f : Nat → Bool) : ∀ n i, i < n → (bitsBelow f n).testBit i = f i
  | 0, _, h => absurd h (Nat.not_lt_zero _)
  | n + 1, i, h => by
    rw [bitsBelow_succ]
    rcases Nat.lt_succ_iff_lt_or_eq.mp h with hi | rfl
    · split
      · rw [Nat.add_comm, Nat.testBit_two_pow_add_gt hi, bitsBelow_testBit f n i hi]
      · exact bitsBelow_testBit f n i hi
    · have hzero : (bitsBelow f i).testBit i = false := Nat.testBit_lt_two_pow (bitsBelow_lt f i)
      split
      · next hf => rw [Nat.add_comm, Nat.testBit_two_pow_add_eq, hzero, hf]; rfl
      · next hf => rw [hzero, Bool.eq_false_iff.mpr hf]

/-- An id below 32 is in the set of a test where it satisfies the test. -/
theorem inSet_setOf {i : Nat} (h : i < 32) (f : Nat → Bool) : inSet (setOf f) i = f i := by
  have hbits : inSet (setOf f) i = (decide (i < 32) && (bitsBelow f 32).testBit i) := BitVec.getLsbD_ofNat _ _ _
  rw [hbits, bitsBelow_testBit f 32 i h, decide_eq_true h, Bool.true_and]

theorem inSet_mapSet {i : Nat} (h : i < 32) (p : MapEntry → Bool) (m : List MapEntry) :
    inSet (mapSet p m) i = true ↔ ∃ e, m[i]? = some e ∧ p e = true := by
  rw [mapSet, inSet_setOf h]
  cases m[i]? with
  | none => simp
  | some e => simp

/-! ## The ROLL a head forms -/

/-- A head's own slot is never stale: its generation is the one it sends. -/
theorem ownSlot_own (t : Tables) (seq : Seq16) (v : Live) : ownSlot t seq t.ring.gen v =
    { fillSeq := seq, servo := v.servo.state, cls := v.ownClass, summary := summaryCode v.alarms.summary,
      gen := t.ring.gen, stale := false, mismatch := decide (v.roll.rejectedGen = some t.ring.gen),
      duplicate := v.roll.duplicate.isSome, carried := false, serial := t.node.serial } := by
  rw [ownSlot, show decide (t.ring.gen ≠ t.ring.gen) = false from decide_eq_false (not_not_intro rfl)]

/-- Settles O39: the formed ROLL item by item, and its hand-over. -/
theorem formedRollCarriesTheView : Obligations.FormedRollCarriesTheView := by
  unfold Obligations.FormedRollCarriesTheView
  refine ⟨fun t rev seq v u own hu hown => ?_, fun t rev seq v => ?_⟩
  · rw [hu] at hown
    rw [hown, ← ownSlot_own, hu]
    rfl
  · refine ⟨_, rfl, originRole_rank t, rfl, rfl, rfl, rfl, by simp, fun i hi => ⟨?_, ?_, ?_, fun hself => ?_,
      fun hother e he => ?_⟩⟩
    · exact (inSet_mapSet hi _ _).trans (by simp only [decide_eq_true_eq])
    · exact (inSet_mapSet hi _ _).trans (by simp only [decide_eq_true_eq])
    · exact (inSet_mapSet hi _ _).trans (by simp only [decide_eq_true_eq])
    · rw [List.getElem?_map, List.getElem?_range hi, ← ownSlot_own]
      exact congrArg some (if_pos hself)
    · rw [List.getElem?_map, List.getElem?_range hi]
      refine congrArg some ((if_neg hother).trans ?_)
      rw [he]

/-! ## The entries at the end of a cycle (R137, R144) -/

theorem judgeSilences_get (c : Cycle) (self : Nat) : ∀ (l : List MapEntry) (k i : Nat),
    (judgeSilences c self k l)[i]? = l[i]?.map (judgeSilence c self (k + i))
  | [], k, i => by simp [judgeSilences]
  | e :: l, k, 0 => by simp [judgeSilences]
  | e :: l, k, i + 1 => by
    have h := judgeSilences_get c self l (k + 1) i
    rw [Nat.add_assoc, Nat.add_comm 1 i] at h
    simpa [judgeSilences] using h

theorem deriveEntries_get (t : Tables) (g : Bool) : ∀ (l : List MapEntry) (k i : Nat),
    (deriveEntries t g k l)[i]? = l[i]?.map (deriveEntry t g (k + i))
  | [], k, i => by simp [deriveEntries]
  | e :: l, k, 0 => by simp [deriveEntries]
  | e :: l, k, i + 1 => by
    have h := deriveEntries_get t g l (k + 1) i
    rw [Nat.add_assoc, Nat.add_comm 1 i] at h
    simpa [deriveEntries] using h

/-- A ring map entry less its CONFIG marker. -/
def MapEntry.unmark (e : MapEntry) : MapEntry := { e with marker := false }

/-- The roll engine less what sending a CONFIG moves. -/
def Roll.unsent (r : Roll) : Roll :=
  { r with configSeq := 0, lastServed := none, configSent := 0, map := r.map.map MapEntry.unmark }

theorem onTransmit_cycle_none (p : Port) (q : QFrame) {v : Live} (h : v.roll.cycle = none) :
    (onTransmit p q v).roll.cycle = none := by
  unfold onTransmit
  split
  · unfold probeSent
    split
    · split
      · exact h
      · exact h
    · exact h
    · exact h
  · unfold rollSent
    rw [h]
    exact h
  all_goals exact h

/-- With no cycle in progress a hand-over leaves the roll engine. -/
theorem hand_roll_idle (p : Port) (q : QFrame) {v : Live} (h : v.roll.cycle = none) : (hand p q v).roll = v.roll := by
  have hgrant : ∀ w : Live, w.roll.cycle = none → (grant p w).roll.cycle = none := fun w hw =>
    grant_rule (P := fun x => x.roll.cycle = none) hw (fun _ _ _ _ => onTransmit_cycle_none _ _ hw) (fun _ _ => hw)
  have hlost : ∀ r old (w : Live), w.roll.cycle = none → (noteLost r p old w).roll.cycle = none := fun r old w hw => by
    rw [(noteLost_egress r p old w).roll]
    unfold noteLost
    split
    · split <;> exact hw
    all_goals exact hw
  have hnone : (hand p q v).roll.cycle = none :=
    hand_rule (P := fun x => x.roll.cycle = none) h (hlost _ _ _ h) (fun _ => hgrant _ h)
      (fun _ _ _ _ _ => hgrant _ (hlost _ _ _ h))
  rw [(hand_egress p q v).roll, hnone, ← h]

theorem modifyAt_unmark (i : Nat) (l : List MapEntry) :
    (modifyAt i (fun e => { e with marker := true }) l).map MapEntry.unmark = l.map MapEntry.unmark := by
  induction l generalizing i with
  | nil => simp [modifyAt]
  | cons e l ih =>
    cases i with
    | zero => rfl
    | succ i => exact congrArg (_ :: ·) (ih i)

theorem sendConfig_unsent {t : Tables} {i : Nat} {v w : Live} (hc : v.roll.cycle = none)
    (h : sendConfig t i v = some w) : w.roll.cycle = none ∧ w.roll.unsent = v.roll.unsent := by
  unfold sendConfig at h
  split at h
  · cases h
  · cases h
    generalize hm : mapEntryAt i _ _ = m
    have hcm : m.roll.cycle = none := by subst hm; exact hc
    rw [hand_roll_idle _ _ hcm]
    subst hm
    refine ⟨hc, ?_⟩
    exact congrArg (fun m : List MapEntry => { v.roll with configSeq := 0, lastServed := none, configSent := 0, map := m })
      (modifyAt_unmark i v.roll.map)

theorem sendConfigs_unsent (t : Tables) (l : List Nat) : ∀ (n : Nat) (v : Live), v.roll.cycle = none →
    (sendConfigs t n l v).2.roll.cycle = none ∧ (sendConfigs t n l v).2.roll.unsent = v.roll.unsent := by
  induction l with
  | nil => intro n v h; cases n <;> exact ⟨h, rfl⟩
  | cons i l ih =>
    intro n v h
    cases n with
    | zero => exact ⟨h, rfl⟩
    | succ n =>
      rw [sendConfigs]
      split
      · next v' hv' =>
        obtain ⟨hc, hu⟩ := sendConfig_unsent h hv'
        obtain ⟨hc', hu'⟩ := ih n v' hc
        exact ⟨hc', hu'.trans hu⟩
      · exact ih _ v h

/-- The CONFIG work at the end of a cycle leaves the roll engine but for what it sends. -/
theorem configScan_unsent (t : Tables) {v : Live} (h : v.roll.cycle = none) :
    (configScan t v).roll.cycle = none ∧ (configScan t v).roll.unsent = v.roll.unsent := by
  unfold configScan
  split
  · exact ⟨h, rfl⟩
  · obtain ⟨hc, hu⟩ := sendConfigs_unsent t _ 4 v h
    obtain ⟨hc', hu'⟩ := sendConfigs_unsent t _ _ _ hc
    exact ⟨hc', hu'.trans hu⟩

/-- The roll engine at the end of a cycle, before its CONFIG work (R126). -/
def Live.cycleEnded (t : Tables) (c : Cycle) (f : RollResult) (r : Option RollResult) (v : Live) : Roll :=
  let st := statusOf f.outcome (r.map (fun x => x.outcome))
  let time := cycleMicros c v.now
  { v.roll with
    cycle := none
    map := deriveEntries t false 0 (judgeSilences c t.node.id 0 v.roll.map)
    loopSwitches :=
      if st ≠ v.roll.status ∧ st ≠ .forward then bump v.roll.loopSwitches else v.roll.loopSwitches
    status := st
    fwd := some f
    rev := r
    cycleTime := some time
    cycleMin := some (min time (v.roll.cycleMin.getD time))
    cycleMax := some (max time (v.roll.cycleMax.getD time)) }

theorem endCycle_unsent (t : Tables) (c : Cycle) (f : RollResult) (r : Option RollResult) (v : Live) :
    (endCycle t c f r v).roll.unsent = (v.cycleEnded t c f r).unsent :=
  (configScan_unsent t (v := deriveConfig t false _) rfl).2

/-- An entry at the end of a cycle is the judged and derived one, but for its marker. -/
theorem endCycle_entry {t : Tables} {c : Cycle} {f : RollResult} {r : Option RollResult} {v : Live} {i : Nat}
    {e : MapEntry} (he : v.roll.map[i]? = some e) : ∃ m, (endCycle t c f r v).roll.map[i]? =
      some { deriveEntry t false i (judgeSilence c t.node.id i e) with marker := m } := by
  have hmap : (endCycle t c f r v).roll.map.map MapEntry.unmark = (v.cycleEnded t c f r).map.map MapEntry.unmark :=
    congrArg Roll.map (endCycle_unsent t c f r v)
  have hi := congrArg (fun l => l[i]?) hmap
  simp only [List.getElem?_map] at hi
  have hend : (v.cycleEnded t c f r).map[i]? = some (deriveEntry t false i (judgeSilence c t.node.id i e)) := by
    show (deriveEntries t false 0 (judgeSilences c t.node.id 0 v.roll.map))[i]? = _
    rw [deriveEntries_get, judgeSilences_get, he, Nat.zero_add]
    rfl
  rw [hend] at hi
  obtain ⟨x, hx, hunmark⟩ := Option.map_eq_some_iff.mp hi
  refine ⟨x.marker, hx.trans (congrArg some ?_)⟩
  have := congrArg (fun y : MapEntry => { y with marker := x.marker }) hunmark
  exact this

theorem judgeSilence_left {c : Cycle} {self i : Nat} {e : MapEntry}
    (h : i = self ∨ i ∉ c.members ∧ e.presence ≠ .present) : judgeSilence c self i e = e := by
  refine if_neg fun ⟨hself, hjudged⟩ => ?_
  rcases h with h | ⟨hm, hp⟩
  · exact hself h
  · exact hjudged.elim (fun hj => hm (of_decide_eq_true hj)) hp

/-- An entry other than the head's own that is configured or PRESENT is judged (R137). -/
theorem judgeSilence_judged {c : Cycle} {self i : Nat} {e : MapEntry} (hself : i ≠ self)
    (h : i ∈ c.members ∨ e.presence = .present) : judgeSilence c self i e =
      (if i ∈ c.seen then
        { e with miss := 0, presence := if e.presence = .silent then .present else e.presence }
      else if min 3 (e.miss + 1) = 3 then
        if i ∈ c.members then { e with miss := min 3 (e.miss + 1), presence := .silent }
        else { e with miss := 0, presence := .unknown, slot := none }
      else { e with miss := min 3 (e.miss + 1) }) := by
  have hcond : i ≠ self ∧ (decide (i ∈ c.members) = true ∨ e.presence = .present) :=
    ⟨hself, h.imp_left decide_eq_true⟩
  refine (if_pos hcond).trans ?_
  by_cases hm : i ∈ c.members
  · simp only [hm, decide_true, if_true]
  · simp only [hm, decide_false, Bool.false_eq_true, if_false]

theorem judgeSilence_merge (c : Cycle) (self i : Nat) (e : MapEntry) :
    (judgeSilence c self i e).mergeRev = e.mergeRev ∧ (judgeSilence c self i e).mergeGen = e.mergeGen := by
  by_cases h : i = self ∨ i ∉ c.members ∧ e.presence ≠ .present
  · rw [judgeSilence_left h]
    exact ⟨rfl, rfl⟩
  · have hself : i ≠ self := fun hi => h (.inl hi)
    have hjudged : i ∈ c.members ∨ e.presence = .present := by
      by_contra hn
      exact h (.inr (not_or.mp hn))
    rw [judgeSilence_judged hself hjudged]
    split
    · exact ⟨rfl, rfl⟩
    · split
      · split
        · exact ⟨rfl, rfl⟩
        · exact ⟨rfl, rfl⟩
      · exact ⟨rfl, rfl⟩

/-- Deriving a config state changes nothing but the state and the marker. -/
theorem deriveEntry_eq (t : Tables) (g : Bool) (i : Nat) (e : MapEntry) : ∃ m, deriveEntry t g i e = { e with
    config := if i ∈ t.ring.members ∧ i ≠ t.node.id then some (configStateOf t.ring.gen e) else none, marker := m } := by
  unfold deriveEntry
  split
  · exact ⟨_, rfl⟩
  · exact ⟨e.marker, rfl⟩

theorem configStateOf_unseen {gen : Nat} {e : MapEntry} (h : e.slot = none ∨ e.presence = .silent) :
    configStateOf gen e = .unseen := by
  unfold configStateOf
  split
  · rfl
  · next s hs =>
    rcases h with h | h
    · rw [h] at hs; cases hs
    · exact if_pos h

theorem configStateOf_filled {gen : Nat} {e : MapEntry} {y : Slot} (hs : e.slot = some y)
    (hp : e.presence ≠ .silent) : configStateOf gen e =
      if y.mismatch = true ∧ e.mergeGen = some gen then .mismatch else if y.gen = gen then .inSync else .pending := by
  unfold configStateOf
  rw [hs]
  exact if_neg hp

/-- Settles O40: the judged entries, the status, the cycle times and the config states. -/
theorem cycleEndDerivesTheStatus : Obligations.CycleEndDerivesTheStatus := by
  unfold Obligations.CycleEndDerivesTheStatus
  intro t c f r v w micros hw hmicros
  have hroll : w.roll.unsent = (v.cycleEnded t c f r).unsent := by
    rw [hw]
    exact endCycle_unsent t c f r v
  have hmicros' : micros = cycleMicros c v.now := by
    rw [hmicros]
    rfl
  have hstatus : w.roll.status = statusOf f.outcome (r.map (fun x => x.outcome)) := by
    have := congrArg Roll.status hroll
    exact this
  have hcycle : w.roll.cycle = none := by
    have := congrArg Roll.cycle hroll
    exact this
  have hfwd : w.roll.fwd = some f := by
    have := congrArg Roll.fwd hroll
    exact this
  have hrev : w.roll.rev = r := by
    have := congrArg Roll.rev hroll
    exact this
  have htime : w.roll.cycleTime = some micros := by
    rw [hmicros']
    have := congrArg Roll.cycleTime hroll
    exact this
  have hmin : w.roll.cycleMin = some (min micros (v.roll.cycleMin.getD micros)) := by
    rw [hmicros']
    have := congrArg Roll.cycleMin hroll
    exact this
  have hmax : w.roll.cycleMax = some (max micros (v.roll.cycleMax.getD micros)) := by
    rw [hmicros']
    have := congrArg Roll.cycleMax hroll
    exact this
  have hswitches : w.roll.loopSwitches = (if w.roll.status ≠ v.roll.status ∧ w.roll.status ≠ .forward
      then min 65535 (v.roll.loopSwitches + 1) else v.roll.loopSwitches) := by
    rw [hstatus]
    have := congrArg Roll.loopSwitches hroll
    exact this
  refine ⟨hcycle, hfwd, hrev, htime, hmin, hmax, fun h => ?_, fun x hx hf ho => ?_, fun x hx hf ho => ?_,
    fun x hx hf ho => ?_, fun x hx hf ho => ?_, fun x hx hf ho => ?_, hswitches, fun i e he => ?_⟩
  · rw [hstatus, h]
    rfl
  · rw [hstatus, hx, Option.map_some, ho]
    cases hfo : f.outcome with
    | returned => exact absurd hfo hf
    | _ => rfl
  · rw [hstatus, hx, hf, Option.map_some, ho]
    rfl
  · rw [hstatus, hx, hf, Option.map_some, ho]
    rfl
  · rw [hstatus, hx, hf, Option.map_some, ho]
    rfl
  · rw [hstatus, hx, hf, Option.map_some, ho]
    rfl
  · obtain ⟨j, hj⟩ : ∃ j, j = judgeSilence c t.node.id i e := ⟨_, rfl⟩
    obtain ⟨m, hm⟩ := deriveEntry_eq t false i j
    obtain ⟨k, hk⟩ := endCycle_entry (t := t) (c := c) (f := f) (r := r) he
    rw [← hw, ← hj, hm] at hk
    have hmerge := judgeSilence_merge c t.node.id i e
    rw [← hj] at hmerge
    refine ⟨_, hk, hmerge.1, hmerge.2, fun hleft => ?_, fun hself hjudged => ?_, fun hout => ?_,
      fun hin hself => ⟨fun hunseen => ?_, fun y hslot hpres => ⟨fun hmis hgen => ?_, fun hno => ?_⟩⟩⟩
    · rw [hj, judgeSilence_left hleft]
      exact ⟨rfl, rfl, rfl⟩
    · rw [hj, judgeSilence_judged hself hjudged]
      refine ⟨fun hseen => ?_, fun hseen hmiss => ?_, fun hseen hmiss hmem => ?_, fun hseen hmiss hmem => ?_⟩
      · rw [if_pos hseen]
        exact ⟨rfl, rfl, rfl⟩
      · rw [if_neg hseen, if_neg (by omega)]
        exact ⟨by show min 3 _ = _; omega, rfl, rfl⟩
      · rw [if_neg hseen, if_pos (by omega), if_pos hmem]
        exact ⟨by show min 3 _ = _; omega, rfl, rfl⟩
      · rw [if_neg hseen, if_pos (by omega), if_neg hmem]
        exact ⟨rfl, rfl, rfl⟩
    · exact if_neg fun ⟨hin, hself⟩ => hout.elim (fun h => h hin) hself
    · exact (if_pos ⟨hin, hself⟩).trans (congrArg some (configStateOf_unseen hunseen))
    · exact (if_pos ⟨hin, hself⟩).trans (congrArg some ((configStateOf_filled hslot hpres).trans (if_pos ⟨hmis, hgen⟩)))
    · refine (if_pos ⟨hin, hself⟩).trans (congrArg some ((configStateOf_filled hslot hpres).trans (if_neg ?_)))
      rintro ⟨hmis, hgen⟩
      rcases hno with h | h
      · rw [h] at hmis; cases hmis
      · exact h hgen

/-! ## A ROLL that arrives (R125, R130, R136) -/

theorem mergeSlots_ids (seq : Seq16) (rev : Bool) (gen : Nat) : ∀ (es : List MapEntry) (ss : List (Option Slot))
    (k i : Nat), i ∈ (mergeSlots seq rev gen k ss es).1 → k ≤ i
  | [], ss, k, i, h => by simp [mergeSlots] at h
  | e :: es, [], k, i, h => by simp [mergeSlots] at h
  | e :: es, s :: ss, k, i, h => by
    have ih := mergeSlots_ids seq rev gen es ss (k + 1) i
    rw [mergeSlots] at h
    dsimp only at h
    split at h
    · split at h
      · rcases List.mem_cons.mp h with rfl | h
        · exact Nat.le_refl _
        · exact Nat.le_of_succ_le (ih h)
      · exact Nat.le_of_succ_le (ih h)
    · exact Nat.le_of_succ_le (ih h)

/-- An entry with a slot's contents merged into it (R136). -/
def MapEntry.merged (rev : Bool) (gen : Nat) (x : Slot) (e : MapEntry) : MapEntry :=
  { e with
    presence := if e.slot = none then .present else e.presence
    slot := some x, mergeRev := some rev, mergeGen := some gen }

theorem mergeSlots_spec (seq : Seq16) (rev : Bool) (gen : Nat) : ∀ (es : List MapEntry) (ss : List (Option Slot))
    (k i : Nat) (e : MapEntry), es[i]? = some e →
      (∀ x, ss[i]? = some (some x) → x.fillSeq = seq → x.carried = false →
        k + i ∈ (mergeSlots seq rev gen k ss es).1 ∧
          (mergeSlots seq rev gen k ss es).2[i]? = some (e.merged rev gen x)) ∧
      ((∀ x, ss[i]? = some (some x) → ¬ (x.fillSeq = seq ∧ x.carried = false)) →
        k + i ∉ (mergeSlots seq rev gen k ss es).1 ∧ (mergeSlots seq rev gen k ss es).2[i]? = some e)
  | [], ss, k, i, e, h => by simp at h
  | a :: es, [], k, i, e, h => by
    refine ⟨fun x hx => (by simp at hx), fun _ => ?_⟩
    rw [mergeSlots.eq_def]
    exact ⟨List.not_mem_nil, h⟩
  | a :: es, s :: ss, k, 0, e, h => by
    have hae : a = e := by simpa using h
    subst hae
    have hids := mergeSlots_ids seq rev gen es ss (k + 1) k
    rw [mergeSlots]
    dsimp only
    refine ⟨fun x hx hseq hcarried => ?_, fun hno => ?_⟩
    · have hs : s = some x := by simpa using hx
      subst hs
      dsimp only
      rw [if_pos ⟨hseq, hcarried⟩]
      refine ⟨List.mem_cons_self, ?_⟩
      cases hslot : a.slot <;> simp [MapEntry.merged, hslot]
    · have hk : k ∉ (mergeSlots seq rev gen (k + 1) ss es).1 := fun hm => absurd (hids hm) (by omega)
      split
      · next x =>
        rw [if_neg (hno x rfl)]
        exact ⟨hk, rfl⟩
      · exact ⟨hk, rfl⟩
  | a :: es, s :: ss, k, i + 1, e, h => by
    obtain ⟨hfresh, hrest⟩ := mergeSlots_spec seq rev gen es ss (k + 1) i e (by simpa using h)
    rw [Nat.add_assoc, Nat.add_comm 1 i] at hfresh hrest
    have hne : k + (i + 1) ≠ k := by omega
    rw [mergeSlots]
    dsimp only
    refine ⟨fun x hx hseq hcarried => ?_, fun hno => ?_⟩
    · obtain ⟨hin, hget⟩ := hfresh x (by simpa using hx) hseq hcarried
      split
      · split
        · exact ⟨List.mem_cons_of_mem _ hin, by simpa using hget⟩
        · exact ⟨hin, by simpa using hget⟩
      · exact ⟨hin, by simpa using hget⟩
    · obtain ⟨hout, hget⟩ := hrest (fun x hx => hno x (by simpa using hx))
      split
      · split
        · exact ⟨fun hm => (List.mem_cons.mp hm).elim hne hout, by simpa using hget⟩
        · exact ⟨hout, by simpa using hget⟩
      · exact ⟨hout, by simpa using hget⟩

theorem returnOutcome_late {c : Cycle} {d : Side} {looped : Bool}
    (h : looped = decide (d = .west ↔ c.rev = false)) : returnOutcome c d looped = none := by
  subst h
  unfold returnOutcome
  cases d <;> cases c.rev <;> rfl

theorem returnOutcome_fits {c : Cycle} {d : Side} {looped : Bool}
    (h : looped = decide (d = .east ↔ c.rev = false)) :
    returnOutcome c d looped = some (if looped then .looped else .returned) := by
  subst h
  unfold returnOutcome
  cases d <;> cases c.rev <;> rfl

theorem rollReturn_late {t : Tables} {d : Side} {h : Header} {b : RollBody} {v : Live}
    (hl : v.roll.cycle = none ∨ ∃ c, v.roll.cycle = some c ∧
      (b.seq ≠ c.seq ∨ h.looped = decide (d = .west ↔ c.rev = false))) : rollReturn t d h b v = lateRoll v := by
  unfold rollReturn
  rcases hl with hl | ⟨c, hc, hl⟩
  · rw [hl]
  · rw [hc]
    dsimp only
    by_cases hseq : b.seq = c.seq
    · rw [if_neg (not_not_intro hseq), returnOutcome_late (hl.resolve_left (not_not_intro hseq))]
    · exact if_pos hseq

/-- A ROLL that fits the outstanding one is merged, and its outcome goes on (R125, R136). -/
theorem rollReturn_fits {t : Tables} {d : Side} {h : Header} {b : RollBody} {v : Live} {c : Cycle}
    (hc : v.roll.cycle = some c) (hseq : b.seq = c.seq) (hl : h.looped = decide (d = .east ↔ c.rev = false)) :
    rollReturn t d h b v = rollOutcome t
      { outcome := if h.looped then .looped else .returned, loopId := if h.looped then b.loopId else none }
      { v with roll := { v.roll with
        map := (mergeSlots c.seq c.rev b.headGen 0 b.slots v.roll.map).2
        cycle := some { c with seen := c.seen ++ (mergeSlots c.seq c.rev b.headGen 0 b.slots v.roll.map).1 } } } := by
  unfold rollReturn
  rw [hc]
  dsimp only
  rw [if_neg (not_not_intro hseq), returnOutcome_fits hl]
  cases h.looped <;> rfl

theorem takeRoll_named {t : Tables} {h : Header} (hn : namesOrigin t.ring h.origin = true) (d : Side) (b : RollBody)
    (v : Live) : takeRoll t d h b v =
      if h.rev ≠ d.inRev then { v with roll := { v.roll with wrongDir := bumpSide v.roll.wrongDir d } }
      else if h.origin = t.node.id then
        if v.epoch.active then rollReturn t d h b v
        else { v with roll := { v.roll with ownHead := bump v.roll.ownHead } }
      else if h.hops = 31 then { v with roll := { v.roll with hopLimit := bump v.roll.hopLimit } }
      else rollPasses t d h b v :=
  if_neg (by rw [hn]; decide)

/-- Settles O41: the checks in their order, the return with its merge, and what an outcome brings. -/
theorem rollChecksInOrder : Obligations.RollChecksInOrder := by
  unfold Obligations.RollChecksInOrder
  refine ⟨fun n d rx f h b s v hv hc => ?_, fun t o c v hc => ⟨fun x hx => rollOutcome_second hc hx t o,
    fun hf ho => rollOutcome_returned hc hf ho t, fun hf ho hwest => (rollOutcome_first hc hf ho t).trans
      (startReverse_open hwest t c o), fun hf ho hwest => (rollOutcome_first hc hf ho t).trans
        (startReverse_down hwest t c o)⟩⟩
  have hexec : ∀ w, takeRoll s.tables d h b v = w → exec (.rollArrival n d .ends f) s = .next (s.settled w) :=
    fun w hw => congrArg Host.Outcome.next ((State.receive_claimed hv hc).trans (State.settled_congr s hw))
  refine ⟨fun hn => hexec _ (if_pos hn), fun hn => ?_⟩
  have hnamed := takeRoll_named hn d b v
  refine ⟨fun hrev => ?_, fun hrev ho ha => ?_, fun hrev ho ha hl => ?_, fun c hrev ho ha hcyc hseq hl => ?_,
    fun hrev ho hh => ?_, fun hrev ho hh => ?_⟩
  · exact hexec _ (hnamed.trans (if_pos hrev))
  · exact hexec _ (hnamed.trans ((if_neg (not_not_intro hrev)).trans ((if_pos ho).trans
      (if_neg (by rw [ha]; decide)))))
  · exact hexec _ (hnamed.trans ((if_neg (not_not_intro hrev)).trans ((if_pos ho).trans
      ((if_pos ha).trans (rollReturn_late hl)))))
  · refine ⟨_, _, fun i e he => ?_, hexec _ (hnamed.trans ((if_neg (not_not_intro hrev)).trans ((if_pos ho).trans
      ((if_pos ha).trans (rollReturn_fits hcyc hseq hl)))))⟩
    have hspec := mergeSlots_spec c.seq c.rev b.headGen v.roll.map b.slots 0 i e he
    rw [Nat.zero_add] at hspec
    exact hspec
  · exact hexec _ (hnamed.trans ((if_neg (not_not_intro hrev)).trans ((if_neg ho).trans (if_pos hh))))
  · exact hexec _ (hnamed.trans ((if_neg (not_not_intro hrev)).trans ((if_neg ho).trans (if_neg hh))))

end Sys2Proof.Machine
end

section
/-! The alarm unit: what handing a condition to a point changes, the table of R168 case by case, and the conditions the
points hold once what follows an event has followed (R165 to R171, R154). -/

namespace Sys2Proof.Machine

/-! ## What the alarm unit leaves alone -/

/-- The second blocks are the first but for the alarm unit, the ports, the cycle in progress, and what the ports note:
all that an alarm event with its notices can change. -/
def Live.Alarmed (v w : Live) : Prop :=
  ∃ (a : Alarms) (io : Ports) (c : Option Cycle) (l : List Loss) (r : Bool),
    w = { v with alarms := a, io := io, roll := { v.roll with cycle := c }, losses := l, restartDue := r }

theorem Live.Alarmed.refl (v : Live) : v.Alarmed v := ⟨_, _, _, _, _, rfl⟩

theorem Live.Alarmed.trans {u v w : Live} (h : u.Alarmed v) (k : v.Alarmed w) : u.Alarmed w := by
  obtain ⟨_, _, _, _, _, rfl⟩ := h
  obtain ⟨_, _, _, _, _, rfl⟩ := k
  exact ⟨_, _, _, _, _, rfl⟩

theorem Live.Alarmed.after {u v w : Live} (k : v.Alarmed w) (h : u.Alarmed v) : u.Alarmed w := h.trans k

theorem Live.alarms_alarmed (v : Live) (a : Alarms) : v.Alarmed { v with alarms := a } := ⟨_, _, _, _, _, rfl⟩

/-- An egress that leaves the spans changes no more than an alarm event may. -/
theorem Live.EgressOf.alarmed {v w : Live} (h : v.EgressOf w) (hspans : w.spans = v.spans) : v.Alarmed w := by
  refine ⟨v.alarms, w.io, w.roll.cycle, w.losses, w.restartDue, ?_⟩
  rw [← h.roll, ← hspans]
  obtain ⟨h1, h2, h3, h4, h5, h6, h7, h8, h9, h10, h11, h12, h13, -, h15, h16, h17, h18, h19⟩ := h
  rw [← h1, ← h2, ← h3, ← h4, ← h5, ← h6, ← h7, ← h8, ← h9, ← h10, ← h11, ← h12, ← h13, ← h15, ← h16, ← h17, ← h18,
    ← h19]

theorem onTransmit_site_spans (d : Side) (q : QFrame) (v : Live) : (onTransmit (.site d) q v).spans = v.spans := by
  unfold onTransmit
  split
  · rfl
  · unfold rollSent
    split
    · split <;> rfl
    · rfl
  all_goals rfl

/-- A frame handed to a site port leaves every span. -/
theorem hand_site_spans (d : Side) (q : QFrame) (v : Live) : (hand (.site d) q v).spans = v.spans := by
  have hgrant : ∀ w : Live, w.spans = v.spans → (grant (.site d) w).spans = v.spans := fun w hw =>
    grant_rule (P := fun x => x.spans = v.spans) hw (fun _ _ _ _ => (onTransmit_site_spans d _ _).trans hw)
      (fun _ _ => hw)
  exact hand_rule (P := fun x => x.spans = v.spans) rfl (noteLost_spans _ _ _ _) (fun _ => hgrant _ rfl)
    (fun _ _ _ _ _ => hgrant _ (noteLost_spans _ _ _ _))

theorem sendNotice_alarmed (t : Tables) (r : AlarmRecord) (d : Side) (v : Live) : v.Alarmed (sendNotice t r d v) :=
  ((hand_egress _ _ _).alarmed (hand_site_spans _ _ _)).after (Live.alarms_alarmed v _)

theorem sendNotices_alarmed (t : Tables) (r : AlarmRecord) (v : Live) : v.Alarmed (sendNotices t r v) := by
  unfold sendNotices
  split
  · exact .refl v
  · exact sendNotice_alarmed _ _ _ _
  · exact sendNotice_alarmed _ _ _ _
  · exact .trans (sendNotice_alarmed _ _ _ _) (sendNotice_alarmed _ _ _ _)

theorem alarmEvent_alarmed (t : Tables) (i : Nat) (c : Bool) (sev : Severity) (v : Live) :
    v.Alarmed (alarmEvent t i c sev v) := by
  have summarised (w : Live) (h : v.Alarmed w) :
      v.Alarmed { w with alarms := { w.alarms with summary := severitySummary w.alarms.points } } :=
    h.trans (Live.alarms_alarmed w _)
  unfold alarmEvent
  refine summarised _ ?_
  dsimp only
  split
  · exact (sendNotices_alarmed _ _ _).after (Live.alarms_alarmed v _)
  · exact Live.alarms_alarmed v _

theorem mapPoint_alarmed (i : Nat) (f : Point → Point) (v : Live) : v.Alarmed (mapPoint i f v) :=
  Live.alarms_alarmed v _

theorem soakCheck_alarmed (t : Tables) (i : Nat) (v : Live) : v.Alarmed (soakCheck t i v) := by
  unfold soakCheck
  split
  · split
    · split
      · exact .trans (mapPoint_alarmed _ _ _) (alarmEvent_alarmed _ _ _ _ _)
      · exact .refl v
    · split
      · unfold clearPoint
        split
        · exact .trans (mapPoint_alarmed _ _ _) (alarmEvent_alarmed _ _ _ _ _)
        · exact .refl v
      · exact .refl v
    · exact .refl v
  · exact .refl v

theorem handCondition_alarmed (t : Tables) (i : Nat) (b : Bool) (v : Live) : v.Alarmed (handCondition t i b v) := by
  unfold handCondition
  split
  · split
    · exact .refl v
    · split
      · exact .trans (mapPoint_alarmed _ _ _) (soakCheck_alarmed _ _ _)
      · exact mapPoint_alarmed _ _ _
      · exact .trans (mapPoint_alarmed _ _ _) (soakCheck_alarmed _ _ _)
      · exact mapPoint_alarmed _ _ _
      · exact mapPoint_alarmed _ _ _
  · exact .refl v

theorem handConditions_alarmed (t : Tables) (bs : List Bool) : ∀ (i : Nat) (v : Live),
    v.Alarmed (handConditions t i bs v) := by
  induction bs with
  | nil => exact fun _ v => .refl v
  | cons b bs ih => exact fun i v => .trans (handCondition_alarmed t i b v) (ih _ _)

theorem refreshAlarms_alarmed (t : Tables) (v : Live) : v.Alarmed (refreshAlarms t v) := by
  unfold refreshAlarms
  split
  · exact .refl v
  · exact handConditions_alarmed _ _ _ _

/-- No condition rests on what an alarm event changes. -/
theorem Live.Alarmed.conditions {v w : Live} (h : v.Alarmed w) (t : Tables) : conditions t w = conditions t v := by
  obtain ⟨_, _, _, _, _, rfl⟩ := h
  rfl

theorem Live.Alarmed.part {v w : Live} (h : v.Alarmed w) : w.part = v.part := by
  obtain ⟨_, _, _, _, _, rfl⟩ := h
  rfl

/-! ## One point (R168, R170) -/

theorem mapPoint_get {i : Nat} {v : Live} {p : Point} (h : v.alarms.points[i]? = some p) (f : Point → Point) :
    (mapPoint i f v).alarms.points[i]? = some (f p) := modifyAt_get f _ i p h

theorem mapPoint_other {i j : Nat} (h : j ≠ i) (f : Point → Point) (v : Live) :
    (mapPoint i f v).alarms.points[j]? = v.alarms.points[j]? := modifyAt_get_other f _ (Ne.symm h)

@[simp] theorem alarmEvent_points (t : Tables) (i : Nat) (c : Bool) (sev : Severity) (v : Live) :
    (alarmEvent t i c sev v).alarms.points = v.alarms.points := (alarmEvent_spec t i c sev v).1

/-- The history before an event's record joins it. -/
def Live.roomInHistory (v : Live) : List AlarmRecord :=
  if v.alarms.history.length < 64 then v.alarms.history else v.alarms.history.drop 1

/-- What an event leaves, beside the point it is of: its record, the summary, and the blocks it does not touch. -/
def Live.Logged (t : Tables) (i : Nat) (cleared : Bool) (sev : Severity) (v w : Live) : Prop :=
  w.alarms.history = v.roomInHistory ++ [{ kind := (pointKind i).1, inst := (pointKind i).2, cleared := cleared,
                                           severity := sev, time := v.ts.value.sec }] ∧
  w.alarms.summary = severitySummary w.alarms.points ∧ w.ts = v.ts ∧ w.servo = v.servo ∧
  ((pointCfg t i).report = false → w.io = v.io)

theorem alarmEvent_logged (t : Tables) (i : Nat) (c : Bool) (sev : Severity) (f : Point → Point) (v : Live) :
    v.Logged t i c sev (alarmEvent t i c sev (mapPoint i f v)) := (alarmEvent_spec t i c sev (mapPoint i f v)).2

/-- A point that enters RAISED from RAISING. -/
def Point.raised (c : AlarmCfg) (p : Point) : Point :=
  { p with state := .raised, soak := none, severity := some c.severity, raises := min 255 (p.raises + 1) }

/-- A point that enters CLEAR from CLEARING. -/
def Point.cleared (p : Point) : Point := { p with state := .clear, soak := none, severity := none }

theorem raisePoint_get {i : Nat} {v : Live} {p : Point} (h : v.alarms.points[i]? = some p) (t : Tables) :
    (raisePoint t i v).alarms.points[i]? = some (p.raised (pointCfg t i)) := by
  rw [raisePoint, alarmEvent_points]
  exact mapPoint_get h _

theorem clearPoint_eq {i : Nat} {v : Live} {p : Point} (h : v.alarms.points[i]? = some p) (t : Tables) :
    clearPoint t i v = alarmEvent t i true (p.severity.getD (pointCfg t i).severity) (mapPoint i Point.cleared v) := by
  unfold clearPoint
  rw [h]
  rfl

theorem clearPoint_get {i : Nat} {v : Live} {p : Point} (h : v.alarms.points[i]? = some p) (t : Tables) :
    (clearPoint t i v).alarms.points[i]? = some p.cleared := by
  rw [clearPoint_eq h, alarmEvent_points]
  exact mapPoint_get h _

theorem soakCheck_raises {t : Tables} {i k : Nat} {v : Live} {p : Point} (h : v.alarms.points[i]? = some p)
    (hs : p.soak = some k) (hst : p.state = .raising) (hd : soakPeriods (pointCfg t i).raiseSoak ≤ v.osc - k) :
    soakCheck t i v = raisePoint t i v := by
  unfold soakCheck
  rw [h]
  dsimp only
  rw [hs, hst]
  exact if_pos hd

theorem soakCheck_clears {t : Tables} {i k : Nat} {v : Live} {p : Point} (h : v.alarms.points[i]? = some p)
    (hs : p.soak = some k) (hst : p.state = .clearing) (hd : soakPeriods (pointCfg t i).clearSoak ≤ v.osc - k) :
    soakCheck t i v = clearPoint t i v := by
  unfold soakCheck
  rw [h]
  dsimp only
  rw [hs, hst]
  exact if_pos hd

/-- A soak that has not run its length changes nothing. -/
theorem soakCheck_waits {t : Tables} {i k : Nat} {v : Live} {p : Point} (h : v.alarms.points[i]? = some p)
    (hs : p.soak = some k) (hr : p.state = .raising → v.osc - k < soakPeriods (pointCfg t i).raiseSoak)
    (hc : p.state = .clearing → v.osc - k < soakPeriods (pointCfg t i).clearSoak) : soakCheck t i v = v := by
  unfold soakCheck
  rw [h]
  dsimp only
  split
  · next k' hk' hst =>
    cases hs.symm.trans hk'
    exact if_neg (Nat.not_le.mpr (hr hst))
  · next k' hk' hst =>
    cases hs.symm.trans hk'
    exact if_neg (Nat.not_le.mpr (hc hst))
  · rfl

/-- A soak's end leaves every other point. -/
theorem soakCheck_other {i j : Nat} (hj : j ≠ i) (t : Tables) (v : Live) :
    (soakCheck t i v).alarms.points[j]? = v.alarms.points[j]? := by
  unfold soakCheck
  split
  · split
    · split
      · rw [raisePoint, alarmEvent_points]
        exact mapPoint_other hj _ _
      · rfl
    · split
      · unfold clearPoint
        split
        · rw [alarmEvent_points]
          exact mapPoint_other hj _ _
        · rfl
      · rfl
    · rfl
  · rfl

/-- A soak's end leaves the condition of its point. -/
theorem soakCheck_cond {t : Tables} {i : Nat} {v : Live} {p : Point} (h : v.alarms.points[i]? = some p) :
    ∃ q, (soakCheck t i v).alarms.points[i]? = some q ∧ q.cond = p.cond := by
  unfold soakCheck
  rw [h]
  dsimp only
  split
  · split
    · exact ⟨_, raisePoint_get h t, rfl⟩
    · exact ⟨p, h, rfl⟩
  · split
    · exact ⟨_, clearPoint_get h t, rfl⟩
    · exact ⟨p, h, rfl⟩
  · exact ⟨p, h, rfl⟩

/-! ## A condition handed to its point (R166, R168) -/

theorem handCondition_same {t : Tables} {i : Nat} {b : Bool} {v : Live} {p : Point}
    (h : v.alarms.points[i]? = some p) (hb : p.cond = b) : handCondition t i b v = v := by
  unfold handCondition
  rw [h]
  exact if_pos hb

theorem handCondition_clear {t : Tables} {i : Nat} {v : Live} {p : Point} (h : v.alarms.points[i]? = some p)
    (hb : p.cond ≠ true) (hst : p.state = .clear) : handCondition t i true v = soakCheck t i
      (mapPoint i (fun p => { p with cond := true, state := .raising, soak := some v.osc }) v) := by
  unfold handCondition
  rw [h]
  dsimp only
  rw [if_neg hb, hst]

theorem handCondition_clearing {t : Tables} {i : Nat} {v : Live} {p : Point} (h : v.alarms.points[i]? = some p)
    (hb : p.cond ≠ true) (hst : p.state = .clearing) : handCondition t i true v =
      mapPoint i (fun p => { p with cond := true, state := .raised, soak := none }) v := by
  unfold handCondition
  rw [h]
  dsimp only
  rw [if_neg hb, hst]

theorem handCondition_raising {t : Tables} {i : Nat} {v : Live} {p : Point} (h : v.alarms.points[i]? = some p)
    (hb : p.cond ≠ false) (hst : p.state = .raising) : handCondition t i false v =
      mapPoint i (fun p => { p with cond := false, state := .clear, soak := none }) v := by
  unfold handCondition
  rw [h]
  dsimp only
  rw [if_neg hb, hst]

theorem handCondition_raised {t : Tables} {i : Nat} {v : Live} {p : Point} (h : v.alarms.points[i]? = some p)
    (hb : p.cond ≠ false) (hst : p.state = .raised) : handCondition t i false v = soakCheck t i
      (mapPoint i (fun p => { p with cond := false, state := .clearing, soak := some v.osc }) v) := by
  unfold handCondition
  rw [h]
  dsimp only
  rw [if_neg hb, hst]

theorem handCondition_other {i j : Nat} (hj : j ≠ i) (t : Tables) (b : Bool) (v : Live) :
    (handCondition t i b v).alarms.points[j]? = v.alarms.points[j]? := by
  unfold handCondition
  split
  · split
    · rfl
    · split
      · exact (soakCheck_other hj _ _).trans (mapPoint_other hj _ _)
      · exact mapPoint_other hj _ _
      · exact (soakCheck_other hj _ _).trans (mapPoint_other hj _ _)
      · exact mapPoint_other hj _ _
      · exact mapPoint_other hj _ _
  · rfl

/-- A point holds the condition handed to it. -/
theorem handCondition_cond {t : Tables} {i : Nat} {b : Bool} {v : Live} {p : Point}
    (h : v.alarms.points[i]? = some p) : ∃ q, (handCondition t i b v).alarms.points[i]? = some q ∧ q.cond = b := by
  unfold handCondition
  rw [h]
  dsimp only
  split
  · next hb => exact ⟨p, h, hb⟩
  · split
    · exact soakCheck_cond (mapPoint_get h _)
    · exact ⟨_, mapPoint_get h _, rfl⟩
    · exact soakCheck_cond (mapPoint_get h _)
    · exact ⟨_, mapPoint_get h _, rfl⟩
    · exact ⟨_, mapPoint_get h _, rfl⟩

theorem handCondition_none {t : Tables} {i : Nat} {v : Live} (h : v.alarms.points[i]? = none) (b : Bool) :
    handCondition t i b v = v := by
  unfold handCondition
  rw [h]

/-! ## All conditions handed over (R166) -/

theorem handConditions_before (t : Tables) (bs : List Bool) : ∀ (k i : Nat) (v : Live), i < k →
    (handConditions t k bs v).alarms.points[i]? = v.alarms.points[i]? := by
  induction bs with
  | nil => exact fun _ _ _ _ => rfl
  | cons b bs ih =>
    exact fun k i v h => (ih (k + 1) i _ (by omega)).trans (handCondition_other (by omega) t b v)

theorem handConditions_cond (t : Tables) (bs : List Bool) : ∀ (k i : Nat) (v : Live) (b : Bool) (p : Point),
    bs[i]? = some b → (handConditions t k bs v).alarms.points[k + i]? = some p → p.cond = b := by
  induction bs with
  | nil => intro k i v b p hb; simp at hb
  | cons a bs ih =>
    intro k i v b p hb hp
    rw [handConditions] at hp
    cases i with
    | zero =>
      have hab : a = b := by simpa using hb
      subst hab
      rw [handConditions_before t bs (k + 1) (k + 0) _ (by omega), Nat.add_zero] at hp
      cases hv : v.alarms.points[k]? with
      | none => rw [handCondition_none hv, hv] at hp; cases hp
      | some q =>
        obtain ⟨q', hq', hcond⟩ := handCondition_cond (t := t) (b := a) hv
        cases hq'.symm.trans hp
        exact hcond
    | succ i =>
      refine ih (k + 1) i (handCondition t k a v) b p (by simpa using hb) ?_
      rw [show k + 1 + i = k + (i + 1) by omega]
      exact hp

/-- What follows from an event ends with the conditions handed over. -/
theorem finish_refreshed (t : Tables) (v : Live) : ∃ u, finish t v = refreshAlarms t u := by
  have hwork : ∀ n w, (∃ u, w = refreshAlarms t u) → ∃ u, workLosses t n w = refreshAlarms t u := by
    intro n
    induction n with
    | zero => exact fun w h => h
    | succ n ih =>
      intro w h
      rw [workLosses]
      split
      · exact h
      · exact ih _ ⟨_, rfl⟩
  exact hwork _ _ ⟨_, rfl⟩

theorem handConditions_foldl (t : Tables) (bs : List Bool) : ∀ (k : Nat) (v : Live),
    handConditions t k bs v =
      (List.range' k bs.length).foldl (fun u i => handCondition t i (bs.getD (i - k) false) u) v := by
  induction bs with
  | nil => exact fun _ _ => rfl
  | cons b bs ih =>
    intro k v
    rw [handConditions, ih (k + 1), List.length_cons, List.range'_succ, List.foldl_cons]
    rw [Nat.sub_self, List.getD_cons_zero]
    refine List.foldl_ext _ _ _ (fun u i hi => ?_)
    obtain ⟨hle, -⟩ := List.mem_range'_1.mp hi
    rw [show i - k = (i - (k + 1)) + 1 by omega, List.getD_cons_succ]

@[simp] theorem conditions_length (t : Tables) (v : Live) : (conditions t v).length = 21 := rfl

/-! ## The conditions (R166) -/

theorem candLoss_iff (t : Tables) (v : Live) (c : Cand) : candLoss t v c = true ↔
    (t.cand.get c).enabled = true ∧ (c = .ref → t.node.refFitted = true) ∧
      (v.cands.get c).state ≠ .available ∧ (v.cands.get c).state ≠ .selected := by
  unfold candLoss candEnabled CandRec.isAvailable
  cases c <;> simp [and_assoc]

theorem nodeSilent_iff (t : Tables) (v : Live) : nodeSilent t v = true ↔
    ∃ j ∈ t.ring.members, ∃ e, v.roll.map[j]? = some e ∧ e.presence = .silent := by
  unfold nodeSilent
  rw [List.any_eq_true]
  refine exists_congr fun j => and_congr_right fun _ => ?_
  cases v.roll.map[j]? <;> simp

theorem configMismatch_iff (v : Live) : configMismatch v = true ↔
    (v.epoch.active = true ∧ ∃ e ∈ v.roll.map, e.config = some .mismatch) ∨ v.roll.rejectedGen ≠ none ∨
      v.roll.duplicate ≠ none := by
  unfold configMismatch
  simp [or_assoc, Option.isSome_iff_ne_none]

/-- The table of R166, condition by condition. -/
def conditionHolds (t : Tables) (v : Live) (lost : Cand → Prop) : Nat → Prop
  | 0 => lost .ref
  | 1 => lost .fwd
  | 2 => lost .rev
  | 3 => v.servo.state = .holdover
  | 4 => v.servo.state = .holdover ∧ (v.ownClass = .q3 ∨ v.ownClass = .q4)
  | 5 => v.servo.state = .freerun
  | 6 => (v.span .east).state = .down
  | 7 => (v.span .west).state = .down
  | 8 => (v.span .east).mismatch = true
  | 9 => (v.span .west).mismatch = true
  | 10 => v.roll.status ≠ .forward
  | 11 => ∃ j ∈ t.ring.members, ∃ e, v.roll.map[j]? = some e ∧ e.presence = .silent
  | 12 => (v.epoch.active = true ∧ ∃ e ∈ v.roll.map, e.config = some .mismatch) ∨ v.roll.rejectedGen ≠ none ∨
      v.roll.duplicate ≠ none
  | 13 => v.thermal.zone = some .cold ∨ v.thermal.zone = some .hot
  | 14 => v.thermal.sensor = .fault
  | 15 => v.servo.phaseUnstable = true
  | 16 => v.access.a0.state = .squelched
  | 17 => v.access.a1.state = .squelched
  | 18 => v.access.a2.state = .squelched
  | 19 => v.access.a3.state = .squelched
  | _ => v.storeFault = true

theorem conditions_iff (t : Tables) (v : Live) (lost : Cand → Prop) (hlost : ∀ c, lost c ↔ candLoss t v c = true)
    (i : Nat) (b : Bool) (h : (conditions t v)[i]? = some b) : b = true ↔ conditionHolds t v lost i := by
  have hclass : 3 ≤ v.ownClass.num ↔ v.ownClass = .q3 ∨ v.ownClass = .q4 := by
    cases v.ownClass <;> simp [QClass.num]
  match i, h with
  | 0, h => cases h; exact (hlost _).symm
  | 1, h => cases h; exact (hlost _).symm
  | 2, h => cases h; exact (hlost _).symm
  | 3, h => cases h; exact decide_eq_true_iff
  | 4, h =>
    cases h
    exact (Bool.and_eq_true_iff.trans (and_congr decide_eq_true_iff (decide_eq_true_iff.trans hclass)))
  | 5, h => cases h; exact decide_eq_true_iff
  | 6, h => cases h; exact decide_eq_true_iff
  | 7, h => cases h; exact decide_eq_true_iff
  | 8, h => cases h; exact Iff.rfl
  | 9, h => cases h; exact Iff.rfl
  | 10, h => cases h; exact decide_eq_true_iff
  | 11, h => cases h; exact nodeSilent_iff t v
  | 12, h => cases h; exact configMismatch_iff v
  | 13, h => cases h; exact Bool.or_eq_true_iff.trans (or_congr decide_eq_true_iff decide_eq_true_iff)
  | 14, h => cases h; exact decide_eq_true_iff
  | 15, h => cases h; exact Iff.rfl
  | 16, h => cases h; exact decide_eq_true_iff
  | 17, h => cases h; exact decide_eq_true_iff
  | 18, h => cases h; exact decide_eq_true_iff
  | 19, h => cases h; exact decide_eq_true_iff
  | 20, h => cases h; exact Iff.rfl
  | i + 21, h => cases h

/-! ## The statement -/

theorem soakPeriods_pos {n : Nat} (h : 1 ≤ n) : 0 < soakPeriods n := by unfold soakPeriods; omega

theorem soakDue_of {t : Tables} {i k : Nat} {v : Live} {p : Point} (h : v.alarms.points[i]? = some p)
    (hs : p.soak = some k)
    (hd : p.state = .raising ∧ soakPeriods (pointCfg t i).raiseSoak ≤ v.osc - k ∨
      p.state = .clearing ∧ soakPeriods (pointCfg t i).clearSoak ≤ v.osc - k) : soakDue i t v = true := by
  unfold soakDue
  rw [h]
  dsimp only
  rw [hs]
  rcases hd with ⟨hst, hd⟩ | ⟨hst, hd⟩
  · rw [hst]; exact decide_eq_true hd
  · rw [hst]; exact decide_eq_true hd

theorem restoreCheck_reached {t : Tables} {i : Fin 4} {v : Live} (h : restoreReached t i v = true) :
    restoreCheck t i v = v.mapAccess i (fun a => { a with state := .deliver, timer := none }) := if_pos h

/-- What R168 makes of a point, its soak, its event and its condition. -/
theorem handCondition_cases (t : Tables) (i : Nat) (b : Bool) (v : Live) (p : Point) (h : v.alarms.points[i]? = some p)
    (hne : p.cond ≠ b) (w : Live) (hw : w = handCondition t i b v) :
    (b = true → p.state = .clear → 1 ≤ (pointCfg t i).raiseSoak →
      w.alarms.points[i]? = some { p with cond := true, state := .raising, soak := some v.osc } ∧
      w.alarms.history = v.alarms.history ∧ w.io = v.io) ∧
    (b = true → p.state = .clear → (pointCfg t i).raiseSoak = 0 →
      w.alarms.points[i]? = some (Point.raised (pointCfg t i) { p with cond := true }) ∧
      v.Logged t i false (pointCfg t i).severity w) ∧
    (b = true → p.state = .clearing →
      w.alarms.points[i]? = some { p with cond := true, state := .raised, soak := none } ∧
      w.alarms.history = v.alarms.history ∧ w.io = v.io) ∧
    (b = false → p.state = .raising →
      w.alarms.points[i]? = some { p with cond := false, state := .clear, soak := none } ∧
      w.alarms.history = v.alarms.history ∧ w.io = v.io) ∧
    (b = false → p.state = .raised → 1 ≤ (pointCfg t i).clearSoak →
      w.alarms.points[i]? = some { p with cond := false, state := .clearing, soak := some v.osc } ∧
      w.alarms.history = v.alarms.history ∧ w.io = v.io) ∧
    (∀ sev, b = false → p.state = .raised → p.severity = some sev → (pointCfg t i).clearSoak = 0 →
      w.alarms.points[i]? = some (Point.cleared { p with cond := false }) ∧ v.Logged t i true sev w) := by
  subst hw
  refine ⟨fun hb hst hlen => ?_, fun hb hst hlen => ?_, fun hb hst => ?_, fun hb hst => ?_, fun hb hst hlen => ?_,
    fun sev hb hst hsev hlen => ?_⟩ <;> subst hb
  · have hp := mapPoint_get h (fun p => { p with cond := true, state := .raising, soak := some v.osc })
    rw [handCondition_clear h hne hst, soakCheck_waits hp rfl
      (fun _ => by rw [show (mapPoint i _ v).osc = v.osc from rfl, Nat.sub_self]; exact soakPeriods_pos hlen)
      (fun hc => by cases hc)]
    exact ⟨hp, rfl, rfl⟩
  · have hp := mapPoint_get h (fun p => { p with cond := true, state := .raising, soak := some v.osc })
    rw [handCondition_clear h hne hst, soakCheck_raises hp rfl rfl (by rw [hlen]; exact Nat.zero_le _)]
    exact ⟨raisePoint_get hp t, alarmEvent_logged t i _ _ _ (mapPoint i _ v)⟩
  · rw [handCondition_clearing h hne hst]
    exact ⟨mapPoint_get h _, rfl, rfl⟩
  · rw [handCondition_raising h hne hst]
    exact ⟨mapPoint_get h _, rfl, rfl⟩
  · have hp := mapPoint_get h (fun p => { p with cond := false, state := .clearing, soak := some v.osc })
    rw [handCondition_raised h hne hst, soakCheck_waits hp rfl (fun hc => by cases hc)
      (fun _ => by rw [show (mapPoint i _ v).osc = v.osc from rfl, Nat.sub_self]; exact soakPeriods_pos hlen)]
    exact ⟨hp, rfl, rfl⟩
  · have hp := mapPoint_get h (fun p => { p with cond := false, state := .clearing, soak := some v.osc })
    rw [handCondition_raised h hne hst, soakCheck_clears hp rfl rfl (by rw [hlen]; exact Nat.zero_le _)]
    refine ⟨clearPoint_get hp t, ?_⟩
    rw [clearPoint_eq hp]
    dsimp only
    rw [hsev]
    exact alarmEvent_logged t i _ _ _ (mapPoint i _ v)

/-- Settles O45: the restore, the soak's end, the conditions and the table of R168. -/
theorem restoreAndSoakEnd : Obligations.RestoreAndSoakEnd := by
  unfold Obligations.RestoreAndSoakEnd
  refine ⟨fun n s v hv => ⟨fun i tm htm hd => ?_, fun i k p old hp hs hold => ⟨fun hst hd => ?_, fun sev hst hsev hd => ?_⟩⟩,
    fun t v lost hlost => ⟨rfl, rfl, fun i a ha => ?_, fun i b hb =>
      conditions_iff t v lost (fun c => (hlost c).trans (candLoss_iff t v c).symm) i b hb⟩,
    fun t v w i b p hw hrun hp hb => ?_, fun t v => ⟨fun h => ?_, fun h => ?_⟩, fun t i b v w p hw hp => ?_⟩
  · have hdue : restoreReached s.tables i v = true := by
      unfold restoreReached
      rw [htm]
      exact decide_eq_true hd
    exact congrArg Host.Outcome.next ((State.timed_at hv (due := fun t v => restoreReached t i v)
      (fun t v => restoreCheck t i v) hdue).trans (State.settled_congr s (restoreCheck_reached hdue)))
  · refine ⟨_, congrArg Host.Outcome.next ((State.timed_at hv (due := soakDue i) (fun t v => soakCheck t i v)
      (soakDue_of hp hs (.inl ⟨hst, hd⟩))).trans (State.settled_congr s (soakCheck_raises hp hs hst hd))),
      raisePoint_get hp _, ?_⟩
    subst hold
    exact alarmEvent_logged s.tables i _ _ _ v
  · refine ⟨_, congrArg Host.Outcome.next ((State.timed_at hv (due := soakDue i) (fun t v => soakCheck t i v)
      (soakDue_of hp hs (.inr ⟨hst, hd⟩))).trans (State.settled_congr s (soakCheck_clears hp hs hst hd))),
      clearPoint_get hp _, ?_⟩
    subst hold
    rw [clearPoint_eq hp, hsev]
    exact alarmEvent_logged s.tables i _ _ _ v
  · rw [pointCfg, ha]
    rfl
  · obtain ⟨u, hu⟩ := finish_refreshed t v
    rw [← hw] at hu
    have hal := refreshAlarms_alarmed t u
    rw [← hu] at hal
    rw [hal.conditions] at hb
    have hur : u.part = .running := hal.part.symm.trans hrun
    have hhand : refreshAlarms t u = handConditions t 0 (conditions t u) u := by
      unfold refreshAlarms
      rw [hur]
    rw [hu, hhand] at hp
    exact handConditions_cond t (conditions t u) 0 i u b p hb (by rw [Nat.zero_add]; exact hp)
  · unfold refreshAlarms
    rw [h]
  · unfold refreshAlarms
    rw [h]
    dsimp only
    rw [handConditions_foldl, conditions_length, ← List.range_eq_range']
    rfl
  · refine ⟨fun j hj => ?_, fun hb => hw.trans (handCondition_same hp hb), fun hne => ?_⟩
    · rw [hw]
      exact handCondition_other hj t b v
    · obtain ⟨h1, h2, h3, h4, h5, h6⟩ := handCondition_cases t i b v p hp hne w hw
      refine ⟨h1, fun hb hst hlen => ?_, h3, h4, h5, fun sev hb hst hsev hlen => ?_⟩
      · obtain ⟨hpoint, hlog, -⟩ := h2 hb hst hlen
        exact ⟨hpoint, _, _, hlog, rfl, rfl, rfl, rfl, rfl⟩
      · obtain ⟨hpoint, hlog, -⟩ := h6 sev hb hst hsev hlen
        exact ⟨hpoint, _, _, hlog, rfl, rfl, rfl, rfl, rfl⟩

end Sys2Proof.Machine
end

section
/-! A ROLL that passes: its head heard, this node's slot filled, the view copied, the frame sent on (R131 to R135). -/

namespace Sys2Proof.Machine

/-! ## The heads heard (R131) -/

/-- The preferred head is of the list, and none of the list goes before it. -/
theorem bestHead_spec : ∀ (l : List HeadHeard) (x : HeadHeard), bestHead l = some x →
    x ∈ l ∧ ∀ y ∈ l, x.rank < y.rank ∨ x.rank = y.rank ∧ x.id ≤ y.id
  | [], x, h => by cases h
  | a :: l, x, h => by
    rw [bestHead] at h
    cases hb : bestHead l with
    | none =>
      rw [hb] at h
      cases h
      have hnil : l = [] := by
        cases l with
        | nil => rfl
        | cons c l =>
          rw [bestHead] at hb
          split at hb
          · cases hb
          · split at hb <;> cases hb
      subst hnil
      exact ⟨List.mem_cons_self, fun y hy => by rw [List.mem_singleton.mp hy]; exact .inr ⟨rfl, le_rfl⟩⟩
    | some z =>
      obtain ⟨hz, hbest⟩ := bestHead_spec l z hb
      rw [hb] at h
      dsimp only at h
      split at h
      · next hlt =>
        cases h
        refine ⟨List.mem_cons_of_mem _ hz, fun y hy => ?_⟩
        rcases List.mem_cons.mp hy with rfl | hy
        · omega
        · exact hbest y hy
      · next hnlt =>
        cases h
        refine ⟨List.mem_cons_self, fun y hy => ?_⟩
        rcases List.mem_cons.mp hy with rfl | hy
        · exact .inr ⟨rfl, le_rfl⟩
        · have := hbest y hy
          omega

theorem bestHead_none (l : List HeadHeard) : bestHead l = none ↔ l = [] := by
  refine ⟨fun h => ?_, fun h => by rw [h]; rfl⟩
  cases l with
  | nil => rfl
  | cons a l =>
    rw [bestHead] at h
    split at h
    · cases h
    · split at h <;> cases h

theorem mem_refreshHead (o : HeadHeard) (l : List HeadHeard) : o ∈ refreshHead o l := by
  unfold refreshHead
  split
  · next hany =>
    obtain ⟨x, hx, hid⟩ := List.any_eq_true.mp hany
    exact List.mem_map.mpr ⟨x, hx, if_pos (beq_iff_eq.mp hid)⟩
  · exact List.mem_append_right _ List.mem_cons_self

/-- An entry that stands once is refreshed in its place. -/
theorem refreshHead_present {o e : HeadHeard} {a z : List HeadHeard} (hid : o.id = e.id)
    (hone : ∀ y ∈ a ++ z, y.id ≠ e.id) : refreshHead e (a ++ o :: z) = a ++ e :: z := by
  have hkeep : ∀ l : List HeadHeard, (∀ y ∈ l, y.id ≠ e.id) → l.map (fun h => if h.id = e.id then e else h) = l :=
    fun l h => (List.map_congr_left fun y hy => if_neg (h y hy)).trans (List.map_id l)
  have hany : (a ++ o :: z).any (fun h => h.id == e.id) = true :=
    List.any_eq_true.mpr ⟨o, List.mem_append_right _ List.mem_cons_self, beq_iff_eq.mpr hid⟩
  unfold refreshHead
  rw [if_pos hany, List.map_append, List.map_cons, if_pos hid,
    hkeep a fun y hy => hone y (List.mem_append_left _ hy), hkeep z fun y hy => hone y (List.mem_append_right _ hy)]

theorem refreshHead_absent {e : HeadHeard} {l : List HeadHeard} (h : ∀ y ∈ l, y.id ≠ e.id) :
    refreshHead e l = l ++ [e] := by
  have hany : ¬ l.any (fun h => h.id == e.id) = true := fun hany => by
    obtain ⟨x, hx, hid⟩ := List.any_eq_true.mp hany
    exact h x hx (beq_iff_eq.mp hid)
  exact if_neg hany

/-! ## The slot and the copy (R132, R133, R138) -/

theorem duplicateSeen_iff (t : Tables) (b : RollBody) : duplicateSeen t b = true ↔
    ∃ x, b.slots[t.node.id]? = some (some x) ∧ x.fillSeq = b.seq ∧ x.carried = false ∧ x.serial ≠ t.node.serial := by
  unfold duplicateSeen slotAt
  cases h : b.slots[t.node.id]? with
  | none => simp
  | some s => cases s <;> simp [and_assoc]

/-- A ROLL's body with this node's slot filled on the blocks as they stand. -/
def RollBody.filled (t : Tables) (v : Live) (b : RollBody) : RollBody :=
  { b with slots := modifyAt t.node.id (fun _ => some (ownSlot t b.seq b.headGen v)) b.slots }

theorem fillSlot_eq (t : Tables) (b : RollBody) (v : Live) {y : Live}
    (hseen : duplicateSeen t b = true → y = refreshAlarms t { v with roll := { v.roll with duplicate := some v.now } })
    (hclear : duplicateSeen t b = false → y = v) : fillSlot t b v = (b.filled t y, y) := by
  unfold fillSlot
  cases h : duplicateSeen t b with
  | true => rw [hseen h]; rfl
  | false => rw [hclear h]; rfl

/-- One entry of the ring map after a copy, `s` being its slot in the ROLL. -/
def MapEntry.copied (silent : BitVec 32) (i : Nat) (s : Option Slot) (e : MapEntry) : MapEntry :=
  let slot := match s with
    | some x => some x
    | none => e.slot
  { e with slot := slot, presence := if inSet silent i then .silent else if slot.isSome then .present else .unknown }

theorem copyEntries_get (silent : BitVec 32) : ∀ (es : List MapEntry) (ss : List (Option Slot)) (k i : Nat)
    (e : MapEntry), es[i]? = some e →
      (copyEntries silent k ss es)[i]? = some (e.copied silent (k + i) (ss[i]?).join)
  | [], _, _, _, _, h => by simp at h
  | a :: es, ss, k, 0, e, h => by
    have hae : a = e := by simpa using h
    subst hae
    cases ss <;> rfl
  | a :: es, ss, k, i + 1, e, h => by
    have htail : ss.tail[i]? = ss[i + 1]? := by cases ss <;> simp
    rw [copyEntries, List.getElem?_cons_succ, copyEntries_get silent es ss.tail (k + 1) i e (by simpa using h), htail,
      show k + 1 + i = k + (i + 1) by omega]

theorem copyEntries_filled {silent : BitVec 32} {es : List MapEntry} {ss : List (Option Slot)} {i : Nat} {e : MapEntry}
    {x : Slot} (h : es[i]? = some e) (hx : ss[i]? = some (some x)) : (copyEntries silent 0 ss es)[i]? =
      some { e with slot := some x, presence := if inSet silent i then .silent else .present } := by
  rw [copyEntries_get silent es ss 0 i e h, hx, Nat.zero_add]
  rfl

theorem copyEntries_empty {silent : BitVec 32} {es : List MapEntry} {ss : List (Option Slot)} {i : Nat} {e : MapEntry}
    (h : es[i]? = some e) (hx : ss[i]? = some none) : (copyEntries silent 0 ss es)[i]? =
      some { e with
        presence := if inSet silent i then .silent else if e.slot.isSome then .present else .unknown } := by
  rw [copyEntries_get silent es ss 0 i e h, hx, Nat.zero_add]
  rfl

/-! ## Sent on (R134) -/

theorem sendRollOn_forward {d : Side} {v : Live} (h : (v.span d.other).state ≠ .down) (t : Tables) (hd : Header)
    (g : RollBody) : sendRollOn t d hd g v = hand (.line d.other)
      (mkFrame t { hd with sender := t.node.id, hops := hd.hops + 1 } (.roll g) .plain) v :=
  if_pos (decide_eq_false h)

theorem sendRollOn_break {d : Side} {v : Live} (h : (v.span d.other).state = .down) (t : Tables) (hd : Header)
    (g : RollBody) : sendRollOn t d hd g v =
      if hd.looped = true then loopDrop v else if (v.port (.line d)).link = false then loopDrop v
      else hand (.line d)
        (mkFrame t { hd with sender := t.node.id, looped := true, rev := !hd.rev, hops := 0 }
          (.roll { g with loopId := some t.node.id }) .plain) v :=
  if_neg fun hopen => of_decide_eq_false hopen h

/-- The roll engine's record less what sending a frame can change. -/
def Roll.view0 (x : Roll) : Roll := { x with cycle := none, loopDrops := 0 }

theorem hand_view0 (p : Port) (q : QFrame) (v : Live) : (hand p q v).roll.view0 = v.roll.view0 := by
  rw [(hand_egress p q v).roll]
  rfl

theorem sendRollOn_view0 (t : Tables) (d : Side) (h : Header) (g : RollBody) (v : Live) :
    (sendRollOn t d h g v).roll.view0 = v.roll.view0 := by
  unfold sendRollOn
  dsimp only
  split
  · exact hand_view0 _ _ _
  · split
    · rfl
    · split
      · rfl
      · exact hand_view0 _ _ _

/-! ## A ROLL that passes -/

/-- The blocks after a member has copied the view of its preferred head, and as they were otherwise. -/
def Live.viewed (h : Header) (g : RollBody) (y : Live) : Live :=
  if y.epoch.active = false ∧ preferredHead y = some h.origin then copyView g y else y

theorem rollPasses_eq (t : Tables) (d : Side) (h : Header) (b : RollBody) (v : Live) {y : Live}
    (hfill : fillSlot t b (hearHead h.origin b.rank v) = (b.filled t y, y)) :
    rollPasses t d h b v = sendRollOn t d h (b.filled t y) (y.viewed h (b.filled t y)) := by
  unfold rollPasses
  dsimp only
  rw [hfill]
  rfl

theorem Live.viewed_rest (h : Header) (g : RollBody) (y : Live) :
    (y.viewed h g).spans = y.spans ∧ (y.viewed h g).io = y.io ∧ (y.viewed h g).alarms = y.alarms ∧
      (y.viewed h g).roll.duplicate = y.roll.duplicate ∧ (y.viewed h g).roll.heads = y.roll.heads := by
  unfold Live.viewed
  split <;> exact ⟨rfl, rfl, rfl, rfl, rfl⟩

theorem Roll.of_view0 {x y : Roll} (h : x.view0 = y.view0) : x.status = y.status ∧ x.view = y.view ∧ x.map = y.map ∧
    x.rejectedGen = y.rejectedGen ∧ x.duplicate = y.duplicate ∧ x.heads = y.heads := by
  have h1 := congrArg Roll.status h
  have h2 := congrArg Roll.view h
  have h3 := congrArg Roll.map h
  have h4 := congrArg Roll.rejectedGen h
  have h5 := congrArg Roll.duplicate h
  have h6 := congrArg Roll.heads h
  exact ⟨h1, h2, h3, h4, h5, h6⟩

/-- The duplicate flag after a ROLL's slot has been looked at (R132). -/
def duplicateAfter (t : Tables) (b : RollBody) (v : Live) : Option Stamp :=
  if duplicateSeen t b then some v.now else v.roll.duplicate

/-- What fills the slot stands on the blocks with the head heard and the flag set, but for what the alarm unit did. -/
theorem filled_alarmed {t : Tables} {b : RollBody} {z y : Live}
    (hseen : duplicateSeen t b = true → y = refreshAlarms t { z with roll := { z.roll with duplicate := some z.now } })
    (hclear : duplicateSeen t b = false → y = z) :
    Live.Alarmed { z with roll := { z.roll with duplicate := duplicateAfter t b z } } y := by
  unfold duplicateAfter
  cases h : duplicateSeen t b with
  | true => rw [hseen h]; exact refreshAlarms_alarmed _ _
  | false => rw [hclear h]; exact .refl z

/-- A ROLL that passes, clause by clause (R131 to R135). -/
theorem rollPasses_spec (t : Tables) (d : Side) (h : Header) (b : RollBody) (v w y z : Live)
    (hw : w = rollPasses t d h b v) (hz : z = hearHead h.origin b.rank v)
    (hseen : duplicateSeen t b = true → y = refreshAlarms t { z with roll := { z.roll with duplicate := some v.now } })
    (hclear : duplicateSeen t b = false → y = z) :
    ∃ (g : RollBody) (u : Live), w = sendRollOn t d h g u ∧ u.spans = v.spans ∧ u.io = y.io ∧ u.alarms = y.alarms ∧
      { b with slots := [] } = { g with slots := [] } ∧ g.slots.length = b.slots.length ∧
      (∀ i, i ≠ t.node.id → g.slots[i]? = b.slots[i]?) ∧
      (t.node.id < b.slots.length → g.slots[t.node.id]? = some (some
        { fillSeq := b.seq, servo := v.servo.state, cls := v.ownClass, summary := summaryCode y.alarms.summary,
          gen := t.ring.gen, stale := decide (t.ring.gen ≠ b.headGen),
          mismatch := decide (v.roll.rejectedGen = some b.headGen), duplicate := w.roll.duplicate.isSome,
          carried := false, serial := t.node.serial })) ∧
      w.roll.duplicate = duplicateAfter t b v ∧
      { id := h.origin, rank := b.rank, heardAt := v.now } ∈ w.roll.heads ∧
      (v.epoch.active = false → preferredHead z = some h.origin →
        w.roll.status = b.status ∧
        w.roll.view = some { seq := b.seq, headGen := b.headGen, silent := b.silent, mismatch := b.mismatch,
                             pending := b.pending } ∧
        w.roll.rejectedGen = (if v.roll.rejectedGen = some b.headGen then v.roll.rejectedGen else none) ∧
        w.roll.map = copyEntries b.silent 0 g.slots v.roll.map) ∧
      (v.epoch.active = true ∨ preferredHead z ≠ some h.origin →
        w.roll.status = v.roll.status ∧ w.roll.view = v.roll.view ∧ w.roll.map = v.roll.map ∧
        w.roll.rejectedGen = v.roll.rejectedGen) := by
  subst hz
  have hfill := fillSlot_eq t b (hearHead h.origin b.rank v) hseen hclear
  have hal := filled_alarmed hseen hclear
  rw [rollPasses_eq t d h b v hfill] at hw
  obtain ⟨hst, hview, hmap, hrej, hdup, hheads⟩ := Roll.of_view0 (sendRollOn_view0 t d h (b.filled t y)
    (y.viewed h (b.filled t y)))
  rw [← hw] at hst hview hmap hrej hdup hheads
  obtain ⟨hspans, hio, halarms, hdupy, hheadsy⟩ := Live.viewed_rest h (b.filled t y) y
  obtain ⟨a, io, c, l, r, hy⟩ := hal
  have hduplicate : w.roll.duplicate = duplicateAfter t b v := by rw [hdup, hdupy, hy]; rfl
  refine ⟨b.filled t y, y.viewed h (b.filled t y), hw, ?_, hio, halarms, rfl, modifyAt_length _ _ _, fun i hi => ?_,
    fun hlen => ?_, hduplicate, ?_, fun hact hpref => ?_, fun hno => ?_⟩
  · rw [hspans, hy]
    rfl
  · exact modifyAt_get_other _ _ (Ne.symm hi)
  · have hown := modifyAt_get (fun _ => some (ownSlot t b.seq b.headGen y)) b.slots t.node.id _
      (List.getElem?_eq_getElem hlen)
    refine hown.trans ?_
    rw [hduplicate, hy]
    rfl
  · rw [hheads, hheadsy, hy]
    exact mem_refreshHead _ _
  · have hcopy : y.viewed h (b.filled t y) = copyView (b.filled t y) y := by
      refine if_pos ⟨?_, ?_⟩
      · rw [hy]; exact hact
      · rw [hy]; exact hpref
    rw [hst, hview, hmap, hrej, hcopy, hy]
    exact ⟨rfl, rfl, rfl, rfl⟩
  · have hstay : y.viewed h (b.filled t y) = y := by
      refine if_neg fun hboth => ?_
      obtain ⟨hact, hpref⟩ := hboth
      rw [hy] at hact hpref
      rcases hno with hno | hno
      · exact absurd (hno.symm.trans hact) (by decide)
      · exact hno hpref
    rw [hst, hview, hmap, hrej, hstay, hy]
    exact ⟨rfl, rfl, rfl, rfl⟩

/-- Settles O42: the head heard, the slot, the view and the way on. -/
theorem memberCopiesTheView : Obligations.MemberCopiesTheView := by
  unfold Obligations.MemberCopiesTheView
  refine ⟨fun t d h b v w y z hw hz hseen hclear => ?_, fun t d h g v => ⟨fun hs => sendRollOn_forward hs t h g,
      fun hs hl hlink => ?_, fun hs hl => ?_⟩, fun v => ⟨?_, fun id hid => ?_⟩, fun id rank v a z o e he => ?_⟩
  · have hyes : duplicateSeen t b = true →
        y = refreshAlarms t { z with roll := { z.roll with duplicate := some v.now } } := fun hd => by
      obtain ⟨x, hx, h1, h2, h3⟩ := (duplicateSeen_iff t b).mp hd
      exact hseen x hx h1 h2 h3
    have hno : duplicateSeen t b = false → y = z := fun hd => hclear fun x hx hall =>
      absurd ((duplicateSeen_iff t b).mpr ⟨x, hx, hall⟩) (by rw [hd]; decide)
    obtain ⟨g, u, hsent, hspans, hio, halarms, hrest, hlen, hother, hown, hdup, hheads, hcopy, hstay⟩ :=
      rollPasses_spec t d h b v w y z hw hz hyes hno
    refine ⟨g, u, hsent, hspans, hio, halarms, hrest, hlen, hother, hown, fun x hx h1 h2 h3 => ?_, fun hx => ?_, hheads,
      fun hact hpref => ?_, fun hor => hstay (by rw [hz]; exact hor)⟩
    · exact hdup.trans (if_pos ((duplicateSeen_iff t b).mpr ⟨x, hx, h1, h2, h3⟩))
    · refine hdup.trans (if_neg fun hd => ?_)
      obtain ⟨x, hx', hall⟩ := (duplicateSeen_iff t b).mp hd
      exact hx x hx' hall
    · obtain ⟨h1, h2, h3, hmap⟩ := hcopy hact (by rw [hz]; exact hpref)
      refine ⟨h1, h2, h3, fun i e he => ⟨fun x hx => ?_, fun hx => ?_⟩⟩
      · rw [hmap]; exact copyEntries_filled he hx
      · rw [hmap]; exact copyEntries_empty he hx
  · rw [sendRollOn_break hs, if_neg (by rw [hl]; decide), if_neg (by rw [hlink]; decide)]
  · rw [sendRollOn_break hs]
    rcases hl with hl | hl
    · exact if_pos hl
    · rw [if_pos hl, ite_self]
      rfl
  · exact Option.map_eq_none_iff.trans (bestHead_none _)
  · obtain ⟨x, hx, hxid⟩ := Option.map_eq_some_iff.mp hid
    obtain ⟨hmem, hbest⟩ := bestHead_spec _ _ hx
    exact ⟨x, hmem, hxid, hbest⟩
  · subst he
    exact ⟨fun hl hid hone => congrArg (fun l => { v with roll := { v.roll with heads := l } })
        ((congrArg _ hl).trans (refreshHead_present hid hone)),
      fun hone => congrArg (fun l => { v with roll := { v.roll with heads := l } }) (refreshHead_absent hone)⟩

end Sys2Proof.Machine
end

section
/-! CONFIG distribution: the frame a head sends and its side, the scan, the member checks, the config states, and what an
adoption leaves of the rejected generation (R143 to R148). -/

namespace Sys2Proof.Machine

/-! ## Positions and sides (R145) -/

theorem posOf_absent {i : Nat} : ∀ {l : List Nat}, i ∉ l → posOf i l = none
  | [], _ => rfl
  | x :: l, h => by
    rw [posOf, if_neg fun hx => h (by rw [hx]; exact List.mem_cons_self),
      posOf_absent fun hi => h (List.mem_cons_of_mem _ hi)]
    rfl

theorem posOf_first {i : Nat} : ∀ {a b : List Nat}, i ∉ a → posOf i (a ++ i :: b) = some a.length
  | [], _, _ => if_pos rfl
  | x :: a, b, h => by
    rw [List.cons_append, posOf, if_neg fun hx => h (by rw [hx]; exact List.mem_cons_self),
      posOf_first fun hi => h (List.mem_cons_of_mem _ hi)]
    rfl

theorem posOf_nodup {i : Nat} : ∀ {l : List Nat} {k : Nat}, l.Nodup → l[k]? = some i → posOf i l = some k
  | [], k, _, h => by simp at h
  | x :: l, 0, _, h => by
    have hx : x = i := by simpa using h
    exact if_pos hx
  | x :: l, k + 1, hn, h => by
    have hk : l[k]? = some i := by simpa using h
    obtain ⟨hx, hl⟩ := List.nodup_cons.mp hn
    rw [posOf, if_neg fun hxi => hx (by rw [hxi]; exact List.mem_of_getElem? hk), posOf_nodup hl hk]
    rfl

theorem nearSide_absent {l : List Nat} {self : Nat} (h : self ∉ l) (tgt : Nat) : nearSide l self tgt = .east := by
  unfold nearSide
  rw [posOf_absent h]

theorem nearSide_ahead {l : List Nat} {self tgt a b : Nat} (hn : l.Nodup) (ha : l[a]? = some self)
    (hb : l[b]? = some tgt) :
    nearSide l self tgt = if 2 * ((b + l.length - a) % l.length) ≤ l.length then .east else .west := by
  unfold nearSide
  rw [posOf_nodup hn ha, posOf_nodup hn hb]

theorem openSide_down {v : Live} {d : Side} (h : (v.span d).state = .down) (ho : (v.span d.other).state = .down) :
    openSide v d = none := by
  unfold openSide
  exact (if_pos (decide_eq_true h)).trans (if_pos (decide_eq_true ho))

theorem openSide_open {v : Live} {d x : Side} (hx : x = if (v.span d).state = .down then d.other else d)
    (h : (v.span x).state ≠ .down) : openSide v d = some x := by
  unfold openSide
  by_cases hd : (v.span d).state = .down
  · rw [if_pos hd] at hx
    subst hx
    exact (if_pos (decide_eq_true hd)).trans (if_neg fun hdown => h (of_decide_eq_true hdown))
  · rw [if_neg hd] at hx
    subst hx
    exact if_neg fun hdown => hd (of_decide_eq_true hdown)

/-- With a span that is not DOWN there is a side to send by. -/
theorem openSide_exists {v : Live} (h : ∃ d, (v.span d).state ≠ .down) (d : Side) : ∃ x, openSide v d = some x := by
  by_cases hd : (v.span d).state = .down
  · refine ⟨_, openSide_open rfl ?_⟩
    rw [if_pos hd]
    obtain ⟨e, he⟩ := h
    cases d <;> cases e
    · exact absurd hd he
    · exact he
    · exact he
    · exact absurd hd he
  · exact ⟨_, openSide_open rfl (by rw [if_neg hd]; exact hd)⟩

/-! ## One CONFIG (R145) -/

theorem modifyAt_set {α : Type} (f : α → α) : ∀ (l : List α) (i : Nat) (x : α), l[i]? = some x →
    modifyAt i f l = l.set i (f x)
  | [], _, _, h => by simp at h
  | a :: l, 0, x, h => by
    have hax : a = x := by simpa using h
    rw [hax]
    rfl
  | a :: l, i + 1, x, h => congrArg (a :: ·) (modifyAt_set f l i x (by simpa using h))

theorem configSide_entry {t : Tables} {v : Live} {tgt : Nat} {e : MapEntry} (h : v.roll.map[tgt]? = some e) :
    configSide t tgt v = match v.roll.status, e.mergeRev with
      | .forward, _ => nearSide t.ring.members t.node.id tgt
      | _, some rev => if rev then .west else .east
      | _, none => nearSide t.ring.members t.node.id tgt := by
  unfold configSide
  rw [h]
  rfl

theorem outRev_eq (d : Side) : d.outRev = decide (d = .west) := by cases d <;> rfl

/-- The CONFIG a head sends to a target by a side. -/
def configFrame (t : Tables) (tgt : Nat) (x : Side) (v : Live) : QFrame :=
  mkFrame t
    { ring := t.node.ringId, rev := decide (x = .west), looped := false, origin := t.node.id, sender := t.node.id,
      target := tgt, hops := 0, seq := v.roll.configSeq + 1 }
    (.config { target := tgt, ring := t.ring }) .plain

theorem sendConfig_sent {t : Tables} {v : Live} {tgt : Nat} {e : MapEntry} {x : Side} (h : v.roll.map[tgt]? = some e)
    (hx : openSide v (configSide t tgt v) = some x) : sendConfig t tgt v =
      some (hand (.line x) (configFrame t tgt x v) { v with roll := { v.roll with
        configSeq := v.roll.configSeq + 1, lastServed := some tgt, configSent := bump v.roll.configSent
        map := v.roll.map.set tgt { e with marker := true } } }) := by
  unfold sendConfig configFrame
  rw [hx, ← outRev_eq, ← modifyAt_set (fun e => { e with marker := true }) _ _ _ h]
  rfl

theorem sendConfig_shut {t : Tables} {v : Live} {tgt : Nat} (h : openSide v (configSide t tgt v) = none) :
    sendConfig t tgt v = none := by
  unfold sendConfig
  rw [h]

/-! ## The scan (R143, R145) -/

theorem hand_spanState (p : Port) (q : QFrame) (v : Live) (d : Side) :
    ((hand p q v).span d).state = (v.span d).state := by
  rcases hand_span p d q v with h | ⟨_, _, _, o, h⟩
  · rw [h]
  · rw [h]

theorem sendConfig_spanState {t : Tables} {i : Nat} {v w : Live} (h : sendConfig t i v = some w) (d : Side) :
    (w.span d).state = (v.span d).state := by
  unfold sendConfig at h
  split at h
  · cases h
  · cases h
    exact hand_spanState _ _ _ d

/-- With a span that is not DOWN, the CONFIGs go to the first targets, as many as may be sent. -/
theorem sendConfigs_open (t : Tables) (l : List Nat) : ∀ (n : Nat) (v : Live), (∃ d, (v.span d).state ≠ .down) →
    sendConfigs t n l v = (n - l.length, (l.take n).foldl (fun u i => (sendConfig t i u).getD u) v) ∧
      ∃ d, ((sendConfigs t n l v).2.span d).state ≠ .down := by
  induction l with
  | nil => intro n v h; cases n <;> exact ⟨rfl, h⟩
  | cons i l ih =>
    intro n v h
    cases n with
    | zero => exact ⟨by simp [sendConfigs], h⟩
    | succ n =>
      obtain ⟨x, hx⟩ := openSide_exists h (configSide t i v)
      obtain ⟨w, hw⟩ : ∃ w, sendConfig t i v = some w := by
        unfold sendConfig
        rw [hx]
        exact ⟨_, rfl⟩
      obtain ⟨heq, hopen⟩ := ih n w (h.imp fun d hd => by rwa [sendConfig_spanState hw d])
      rw [sendConfigs, hw]
      dsimp only
      refine ⟨heq.trans ?_, hopen⟩
      rw [List.length_cons, Nat.add_sub_add_right, List.take_succ_cons, List.foldl_cons, hw]
      rfl

theorem sendConfigs_shut (t : Tables) {v : Live} (h : ∀ d, (v.span d).state = .down) (l : List Nat) :
    ∀ n, sendConfigs t n l v = (n, v) := by
  induction l with
  | nil => intro n; cases n <;> rfl
  | cons i l ih =>
    intro n
    cases n with
    | zero => rfl
    | succ n =>
      rw [sendConfigs, sendConfig_shut (openSide_down (h _) (h _))]
      exact ih _

/-- A sublist of a list without repetition is the filter by its members. -/
theorem sublist_eq_filter {p : Nat → Bool} {l order : List Nat} (h : l.Sublist order) (hn : order.Nodup)
    (hmem : ∀ i, i ∈ l ↔ i ∈ order ∧ p i = true) : l = order.filter p := by
  have hself : l.filter p = l := List.filter_eq_self.mpr fun i hi => ((hmem i).mp hi).2
  have hsub : l.Sublist (order.filter p) := hself ▸ h.filter p
  have hback : (order.filter p).Subset l := fun i hi => (hmem i).mpr (List.mem_filter.mp hi)
  exact hsub.eq_of_length_le ((hn.filter p).subperm hback).length_le

theorem distributing_iff (t : Tables) (v : Live) : distributing t v = true ↔ ∀ x ∈ v.roll.heads, headRank t ≤ x.rank := by
  unfold distributing
  simp [List.all_eq_true]

theorem headRank_eq (t : Tables) : headRank t = if originRole t = .standby then 1 else 0 := by
  unfold headRank
  cases originRole t <;> rfl

/-- The order of the scan: from the position after the last node served (R145). -/
theorem scanOrder_eq {t : Tables} {v : Live} {served : Nat} (hs : served = v.roll.lastServed.getD t.node.id)
    {order : List Nat} (habsent : served ∉ t.ring.members → order = t.ring.members)
    (hafter : ∀ a b, t.ring.members = a ++ served :: b → served ∉ a → order = b ++ a ++ [served]) :
    rotate (scanStart t v) t.ring.members = order := by
  subst hs
  unfold scanStart
  by_cases hmem : v.roll.lastServed.getD t.node.id ∈ t.ring.members
  · obtain ⟨a, b, hab, ha⟩ := List.eq_append_cons_of_mem hmem
    rw [hafter a b hab ha, hab, posOf_first ha]
    dsimp only
    cases b with
    | nil => simp [rotate]
    | cons c b =>
      rw [Nat.mod_eq_of_lt (by simp)]
      have hlen : a.length + 1 = (a ++ [v.roll.lastServed.getD t.node.id]).length := by simp
      rw [rotate, List.append_cons, hlen, List.drop_left, List.take_left, List.append_assoc]
  · rw [posOf_absent hmem, habsent hmem]
    simp [rotate]

/-- Whether an id's entry is PENDING, with its marker as given. -/
def pendingAt (v : Live) (marked : Bool) (i : Nat) : Bool :=
  match v.roll.map[i]? with
  | some e => decide (e.config = some .pending) && (e.marker == marked)
  | none => false

theorem pendingAt_iff (v : Live) (marked : Bool) (i : Nat) : pendingAt v marked i = true ↔
    ∃ e, v.roll.map[i]? = some e ∧ e.config = some .pending ∧ e.marker = marked := by
  unfold pendingAt
  cases v.roll.map[i]? <;> simp

/-- The scan of a distributing head, its two lists named. -/
theorem configScan_lists {t : Tables} {v : Live} (hgen : t.ring.gen ≠ 0) (hd : distributing t v = true) :
    configScan t v =
      (sendConfigs t (sendConfigs t 4 ((rotate (scanStart t v) t.ring.members).filter (pendingAt v false)) v).1
        ((rotate (scanStart t v) t.ring.members).filter (pendingAt v true))
        (sendConfigs t 4 ((rotate (scanStart t v) t.ring.members).filter (pendingAt v false)) v).2).2 :=
  if_neg (by rw [hd]; simp [hgen])

theorem configScan_silent {t : Tables} {v : Live} (h : t.ring.gen = 0 ∨ (∃ x ∈ v.roll.heads, x.rank < headRank t) ∨
    ∀ d, (v.span d).state = .down) : configScan t v = v := by
  by_cases hout : t.ring.gen = 0 ∨ distributing t v = false
  · exact if_pos hout
  · obtain ⟨hgen, hdist⟩ := not_or.mp hout
    have hd : distributing t v = true := by simpa using hdist
    have hdown : ∀ d, (v.span d).state = .down := by
      rcases h with h | ⟨x, hx, hlt⟩ | h
      · exact absurd h hgen
      · exact absurd ((distributing_iff t v).mp hd x hx) (Nat.not_le.mpr hlt)
      · exact h
    rw [configScan_lists hgen hd, sendConfigs_shut t hdown, sendConfigs_shut t hdown]

theorem configScan_sends {t : Tables} {v : Live} (hgen : t.ring.gen ≠ 0)
    (hd : ∀ x ∈ v.roll.heads, headRank t ≤ x.rank) (hopen : ∃ d, (v.span d).state ≠ .down) {first again : List Nat}
    (hfirst : first = (rotate (scanStart t v) t.ring.members).filter (pendingAt v false))
    (hagain : again = (rotate (scanStart t v) t.ring.members).filter (pendingAt v true)) :
    configScan t v = ((first ++ again).take 4).foldl (fun u i => (sendConfig t i u).getD u) v := by
  obtain ⟨heq, hopen'⟩ := sendConfigs_open t first 4 v hopen
  obtain ⟨heq', -⟩ := sendConfigs_open t again (sendConfigs t 4 first v).1 _ hopen'
  rw [configScan_lists hgen ((distributing_iff t v).mpr hd), ← hfirst, ← hagain, heq', heq, List.take_append,
    List.foldl_append]

/-! ## The checks and the config states (R144, R147) -/

theorem memberChecks_iff (x : NodeTable) (r : RingTable) : memberChecks x r = true ↔ x.id ∈ r.members ∧
    (x.role = .primary → x.id = r.primary) ∧ (x.role = .standby → r.standby = some x.id) ∧
    (x.role = .member → x.id ≠ r.primary ∧ r.standby ≠ some x.id) := by
  unfold memberChecks
  cases x.role <;> simp

theorem deriveConfig_entry {t : Tables} (g : Bool) {v : Live} {i : Nat} {e : MapEntry} (h : v.roll.map[i]? = some e) :
    (deriveConfig t g v).roll.map[i]? = some (deriveEntry t g i e) := by
  have hget := deriveEntries_get t g v.roll.map 0 i
  rw [h, Nat.zero_add] at hget
  exact hget

/-! ## What an installation leaves of the rejected generation (R148) -/

theorem siteResponse_rejectedGen (t : Tables) (d : Side) (b : RespBody) (n : Note) (v : Live) :
    (siteResponse t d b n v).roll.rejectedGen = v.roll.rejectedGen := by
  unfold siteResponse
  dsimp only
  exact (Live.rejectedGen_of_kept (hand_kept _ _ _)).trans rfl

theorem relayCheck_rejectedGen (t : Tables) (h : Nat) (v : Live) :
    (relayCheck t h v).roll.rejectedGen = v.roll.rejectedGen := by
  unfold relayCheck
  split
  · split
    · split
      · exact (siteResponse_rejectedGen _ _ _ _ _).trans rfl
      · rfl
    · rfl
  · rfl

theorem relayChecks_rejectedGen (t : Tables) (l : List Nat) : ∀ v : Live,
    (relayChecks t l v).roll.rejectedGen = v.roll.rejectedGen := by
  induction l with
  | nil => exact fun _ => rfl
  | cons h l ih => exact fun v => (ih _).trans (relayCheck_rejectedGen t h v)

theorem refreshAlarms_rejectedGen (t : Tables) (v : Live) :
    (refreshAlarms t v).roll.rejectedGen = v.roll.rejectedGen := Live.rejectedGen_of_kept (refreshAlarms_kept t v)

theorem nodeEffects_rejectedGen (old new : Tables) (v : Live) :
    (nodeEffects old new v).roll.rejectedGen = v.roll.rejectedGen := by
  unfold nodeEffects
  dsimp only
  rw [relayChecks_rejectedGen]
  split
  · rfl
  · exact refreshAlarms_rejectedGen _ _

theorem loseInput_roll (c : Cand) (v : Live) : (loseInput c v).roll = v.roll := by
  unfold loseInput
  split <;> rfl

theorem rearm_roll (v : Live) : (rearm v).roll = v.roll := by
  unfold rearm
  split <;> rfl

theorem promote_roll (t : Tables) (c : Cand) (v : Live) : (promote t c v).roll = v.roll := by
  unfold promote
  dsimp only
  split <;> rfl

theorem demoteQ4_roll (t : Tables) (c : Cand) (v : Live) : (demoteQ4 t c v).roll = v.roll := by
  unfold demoteQ4
  dsimp only
  split <;> rfl

theorem reviseRing_roll (t : Tables) (c : Cand) (v : Live) : (reviseRing t c v).roll = v.roll := by
  unfold reviseRing
  dsimp only
  split
  · exact loseInput_roll _ _
  · rw [promote_roll, demoteQ4_roll]
    split
    · exact rearm_roll _
    · rfl

theorem dropUnnamedOrigins_roll (t : Tables) (c : Cand) (v : Live) : (dropUnnamedOrigins t c v).roll = v.roll := by
  unfold dropUnnamedOrigins
  split
  · rfl
  · exact reviseRing_roll _ _ _

theorem statusWithoutHead_rejectedGen (v : Live) : (statusWithoutHead v).roll.rejectedGen = v.roll.rejectedGen := by
  unfold statusWithoutHead
  split <;> rfl

theorem dropUnnamed_rejectedGen (t : Tables) (v : Live) : (dropUnnamed t v).roll.rejectedGen = v.roll.rejectedGen := by
  unfold dropUnnamed dropUnnamedHeads
  rw [statusWithoutHead_rejectedGen]
  rw [dropUnnamedOrigins_roll, dropUnnamedOrigins_roll]

theorem ceaseActive_rejectedGen (v : Live) : (ceaseActive v).roll.rejectedGen = v.roll.rejectedGen := by
  unfold ceaseActive ceaseHead
  rw [statusWithoutHead_rejectedGen]

theorem roleEffects_rejectedGen (old new : OriginRole) (t : Tables) (v : Live) :
    (roleEffects old new t v).roll.rejectedGen = v.roll.rejectedGen := by
  have hceased : (if v.epoch.active = true then ceaseActive v else v).roll.rejectedGen = v.roll.rejectedGen := by
    split
    · exact ceaseActive_rejectedGen v
    · rfl
  unfold roleEffects
  split
  · rfl
  · dsimp only
    split
    · exact (Live.rejectedGen_of_kept (becomeActive_kept t _)).trans hceased
    · exact hceased
    · exact hceased

theorem revertCheck_rejectedGen (t : Tables) (v : Live) : (revertCheck t v).roll.rejectedGen = v.roll.rejectedGen := by
  unfold revertCheck
  split
  · unfold startTakeover
    exact ceaseActive_rejectedGen _
  · rfl

theorem rollTick_rejectedGen (t : Tables) (v : Live) : (rollTick t v).roll.rejectedGen = v.roll.rejectedGen := by
  unfold rollTick
  dsimp only
  split
  · exact Live.rejectedGen_of_kept (beginCycle_kept t _)
  · rfl

theorem ringEffects_rejectedGen (t : Tables) (old : RingTable) (role : OriginRole) (v : Live) :
    (ringEffects t old role v).roll.rejectedGen = v.roll.rejectedGen := by
  unfold ringEffects
  extract_lets v1 v2 v3 v4
  have h1 : v1.roll.rejectedGen = v.roll.rejectedGen := by
    have hconfigs : (ringConfigs t old (dropUnnamed t v)).roll.rejectedGen = (dropUnnamed t v).roll.rejectedGen := by
      unfold ringConfigs
      split <;> rfl
    exact ((refreshAlarms_rejectedGen _ _).trans hconfigs).trans (dropUnnamed_rejectedGen t v)
  have h2 : v2.roll.rejectedGen = v.roll.rejectedGen := (roleEffects_rejectedGen _ _ _ _).trans h1
  have h3 : v3.roll.rejectedGen = v.roll.rejectedGen := by
    unfold v3
    split
    · exact h2
    · exact h2
  have h4 : v4.roll.rejectedGen = v.roll.rejectedGen := (revertCheck_rejectedGen _ _).trans h3
  split
  · exact (rollTick_rejectedGen _ _).trans h4
  · exact h4

theorem learn_rejectedGen (t : Tables) (d : Side) (v : Live) :
    (neighbourCheck t d v).roll.rejectedGen = v.roll.rejectedGen := by
  unfold neighbourCheck tryUp
  dsimp only
  rw [refreshAlarms_rejectedGen]
  split
  · split
    · exact (Live.rejectedGen_of_kept (setSpanState_kept _ _ _)).trans rfl
    · rfl
  · split
    · exact (Live.rejectedGen_of_kept (setSpanState_kept _ _ _)).trans rfl
    · rfl

theorem fcsCheck_rejectedGen (t : Tables) (d : Side) (v : Live) :
    (fcsCheck t d v).roll.rejectedGen = v.roll.rejectedGen := by
  unfold fcsCheck
  split
  · exact Live.rejectedGen_of_kept (enterDown_kept t d v)
  · rfl

theorem lineEffects_rejectedGen (t : Tables) (old new : LineCfg) (d : Side) (v : Live) :
    (lineEffects t old new d v).roll.rejectedGen = v.roll.rejectedGen :=
  (learn_rejectedGen t d _).trans (fcsCheck_rejectedGen t d _)

theorem enterAccess_rejectedGen (c : AccessCfg) (i : Fin 4) (st : AccessState) (tm : Option Timer) (v : Live) :
    (enterAccess c i st tm v).roll.rejectedGen = v.roll.rejectedGen :=
  Live.rejectedGen_of_kept (enterAccess_kept c i st tm v)

theorem applyMode_rejectedGen (old new : AccessCfg) (i : Fin 4) (v : Live) :
    (applyMode old new i v).roll.rejectedGen = v.roll.rejectedGen := by
  have hwithdrawn : (if new.mode = .pulse then withdraw (.access i) isEpochFrame v else v).roll.rejectedGen =
      v.roll.rejectedGen := by
    split <;> rfl
  unfold applyMode
  split
  · rfl
  · split
    · exact enterAccess_rejectedGen _ _ _ _ _
    · dsimp only
      split
      · exact (enterAccess_rejectedGen _ _ _ _ _).trans hwithdrawn
      · exact hwithdrawn

theorem applyFloor_rejectedGen (old mid : AccessCfg) (i : Fin 4) (v : Live) :
    (applyFloor old mid i v).roll.rejectedGen = v.roll.rejectedGen := by
  unfold applyFloor
  split
  · rfl
  · dsimp only
    split
    · rfl
    · split
      · exact enterAccess_rejectedGen _ _ _ _ _
      · rfl
    · split
      · rfl
      · split <;> rfl

theorem applyLoss_rejectedGen (old new : AccessCfg) (i : Fin 4) (v : Live) :
    (applyLoss old new i v).roll.rejectedGen = v.roll.rejectedGen := by
  unfold applyLoss
  split
  · rfl
  · dsimp only
    split
    · exact enterAccess_rejectedGen _ _ _ _ _
    · exact enterAccess_rejectedGen _ _ _ _ _
    · rfl

theorem restoreCheck_rejectedGen (t : Tables) (i : Fin 4) (v : Live) :
    (restoreCheck t i v).roll.rejectedGen = v.roll.rejectedGen := by
  unfold restoreCheck
  split
  · exact enterAccess_rejectedGen _ _ _ _ _
  · rfl

theorem accessEffects_rejectedGen (t : Tables) (old new : AccessCfg) (i : Fin 4) (v : Live) :
    (accessEffects t old new i v).roll.rejectedGen = v.roll.rejectedGen := by
  unfold accessEffects
  extract_lets v1 v2 v3 v4 v5
  have h1 : v1.roll.rejectedGen = v.roll.rejectedGen :=
    (refreshAlarms_rejectedGen _ _).trans (applyMode_rejectedGen _ _ _ _)
  have h2 : v2.roll.rejectedGen = v.roll.rejectedGen := by
    unfold v2
    split <;> exact h1
  have h3 : v3.roll.rejectedGen = v.roll.rejectedGen :=
    ((refreshAlarms_rejectedGen _ _).trans (applyFloor_rejectedGen _ _ _ _)).trans h2
  have h4 : v4.roll.rejectedGen = v.roll.rejectedGen :=
    ((refreshAlarms_rejectedGen _ _).trans (applyLoss_rejectedGen _ _ _ _)).trans h3
  have h5 : v5.roll.rejectedGen = v.roll.rejectedGen := by
    unfold v5
    split
    · exact h4
    · exact ((refreshAlarms_rejectedGen _ _).trans (restoreCheck_rejectedGen _ _ _)).trans h4
  split
  · exact h5
  · unfold applyAdvance
    dsimp only
    split <;> exact h5

theorem portEffects_rejectedGen (old new : Tables) (v : Live) :
    (portEffects old new v).roll.rejectedGen = v.roll.rejectedGen := by
  unfold portEffects
  simp only [accessEffects_rejectedGen, lineEffects_rejectedGen]

theorem followEnable_roll (t : Tables) (c : Cand) (v : Live) : (followEnable t c v).roll = v.roll := by
  unfold followEnable
  dsimp only
  split
  · rfl
  · split <;> rfl
  · split <;> rfl
  · rfl

theorem candEffects_roll (t : Tables) (v : Live) : (candEffects t v).roll = v.roll := by
  unfold candEffects
  simp only [promote_roll, followEnable_roll]

theorem servoEffects_roll (old new : ServoTable) (v : Live) : (servoEffects old new v).roll = v.roll := by
  unfold servoEffects
  dsimp only
  split <;> split <;> rfl

theorem thermalEffects_roll (old new : ThermalTable) (v : Live) : (thermalEffects old new v).roll = v.roll := by
  unfold thermalEffects
  split <;> rfl

theorem soakChecks_rejectedGen (t : Tables) (l : List Nat) : ∀ v : Live,
    (soakChecks t l v).roll.rejectedGen = v.roll.rejectedGen := by
  induction l with
  | nil => exact fun _ => rfl
  | cons i l ih => exact fun v => (ih _).trans (Live.rejectedGen_of_kept (soakCheck_kept t i v))

/-- The blocks take new tables without a word on the rejected generation. -/
theorem takeTables_rejectedGen (old new : Tables) (v : Live) :
    (takeTables old new v).roll.rejectedGen = v.roll.rejectedGen := by
  unfold takeTables alarmEffects
  dsimp only
  split
  · rw [thermalEffects_roll, servoEffects_roll, refreshAlarms_rejectedGen, candEffects_roll, portEffects_rejectedGen,
      refreshAlarms_rejectedGen, ringEffects_rejectedGen, nodeEffects_rejectedGen, refreshAlarms_rejectedGen]
  · rw [soakChecks_rejectedGen, thermalEffects_roll, servoEffects_roll, refreshAlarms_rejectedGen, candEffects_roll,
      portEffects_rejectedGen, refreshAlarms_rejectedGen, ringEffects_rejectedGen, nodeEffects_rejectedGen,
      refreshAlarms_rejectedGen]

/-! ## The statement -/

theorem configVerdict_passes {t : Tables} {d : Side} {h : Header} (hn : namesOrigin t.ring h.origin = true)
    (hrev : h.rev = d.inRev) (ho : h.origin ≠ t.node.id) (hh : h.hops ≠ 31) (l : Lock) (c : Bool) (b : ConfigBody) :
    configVerdict t l c d h b =
      if h.target ≠ t.node.id then .forward
      else if t.node.role = .primary then .discard
      else if c = true then .deferred
      else if b.ring.gen = 0 then .discard
      else if memberChecks t.node b.ring = true ∧ l = .opened then .adopt
      else .refuse := by
  unfold configVerdict
  rw [if_neg (by rw [hn]; decide), if_neg (not_not_intro hrev), if_neg ho, if_neg hh]

theorem configVerdict_fails {t : Tables} {d : Side} {h : Header}
    (hf : namesOrigin t.ring h.origin = false ∨ h.rev ≠ d.inRev ∨ h.origin = t.node.id ∨ h.hops = 31) (l : Lock)
    (c : Bool) (b : ConfigBody) : configVerdict t l c d h b = .discard := by
  unfold configVerdict
  by_cases h1 : namesOrigin t.ring h.origin = false
  · exact if_pos h1
  · by_cases h2 : h.rev ≠ d.inRev
    · rw [if_neg h1, if_pos h2]
    · by_cases h3 : h.origin = t.node.id
      · rw [if_neg h1, if_neg h2, if_pos h3]
      · rw [if_neg h1, if_neg h2, if_neg h3, if_pos (((hf.resolve_left h1).resolve_left h2).resolve_left h3)]

/-- A CONFIG claimed here, by what its checks give. -/
theorem exec_config {n : Nat} {d : Side} {rx : Stamp} {f : RawFrame} {h : Header} {b : ConfigBody} {s : State}
    {v : Live} (hv : v = s.arrived n (.line d))
    (hc : claimedAs s (.line d) rx f { hdr := h, body := .config b } = true) :
    exec (.configArrival n d .ends f) s = .next
      { State.takeConfig d h b { s with live := v } with
        live := finish (State.takeConfig d h b { s with live := v }).tables
          (State.takeConfig d h b { s with live := v }).live } :=
  congrArg Host.Outcome.next (State.receive_claimed hv hc)

/-- What a verdict brings about (R146 to R148). -/
def State.judgedConfig (d : Side) (h : Header) (b : ConfigBody) (s : State) : ConfigVerdict → State
  | .discard => { s with live := configDiscard s.live }
  | .forward => { s with live := forwardConfig s.tables d h b s.live }
  | .deferred => { s with live := { s.live with roll := { s.live.roll with
      configDeferred := bump s.live.roll.configDeferred } } }
  | .refuse => { s with live := refuseConfig b.ring.gen s.live }
  | .adopt => State.install { s.tables with ring := b.ring }
      { s with live := { s.live with roll := { s.live.roll with rejectedGen := none } } }

theorem takeConfig_verdict (d : Side) (h : Header) (b : ConfigBody) (s : State) : State.takeConfig d h b s =
    s.judgedConfig d h b (configVerdict s.tables s.locks.ring s.store.commit.isSome d h b) := by
  unfold State.takeConfig
  dsimp only
  split <;> next hx => rw [hx]; rfl

/-- Settles O44: the judgement, the CONFIG sent, the scan, the sides, the member checks and the config states. -/
theorem configIsJudged : Obligations.ConfigIsJudged := by
  unfold Obligations.ConfigIsJudged
  refine ⟨fun n d rx f h b s v hv hc => ?_, fun t v tgt e d he hd => ⟨fun h1 h2 => ?_, fun x hx hopen => ?_⟩,
    fun t v order first again served hserved habsent hafter hfirst hagain hsub hsub' hn => ?_,
    fun l self tgt a b => ⟨fun h => nearSide_absent h tgt, nearSide_ahead⟩, memberChecks_iff,
    fun t changed v w hw => ⟨?_, ?_, fun i e he => ?_⟩⟩
  · have hexec : ∀ (x : ConfigVerdict) (w : Live),
        configVerdict s.tables s.locks.ring s.store.commit.isSome d h b = x →
        State.judgedConfig d h b { s with live := v } x = { s with live := w } →
        exec (.configArrival n d .ends f) s = .next (s.settled w) := fun x w hx hw => by
      rw [exec_config hv hc, takeConfig_verdict, show configVerdict _ _ _ d h b = x from hx, hw]
      rfl
    refine ⟨fun hf => ?_, fun hn hrev ho hh => ?_⟩
    · have hx := configVerdict_fails hf s.locks.ring s.store.commit.isSome b
      exact hexec _ _ hx rfl
    · have hpass := configVerdict_passes hn hrev ho hh s.locks.ring s.store.commit.isSome b
      refine ⟨fun ht hdown => ?_, fun ht hopen => ?_, fun ht => ⟨fun hr => ?_, fun hr hcom => ?_, fun hr hcom hgen => ?_,
        fun hr hcom hgen hno => ?_, fun hr hcom hgen hm hl => ?_⟩⟩
      · have hx := hpass.trans (if_pos ht)
        refine hexec _ _ hx (congrArg (fun w => { s with live := w }) ?_)
        exact if_pos (decide_eq_true hdown)
      · have hx := hpass.trans (if_pos ht)
        refine hexec _ _ hx (congrArg (fun w => { s with live := w }) ?_)
        exact if_neg fun hdown => hopen (of_decide_eq_true hdown)
      · have hx := hpass.trans ((if_neg (not_not_intro ht)).trans (if_pos hr))
        exact hexec _ _ hx rfl
      · have hx := hpass.trans ((if_neg (not_not_intro ht)).trans ((if_neg hr).trans
          (if_pos (Option.isSome_iff_ne_none.mpr hcom))))
        exact hexec _ _ hx rfl
      · have hx := hpass.trans ((if_neg (not_not_intro ht)).trans ((if_neg hr).trans
          ((if_neg (by rw [hcom]; decide)).trans (if_pos hgen))))
        exact hexec _ _ hx rfl
      · have hboth : ¬ (memberChecks s.tables.node b.ring = true ∧ s.locks.ring = .opened) := fun hb => by
          obtain ⟨hm, hl⟩ := hb
          rcases hno with hno | hno
          · exact absurd (hno.symm.trans hm) (by decide)
          · exact hno hl
        have hx := hpass.trans ((if_neg (not_not_intro ht)).trans ((if_neg hr).trans
          ((if_neg (by rw [hcom]; decide)).trans ((if_neg hgen).trans (if_neg hboth)))))
        exact hexec _ _ hx rfl
      · have hx := hpass.trans ((if_neg (not_not_intro ht)).trans ((if_neg hr).trans
          ((if_neg (by rw [hcom]; decide)).trans ((if_neg hgen).trans (if_pos ⟨hm, hl⟩)))))
        have hexec := exec_config hv hc
        rw [takeConfig_verdict, show configVerdict _ _ _ d h b = ConfigVerdict.adopt from hx] at hexec
        have hquiet := takeTables_quiet s.tables { s.tables with ring := b.ring }
          { v with roll := { v.roll with rejectedGen := none } }
        refine ⟨_, hexec, rfl, rfl, rfl, rfl, ?_, ?_, ?_⟩
        · exact (finish_rejectedGen _ _).trans ((finish_rejectedGen _ _).trans (takeTables_rejectedGen _ _ _))
        · exact (finish_value _ _).trans ((finish_value _ _).trans hquiet.value)
        · exact (finish_steady _ _).steps.trans ((finish_steady _ _).steps.trans hquiet.steps)
  · have hside := (configSide_entry (t := t) he).trans hd.symm
    exact sendConfig_shut (by rw [hside]; exact openSide_down h1 h2)
  · have hside := (configSide_entry (t := t) he).trans hd.symm
    exact sendConfig_sent he (by rw [hside]; exact openSide_open hx hopen)
  · have horder := scanOrder_eq hserved habsent hafter
    have h1 : first = order.filter (pendingAt v false) :=
      sublist_eq_filter hsub hn fun i => (hfirst i).trans (and_congr_right fun _ => (pendingAt_iff v false i).symm)
    have h2 : again = order.filter (pendingAt v true) :=
      sublist_eq_filter hsub' hn fun i => (hagain i).trans (and_congr_right fun _ => (pendingAt_iff v true i).symm)
    rw [← headRank_eq]
    exact ⟨configScan_silent, fun hgen hheads hopen =>
      configScan_sends hgen hheads hopen (by rw [horder]; exact h1) (by rw [horder]; exact h2)⟩
  · rw [hw]
    rfl
  · rw [hw]
    exact deriveEntries_length _ _ _ _
  · have hentry := deriveConfig_entry (t := t) changed he
    rw [← hw] at hentry
    refine ⟨fun hout => hentry.trans (congrArg some (if_neg fun hin => ?_)), fun hin hself => ?_⟩
    · rcases hout with hout | hout
      · exact hout hin.1
      · exact hin.2 hout
    · exact ⟨configStateOf t.ring.gen e, hentry.trans (congrArg some (if_pos ⟨hin, hself⟩)), configStateOf_unseen,
        fun y hy hp => configStateOf_filled hy hp⟩

end Sys2Proof.Machine
end

section
/-! The own class and the access ports: what the roll engine and the selection leave of them, what an access port makes
of a change of class and of its record, and the class once what follows has followed (R42, R75 to R77, R153 to R157). -/

namespace Sys2Proof.Machine

/-! ## What the roll engine leaves alone -/

/-- The second blocks are the first but for the epoch engine, the roll engine, the alarm unit, the ports, the spans, and
what the ports note: all that the roll engine and a takeover can change. -/
def Live.Rolled (v w : Live) : Prop :=
  ∃ (e : Epoch) (x : Roll) (a : Alarms) (io : Ports) (sp : Pair Span) (l : List Loss) (r : Bool),
    w = { v with epoch := e, roll := x, alarms := a, io := io, spans := sp, losses := l, restartDue := r }

theorem Live.Rolled.refl (v : Live) : v.Rolled v := ⟨_, _, _, _, _, _, _, rfl⟩

theorem Live.Rolled.trans {u v w : Live} (h : u.Rolled v) (k : v.Rolled w) : u.Rolled w := by
  obtain ⟨_, _, _, _, _, _, _, rfl⟩ := h
  obtain ⟨_, _, _, _, _, _, _, rfl⟩ := k
  exact ⟨_, _, _, _, _, _, _, rfl⟩

theorem Live.Rolled.after {u v w : Live} (k : v.Rolled w) (h : u.Rolled v) : u.Rolled w := h.trans k

theorem Live.roll_rolled (v : Live) (x : Roll) : v.Rolled { v with roll := x } := ⟨_, _, _, _, _, _, _, rfl⟩

theorem Live.epoch_rolled (v : Live) (e : Epoch) : v.Rolled { v with epoch := e } := ⟨_, _, _, _, _, _, _, rfl⟩

theorem Live.Alarmed.rolled {v w : Live} (h : v.Alarmed w) : v.Rolled w := by
  obtain ⟨_, _, _, _, _, rfl⟩ := h
  exact ⟨_, _, _, _, _, _, _, rfl⟩

theorem hand_rolled (p : Port) (q : QFrame) (v : Live) : v.Rolled (hand p q v) := by
  have h := hand_egress p q v
  refine ⟨v.epoch, (hand p q v).roll, v.alarms, (hand p q v).io, (hand p q v).spans, (hand p q v).losses,
    (hand p q v).restartDue, ?_⟩
  obtain ⟨h1, h2, h3, h4, h5, h6, h7, h8, h9, h10, h11, h12, h13, -, h15, h16, h17, h18, h19⟩ := h
  rw [← h1, ← h2, ← h3, ← h4, ← h5, ← h6, ← h7, ← h8, ← h9, ← h10, ← h11, ← h12, ← h13, ← h15, ← h16, ← h17, ← h18,
    ← h19]

theorem sendRoll_rolled (t : Tables) (rev : Bool) (seq : Seq16) (v : Live) : v.Rolled (sendRoll t rev seq v) :=
  ((hand_rolled _ _ _).after (Live.roll_rolled _ _)).after (refreshAlarms_alarmed t v).rolled

theorem sendConfig_rolled {t : Tables} {i : Nat} {v w : Live} (h : sendConfig t i v = some w) : v.Rolled w := by
  unfold sendConfig at h
  split at h
  · cases h
  · cases h
    refine (hand_rolled _ _ _).after ?_
    exact Live.roll_rolled v _

theorem sendConfigs_rolled (t : Tables) (l : List Nat) : ∀ (n : Nat) (v : Live), v.Rolled (sendConfigs t n l v).2 := by
  induction l with
  | nil => intro n v; cases n <;> exact .refl v
  | cons i l ih =>
    intro n v
    cases n with
    | zero => exact .refl v
    | succ n =>
      rw [sendConfigs]
      split
      · next v' hv' => exact (ih n v').after (sendConfig_rolled hv')
      · exact ih _ v

theorem configScan_rolled (t : Tables) (v : Live) : v.Rolled (configScan t v) := by
  unfold configScan
  split
  · exact .refl v
  · exact (sendConfigs_rolled t _ _ _).after (sendConfigs_rolled t _ 4 v)

theorem endCycle_rolled (t : Tables) (c : Cycle) (f : RollResult) (r : Option RollResult) (v : Live) :
    v.Rolled (endCycle t c f r v) := by
  unfold endCycle
  refine (configScan_rolled _ _).after ?_
  exact Live.roll_rolled v _

theorem startReverse_rolled (t : Tables) (c : Cycle) (f : RollResult) (v : Live) :
    v.Rolled (startReverse t c f v) := by
  unfold startReverse
  dsimp only
  split
  · exact endCycle_rolled _ _ _ _ _
  · refine (sendRoll_rolled _ _ _ _).after ?_
    exact Live.roll_rolled v _

theorem rollOutcome_rolled (t : Tables) (o : RollResult) (v : Live) : v.Rolled (rollOutcome t o v) := by
  unfold rollOutcome
  split
  · exact .refl v
  · split
    · split
      · exact endCycle_rolled _ _ _ _ _
      · exact startReverse_rolled _ _ _ _
    · exact endCycle_rolled _ _ _ _ _

theorem beginCycle_rolled (t : Tables) (v : Live) : v.Rolled (beginCycle t v) := by
  unfold beginCycle
  dsimp only
  split
  · refine (startReverse_rolled _ _ _ _).after ?_
    exact Live.roll_rolled v _
  · refine (sendRoll_rolled _ _ _ _).after ?_
    exact Live.roll_rolled v _

theorem becomeActive_rolled (t : Tables) (v : Live) : v.Rolled (becomeActive t v) := by
  unfold becomeActive becomeHead
  refine (beginCycle_rolled _ _).after ?_
  exact ⟨_, _, _, _, _, _, _, rfl⟩

theorem takeoverCheck_rolled (t : Tables) (v : Live) : v.Rolled (takeoverCheck t v) := by
  unfold takeoverCheck
  split
  · refine (becomeActive_rolled _ _).after ?_
    exact Live.epoch_rolled v _
  · exact .refl v

theorem rollLost_rolled (t : Tables) (seq : Seq16) (rev : Bool) (v : Live) : v.Rolled (rollLost t seq rev v) := by
  unfold rollLost
  split
  · split
    · unfold rollTimedOut
      refine (rollOutcome_rolled _ _ _).after ?_
      exact Live.roll_rolled v _
    · exact .refl v
  · exact .refl v

/-! ## What the class is derived from (R75) -/

/-- The own class stands as the servo, the selection, the records and the estimate give it. -/
def Live.Classed (t : Tables) (v : Live) : Prop := v.ownClass = deriveClass t v

theorem Live.Rolled.classed {v w : Live} (h : v.Rolled w) {t : Tables} (hv : v.Classed t) : w.Classed t := by
  obtain ⟨_, _, _, _, _, _, _, rfl⟩ := h
  exact hv

theorem deriveClass_idle {v : Live} (h : v.servo.state = .freerun ∨ v.servo.state = .acquire) (t : Tables) :
    deriveClass t v = .q4 := by
  unfold deriveClass
  rcases h with h | h <;> rw [h]

theorem deriveClass_locked {v : Live} {c : Cand} (h : v.servo.state = .locked) (hc : v.selection = some c) (t : Tables) :
    deriveClass t v = (v.cands.get c).offered := by
  unfold deriveClass
  rw [h, hc]

theorem deriveClass_holdover {v : Live} (h : v.servo.state = .holdover) (t : Tables) : deriveClass t v =
    if v.hold.e / 1000 ≤ t.quality.limit1 then .q2 else if v.hold.e / 1000 ≤ t.quality.limit2 then .q3 else .q4 := by
  unfold deriveClass
  rw [h]
  rfl

/-! ## Entry to a state (R153, R157) -/

theorem withdrawOnEntry_access (c : AccessCfg) (i : Fin 4) (st : AccessState) (v : Live) :
    (withdrawOnEntry c i st v).access = v.access := by
  unfold withdrawOnEntry
  split
  · rfl
  · rfl
  · split <;> rfl
  · rfl

theorem enterAccess_access (c : AccessCfg) (i : Fin 4) (st : AccessState) (tm : Option Timer) (v : Live) :
    (enterAccess c i st tm v).access = v.access.set i { v.access.get i with state := st, timer := tm } :=
  withdrawOnEntry_access _ _ _ _

theorem enterAccess_get (c : AccessCfg) (i : Fin 4) (st : AccessState) (tm : Option Timer) (v : Live) :
    (enterAccess c i st tm v).access.get i = { v.access.get i with state := st, timer := tm } := by
  rw [enterAccess_access, Quad.get_set_same]

/-- What an access port's queue keeps as its port enters a state (R157). -/
def queueOnEntry (c : AccessCfg) (st : AccessState) (l : List QFrame) : List QFrame :=
  match st with
  | .off => []
  | .squelched => []
  | .degraded => if c.loss = .mark then l.filter (fun q => q.frame.body.kind != 1) else l
  | .deliver => l

theorem withdraw_port (p : Port) (f : QFrame → Bool) (v : Live) :
    (withdraw p f v).port p = { v.port p with queue := (v.port p).queue.filter (fun q => !f q) } :=
  Live.mapPort_port _ _ _

theorem withdrawOnEntry_port (c : AccessCfg) (i : Fin 4) (st : AccessState) (v : Live) :
    (withdrawOnEntry c i st v).port (.access i) =
      { v.port (.access i) with queue := queueOnEntry c st (v.port (.access i)).queue } := by
  have hall : ∀ l : List QFrame, l.filter (fun q => !(fun _ => true) q) = [] := fun l => by simp
  unfold withdrawOnEntry queueOnEntry
  cases st with
  | off => exact (withdraw_port _ _ _).trans (by rw [hall])
  | squelched => exact (withdraw_port _ _ _).trans (by rw [hall])
  | degraded =>
    dsimp only
    split
    · exact withdraw_port _ _ _
    · rfl
  | deliver => rfl

theorem enterAccess_port (c : AccessCfg) (i : Fin 4) (st : AccessState) (tm : Option Timer) (v : Live) :
    (enterAccess c i st tm v).port (.access i) =
      { v.port (.access i) with queue := queueOnEntry c st (v.port (.access i)).queue } :=
  withdrawOnEntry_port c i st _

/-- What the queue keeps on entry to the loss state, by the loss behaviour. -/
theorem queueOnEntry_loss (c : AccessCfg) (l : List QFrame) : queueOnEntry c (lossState c) l = match c.loss with
    | .squelch => []
    | .mark => l.filter (fun q => q.frame.body.kind != 1)
    | .continue => l := by
  unfold queueOnEntry lossState
  cases h : c.loss <;> simp

/-- The second blocks are the first but for the access ports' records and the ports. -/
def Live.Served (v w : Live) : Prop := ∃ (ac : Quad AccessPort) (io : Ports), w = { v with access := ac, io := io }

theorem Live.Served.refl (v : Live) : v.Served v := ⟨_, _, rfl⟩

theorem Live.Served.trans {u v w : Live} (h : u.Served v) (k : v.Served w) : u.Served w := by
  obtain ⟨_, _, rfl⟩ := h
  obtain ⟨_, _, rfl⟩ := k
  exact ⟨_, _, rfl⟩

theorem enterAccess_served (c : AccessCfg) (i : Fin 4) (st : AccessState) (tm : Option Timer) (v : Live) :
    v.Served (enterAccess c i st tm v) := by
  unfold enterAccess withdrawOnEntry
  split
  · exact ⟨_, _, rfl⟩
  · exact ⟨_, _, rfl⟩
  · split <;> exact ⟨_, _, rfl⟩
  · exact ⟨_, _, rfl⟩

/-! ## A change of class judged (R77, R153, R154) -/

theorem judgeAccess_served (t : Tables) (old new : QClass) (i : Fin 4) (v : Live) :
    v.Served (judgeAccess t old new i v) := by
  unfold judgeAccess
  dsimp only
  split
  · exact .refl v
  · split
    · exact enterAccess_served _ _ _ _ _
    · exact .refl v
  · split
    · exact ⟨_, _, rfl⟩
    · split
      · exact ⟨_, _, rfl⟩
      · split <;> exact ⟨_, _, rfl⟩

theorem judgeAccess_off {t : Tables} {i : Fin 4} {v : Live} (h : (v.access.get i).state = .off) (old new : QClass) :
    judgeAccess t old new i v = v := by
  unfold judgeAccess
  dsimp only
  rw [h]

theorem judgeAccess_within {t : Tables} {i : Fin 4} {v : Live} {new : QClass} (h : (v.access.get i).state = .deliver)
    (hn : new.num ≤ (t.port.access.get i).floor.num) (old : QClass) : judgeAccess t old new i v = v := by
  unfold judgeAccess
  dsimp only
  rw [h]
  exact if_neg (Nat.not_lt.mpr hn)

theorem judgeAccess_leaves {t : Tables} {i : Fin 4} {v : Live} {new : QClass} (h : (v.access.get i).state = .deliver)
    (hn : (t.port.access.get i).floor.num < new.num) (old : QClass) : judgeAccess t old new i v =
      enterAccess (t.port.access.get i) i (lossState (t.port.access.get i)) none v := by
  unfold judgeAccess
  dsimp only
  rw [h]
  exact if_pos hn

/-- The restore timer of a port out of DELIVER after a change of class (R154). -/
def restoreAfter (floor old new : QClass) (now : Stamp) (tm : Option Timer) : Option Timer :=
  if floor.num < new.num then none
  else if floor.num < old.num then some (Timer.start now)
  else if old.num < new.num ∧ tm.isSome then some (Timer.start now)
  else tm

theorem judgeAccess_lost {t : Tables} {i : Fin 4} {v : Live}
    (h : (v.access.get i).state = .degraded ∨ (v.access.get i).state = .squelched) (old new : QClass) :
    judgeAccess t old new i v = v.mapAccess i (fun a => { a with
      timer := restoreAfter (t.port.access.get i).floor old new v.now a.timer }) := by
  have hself : v.mapAccess i (fun a => { a with timer := (v.access.get i).timer }) = v := by
    have : v.access.set i (v.access.get i) = v.access := Quad.set_get _ _
    exact congrArg (fun q => { v with access := q }) this
  have hmap : ∀ tm, restoreAfter (t.port.access.get i).floor old new v.now (v.access.get i).timer = tm →
      v.mapAccess i (fun a => { a with timer := tm }) = v.mapAccess i (fun a => { a with
        timer := restoreAfter (t.port.access.get i).floor old new v.now a.timer }) := fun tm htm => by
    subst htm
    rfl
  have hbranches : judgeAccess t old new i v =
      if (t.port.access.get i).floor.num < new.num then v.mapAccess i (fun a => { a with timer := none })
      else if (t.port.access.get i).floor.num < old.num then
        v.mapAccess i (fun a => { a with timer := some (Timer.start v.now) })
      else if old.num < new.num ∧ (v.access.get i).timer.isSome = true then
        v.mapAccess i (fun a => { a with timer := some (Timer.start v.now) })
      else v := by
    unfold judgeAccess
    rcases h with h | h <;> (dsimp only; rw [h])
  rw [hbranches]
  split
  · next h1 => exact hmap none (if_pos h1)
  · next h1 =>
    split
    · next h2 => exact hmap _ ((if_neg h1).trans (if_pos h2))
    · next h2 =>
      split
      · next h3 => exact hmap _ ((if_neg h1).trans ((if_neg h2).trans (if_pos h3)))
      · next h3 => exact hself.symm.trans (hmap _ ((if_neg h1).trans ((if_neg h2).trans (if_neg h3))))

theorem judgeAccess_other {i j : Fin 4} (hj : j ≠ i) (t : Tables) (old new : QClass) (v : Live) :
    (judgeAccess t old new i v).access.get j = v.access.get j := by
  cases h : (v.access.get i).state with
  | off => rw [judgeAccess_off h]
  | deliver =>
    by_cases hn : new.num ≤ (t.port.access.get i).floor.num
    · rw [judgeAccess_within h hn]
    · rw [judgeAccess_leaves h (Nat.not_le.mp hn), enterAccess_access]
      exact Quad.get_set_other _ (Ne.symm hj) _
  | degraded =>
    rw [judgeAccess_lost (.inl h)]
    exact Quad.get_set_other _ (Ne.symm hj) _
  | squelched =>
    rw [judgeAccess_lost (.inr h)]
    exact Quad.get_set_other _ (Ne.symm hj) _

/-- One port's record after a change of class. -/
def AccessPort.judged (c : AccessCfg) (old new : QClass) (now : Stamp) (a : AccessPort) : AccessPort :=
  match a.state with
  | .off => a
  | .deliver => if c.floor.num < new.num then { a with state := lossState c, timer := none } else a
  | _ => { a with timer := restoreAfter c.floor old new now a.timer }

theorem mapAccess_get (v : Live) (i : Fin 4) (f : AccessPort → AccessPort) :
    (v.mapAccess i f).access.get i = f (v.access.get i) := Quad.get_set_same _ _ _

theorem judgeAccess_get (t : Tables) (old new : QClass) (i : Fin 4) (v : Live) :
    (judgeAccess t old new i v).access.get i =
      AccessPort.judged (t.port.access.get i) old new v.now (v.access.get i) := by
  unfold AccessPort.judged
  cases h : (v.access.get i).state with
  | off => rw [judgeAccess_off h]
  | deliver =>
    by_cases hn : new.num ≤ (t.port.access.get i).floor.num
    · rw [judgeAccess_within h hn]
      exact (if_neg (Nat.not_lt.mpr hn)).symm
    · rw [judgeAccess_leaves h (Nat.not_le.mp hn), enterAccess_get]
      exact (if_pos (Nat.not_le.mp hn)).symm
  | degraded =>
    rw [judgeAccess_lost (.inl h), mapAccess_get]
    dsimp only
    rw [h]
  | squelched =>
    rw [judgeAccess_lost (.inr h), mapAccess_get]
    dsimp only
    rw [h]

/-- Judging another port leaves a port's record and the instant. -/
theorem judgeAccess_leaves_judged {i j : Fin 4} (hj : j ≠ i) (t : Tables) (old new : QClass) (v : Live) :
    AccessPort.judged (t.port.access.get j) old new (judgeAccess t old new i v).now
      ((judgeAccess t old new i v).access.get j) =
    AccessPort.judged (t.port.access.get j) old new v.now (v.access.get j) := by
  obtain ⟨ac, io, hw⟩ := judgeAccess_served t old new i v
  have hnow : (judgeAccess t old new i v).now = v.now := by rw [hw]; rfl
  rw [judgeAccess_other hj, hnow]

theorem judgeAll_get (t : Tables) (old new : QClass) (i : Fin 4) (v : Live) :
    (judgeAll t old new v).access.get i =
      AccessPort.judged (t.port.access.get i) old new v.now (v.access.get i) := by
  unfold judgeAll
  match i with
  | 0 => rw [judgeAccess_other (by decide), judgeAccess_other (by decide), judgeAccess_other (by decide), judgeAccess_get]
  | 1 =>
    rw [judgeAccess_other (by decide), judgeAccess_other (by decide), judgeAccess_get,
      judgeAccess_leaves_judged (by decide)]
  | 2 =>
    rw [judgeAccess_other (by decide), judgeAccess_get, judgeAccess_leaves_judged (by decide),
      judgeAccess_leaves_judged (by decide)]
  | 3 =>
    rw [judgeAccess_get, judgeAccess_leaves_judged (by decide), judgeAccess_leaves_judged (by decide),
      judgeAccess_leaves_judged (by decide)]

theorem judgeAll_served (t : Tables) (old new : QClass) (v : Live) : v.Served (judgeAll t old new v) :=
  (((judgeAccess_served _ _ _ _ _).trans (judgeAccess_served _ _ _ _ _)).trans (judgeAccess_served _ _ _ _ _)).trans
    (judgeAccess_served _ _ _ _ _)

/-- A new own class leaves what it is derived from. -/
theorem setClass_class (t : Tables) (c : QClass) (v : Live) :
    (setClass t c v).ownClass = c ∧ deriveClass t (setClass t c v) = deriveClass t v ∧
      ∀ i, (setClass t c v).access.get i = AccessPort.judged (t.port.access.get i) v.ownClass c v.now (v.access.get i) := by
  obtain ⟨a, io, cy, l, r, hal⟩ := refreshAlarms_alarmed t (judgeAll t v.ownClass c { v with ownClass := c })
  obtain ⟨ac, io', hs⟩ := judgeAll_served t v.ownClass c { v with ownClass := c }
  have hget := fun i => judgeAll_get t v.ownClass c i { v with ownClass := c }
  unfold setClass
  rw [hal]
  refine ⟨?_, ?_, hget⟩
  · rw [hs]
  · rw [hs]
    rfl

/-! ## The class once what follows has followed -/

theorem settleSelection_classed (t : Tables) : ∀ (n : Nat) (v : Live), (settleSelection t (n + 1) v).Classed t := by
  have hset : ∀ u : Live, (setClass t (deriveClass t u) u).Classed t := fun u => by
    obtain ⟨hown, hderive, -⟩ := setClass_class t (deriveClass t u) u
    exact hown.trans hderive.symm
  intro n
  induction n with
  | zero =>
    intro v
    rw [settleSelection]
    split
    · next h => exact (refreshAlarms_alarmed _ _).rolled.classed (h.symm)
    · exact hset _
  | succ n ih =>
    intro v
    rw [settleSelection]
    split
    · next h => exact (refreshAlarms_alarmed _ _).rolled.classed (h.symm)
    · exact ih _

theorem settle_classed (t : Tables) (v : Live) : (settle t v).Classed t :=
  ((refreshAlarms_alarmed _ _).rolled.after (takeoverCheck_rolled _ _)).classed (settleSelection_classed t 3 v)

theorem finish_classed (t : Tables) (v : Live) : (finish t v).Classed t := by
  have hwork : ∀ n w, w.Classed t → (workLosses t n w).Classed t := by
    intro n
    induction n with
    | zero => exact fun _ h => h
    | succ n ih =>
      intro w h
      rw [workLosses]
      split
      · exact h
      · exact ih _ (settle_classed _ _)
  exact hwork _ _ (settle_classed t v)

/-! ## A port in DELIVER stays within its floor (R153) -/

/-- Every port in DELIVER has the own class within its floor. -/
def Live.WithinFloors (t : Tables) (v : Live) : Prop :=
  ∀ i, (v.access.get i).state = .deliver → v.ownClass.num ≤ (t.port.access.get i).floor.num

theorem Live.Rolled.withinFloors {v w : Live} (h : v.Rolled w) {t : Tables} (hv : v.WithinFloors t) :
    w.WithinFloors t := by
  obtain ⟨_, _, _, _, _, _, _, rfl⟩ := h
  exact hv

/-- The second blocks are the first but for what an evaluation of the selection can change. -/
def Live.Chosen (v w : Live) : Prop :=
  ∃ (ts : TimeScale) (sv : Servo) (cs : Trio CandRec) (m sel : Option Cand) (h : Hold),
    w = { v with ts := ts, servo := sv, cands := cs, manual := m, selection := sel, hold := h }

theorem Live.Chosen.trans {u v w : Live} (h : u.Chosen v) (k : v.Chosen w) : u.Chosen w := by
  obtain ⟨_, _, _, _, _, _, rfl⟩ := h
  obtain ⟨_, _, _, _, _, _, rfl⟩ := k
  exact ⟨_, _, _, _, _, _, rfl⟩

theorem Live.Chosen.refl (v : Live) : v.Chosen v := ⟨_, _, _, _, _, _, rfl⟩

theorem cancelManual_chosen (v : Live) : v.Chosen (cancelManual v) := by
  unfold cancelManual
  split
  · split <;> exact ⟨_, _, _, _, _, _, rfl⟩
  · exact .refl v

theorem leaveSelected_chosen (o : Option Cand) (v : Live) : v.Chosen (leaveSelected o v) := by
  cases o <;> exact ⟨_, _, _, _, _, _, rfl⟩

theorem enterSelected_chosen (o : Option Cand) (v : Live) : v.Chosen (enterSelected o v) := by
  cases o <;> exact ⟨_, _, _, _, _, _, rfl⟩

theorem handSelection_chosen (t : Tables) (o n : Option Cand) (v : Live) : v.Chosen (handSelection t o n v) := by
  unfold handSelection
  split
  · unfold enterAcquire
    dsimp only
    split <;> exact ⟨_, _, _, _, _, _, rfl⟩
  · unfold rearm
    split <;> exact ⟨_, _, _, _, _, _, rfl⟩
  · unfold loseSelection
    dsimp only
    split <;> exact ⟨_, _, _, _, _, _, rfl⟩
  · exact .refl v

theorem evaluate_chosen (t : Tables) (v : Live) : v.Chosen (evaluate t v) := by
  unfold evaluate
  dsimp only
  split
  · exact cancelManual_chosen v
  · exact (((cancelManual_chosen v).trans (leaveSelected_chosen _ _)).trans (enterSelected_chosen _ _)).trans
      (handSelection_chosen _ _ _ _)

theorem Live.Chosen.withinFloors {v w : Live} (h : v.Chosen w) {t : Tables} (hv : v.WithinFloors t) :
    w.WithinFloors t := by
  obtain ⟨_, _, _, _, _, _, rfl⟩ := h
  exact hv

theorem setClass_withinFloors (t : Tables) (c : QClass) (v : Live) : (setClass t c v).WithinFloors t := by
  obtain ⟨hown, -, hget⟩ := setClass_class t c v
  intro i hst
  rw [hget] at hst
  rw [hown]
  by_cases hn : c.num ≤ (t.port.access.get i).floor.num
  · exact hn
  · exfalso
    unfold AccessPort.judged at hst
    split at hst
    · next h => rw [h] at hst; cases hst
    · rw [if_pos (Nat.not_le.mp hn)] at hst
      dsimp only [lossState] at hst
      split at hst <;> cases hst
    · next hoff hdel => exact hdel hst

theorem enterDown_withinFloors (t : Tables) (d : Side) {v : Live} (h : v.WithinFloors t) :
    (enterDown t d v).WithinFloors t := by
  unfold enterDown
  split
  · exact h
  · refine (refreshAlarms_alarmed _ _).rolled.withinFloors ?_
    unfold setSpanState
    dsimp only
    split
    · unfold loseInput
      split <;> exact h
    · exact h

theorem takeLoss_withinFloors (t : Tables) (l : Loss) {v : Live} (h : v.WithinFloors t) :
    (takeLoss t l v).WithinFloors t := by
  cases l with
  | roll seq rev => exact (rollLost_rolled t seq rev v).withinFloors h
  | probe d =>
    show (probeTimeout t d v).WithinFloors t
    unfold probeTimeout
    dsimp only
    split
    · exact enterDown_withinFloors t d h
    · exact h

theorem finish_withinFloors (t : Tables) {v : Live} (h : v.WithinFloors t) : (finish t v).WithinFloors t :=
  finish_rule (P := fun w => w.WithinFloors t) (Q := fun w => w.WithinFloors t)
    (fun w hw => (evaluate_chosen t w).withinFloors hw) (fun c w _ => setClass_withinFloors t c w)
    (fun w hw => (refreshAlarms_alarmed t w).rolled.withinFloors hw)
    (fun w hw => (takeoverCheck_rolled t w).withinFloors hw) (fun l _ _ hw => takeLoss_withinFloors t l hw)
    (fun _ hw => hw) h

/-! ## Writes of a port's record (R156) -/

theorem applyMode_off {old new : AccessCfg} (hne : old.mode ≠ new.mode) (h : new.mode = .off) (i : Fin 4) (v : Live) :
    applyMode old new i v = enterAccess old i .off none v := by
  unfold applyMode
  rw [if_neg hne, if_pos h]

/-- The blocks before a port leaves OFF or changes its mode: EPOCH messages are withdrawn under PULSE. -/
theorem applyMode_on {old new : AccessCfg} (hne : old.mode ≠ new.mode) (h : new.mode ≠ .off) (i : Fin 4) (v : Live)
    {u : Live} (hu : u = if new.mode = .pulse then withdraw (.access i) isEpochFrame v else v) :
    applyMode old new i v = if old.mode = .off then enterAccess old i (lossState old)
      (if v.ownClass.num ≤ old.floor.num then some (Timer.start v.now) else none) u else u := by
  have hkeep : u.ownClass = v.ownClass ∧ u.now = v.now := by
    rw [hu]
    split <;> exact ⟨rfl, rfl⟩
  unfold applyMode
  rw [if_neg hne, if_neg h]
  dsimp only
  rw [← hu, hkeep.1, hkeep.2]
  simp only [decide_eq_true_eq]

theorem applyFloor_off {i : Fin 4} {v : Live} (h : (v.access.get i).state = .off) (old mid : AccessCfg) :
    applyFloor old mid i v = v := by
  unfold applyFloor
  dsimp only
  rw [h, ite_self]

theorem applyFloor_deliver {old mid : AccessCfg} {i : Fin 4} {v : Live} (hne : old.floor ≠ mid.floor)
    (h : (v.access.get i).state = .deliver) : applyFloor old mid i v =
      if mid.floor.num < v.ownClass.num then enterAccess mid i (lossState mid) none v else v := by
  unfold applyFloor
  dsimp only
  rw [if_neg hne, h]

theorem applyFloor_lost {old mid : AccessCfg} {i : Fin 4} {v : Live} (hne : old.floor ≠ mid.floor)
    (h : (v.access.get i).state = .degraded ∨ (v.access.get i).state = .squelched) : applyFloor old mid i v =
      if mid.floor.num < v.ownClass.num then v.mapAccess i (fun a => { a with timer := none })
      else if (v.access.get i).timer.isNone = true then
        v.mapAccess i (fun a => { a with timer := some (Timer.start v.now) })
      else v := by
  unfold applyFloor
  dsimp only
  rw [if_neg hne]
  rcases h with h | h <;> rw [h]

theorem applyLoss_stays {i : Fin 4} {v : Live} (h : (v.access.get i).state = .off ∨ (v.access.get i).state = .deliver)
    (old new : AccessCfg) : applyLoss old new i v = v := by
  unfold applyLoss
  dsimp only
  rcases h with h | h <;> rw [h, ite_self]

theorem applyLoss_lost {old new : AccessCfg} {i : Fin 4} {v : Live} (hne : old.loss ≠ new.loss)
    (h : (v.access.get i).state = .degraded ∨ (v.access.get i).state = .squelched) :
    applyLoss old new i v = enterAccess new i (lossState new) (v.access.get i).timer v := by
  unfold applyLoss
  dsimp only
  rw [if_neg hne]
  rcases h with h | h <;> rw [h]

/-! ## The statement -/

/-- Settles O27: the class after all that follows, the judgement of each access port, and the writes of its record. -/
theorem ownClassFollowsTheServo : Obligations.OwnClassFollowsTheServo := by
  unfold Obligations.OwnClassFollowsTheServo
  refine ⟨fun t v w hw => ?_, fun t new v w hw => ?_, fun t old new i v w cfg a b hw hcfg ha hb => ?_,
    fun old new i v w x y a b c d q r ha hq hr hw hb hx hc hy hd => ?_,
    fun t old new i v a b c d ha hb hc hd => ?_, fun t i v tm htm => ⟨fun hd => ?_, fun hd => ?_⟩,
    fun t n v u hu => ⟨fun h => deriveClass_idle h t, fun c h hc => deriveClass_locked h hc t,
      fun h => deriveClass_holdover h t, fun h => ?_, fun h => ?_⟩⟩
  · subst hw
    have hclass : (finish t v).ownClass = deriveClass t (finish t v) := finish_classed t v
    refine ⟨fun h => hclass.trans (deriveClass_idle h t), fun c h hc => hclass.trans (deriveClass_locked h hc t),
      fun h => ⟨fun h1 => ?_, fun h1 h2 => ?_, fun h1 h2 => ?_⟩, finish_withinFloors t⟩
    · exact hclass.trans ((deriveClass_holdover h t).trans (if_pos h1))
    · exact hclass.trans ((deriveClass_holdover h t).trans ((if_neg (Nat.not_le.mpr h1)).trans (if_pos h2)))
    · exact hclass.trans ((deriveClass_holdover h t).trans
        ((if_neg (Nat.not_le.mpr h1)).trans (if_neg (Nat.not_le.mpr h2))))
  · subst hw
    obtain ⟨hown, -, hget⟩ := setClass_class t new v
    exact ⟨hown, fun i => (hget i).trans (judgeAccess_get t v.ownClass new i v).symm⟩
  · subst hw hcfg ha hb
    refine ⟨fun j hj => judgeAccess_other hj t old new v, fun h => judgeAccess_off h old new,
      fun h hn => judgeAccess_within h hn old, fun h hn => ?_, fun h => ?_⟩
    · rw [judgeAccess_leaves h hn, enterAccess_get, enterAccess_port, queueOnEntry_loss]
      exact ⟨rfl, rfl⟩
    · rw [judgeAccess_lost h, mapAccess_get]
      refine ⟨rfl, rfl, fun hn => if_pos hn, fun hn ho => ?_, fun hn ho hworse htm => ?_, fun hn ho hno => ?_⟩
      · exact (if_neg (Nat.not_lt.mpr hn)).trans (if_pos ho)
      · exact (if_neg (Nat.not_lt.mpr hn)).trans ((if_neg (Nat.not_lt.mpr ho)).trans
          (if_pos ⟨hworse, Option.isSome_iff_ne_none.mpr htm⟩))
      · refine (if_neg (Nat.not_lt.mpr hn)).trans ((if_neg (Nat.not_lt.mpr ho)).trans (if_neg fun hboth => ?_))
        obtain ⟨hworse, htm⟩ := hboth
        rcases hno with hno | hno
        · omega
        · rw [hno] at htm
          cases htm
  · subst ha hq hr hw hb hx hc hy hd
    have hfilter : ∀ l : List QFrame, l.filter (fun q => !isEpochFrame q) = l.filter (fun f => f.frame.body.kind != 1) :=
      fun _ => rfl
    refine ⟨fun h => if_pos h, fun h => if_pos h, fun h => if_pos h, fun hne h => ?_, fun hold hnew => ?_,
      fun hold hnew hne => ?_, fun h => ⟨applyFloor_off h old new, applyLoss_stays (.inl h) old new⟩,
      fun h => applyLoss_stays (.inr h) old new, fun hne h => ⟨fun hn => ?_, fun hn => ?_⟩,
      fun hne h => ⟨fun hn => ?_, fun hn htm => ?_, fun hn htm => ?_⟩, fun hne h => ?_⟩
    · rw [applyMode_off hne h, enterAccess_get, enterAccess_port]
      exact ⟨rfl, rfl⟩
    · rw [applyMode_on (fun h => hnew (h.symm.trans hold)) hnew i v rfl, if_pos hold, enterAccess_get]
      split <;> rfl
    · rw [applyMode_on hne hnew i v rfl, if_neg hold]
      split
      · exact ⟨rfl, (congrArg PortIO.queue (withdraw_port _ _ _)).trans (hfilter _)⟩
      · exact ⟨rfl, rfl⟩
    · rw [applyFloor_deliver hne h, if_neg (Nat.not_lt.mpr hn)]
    · rw [applyFloor_deliver hne h, if_pos hn, enterAccess_get]
      rfl
    · rw [applyFloor_lost hne h, if_pos hn, mapAccess_get]
    · rw [applyFloor_lost hne h, if_neg (Nat.not_lt.mpr hn), if_pos (by rw [htm]; rfl), mapAccess_get]
      rfl
    · rw [applyFloor_lost hne h, if_neg (Nat.not_lt.mpr hn),
        if_neg fun hnone => htm (Option.isNone_iff_eq_none.mp hnone)]
    · rw [applyLoss_lost hne h, enterAccess_get, enterAccess_port, queueOnEntry_loss]
      exact ⟨rfl, rfl⟩
  · subst hd hc hb ha
    rfl
  · have hnot : restoreReached t i v = false := by
      unfold restoreReached
      rw [htm]
      exact decide_eq_false (Int.not_le.mpr hd)
    exact if_neg (by rw [hnot]; decide)
  · have hyes : restoreReached t i v = true := by
      unfold restoreReached
      rw [htm]
      exact decide_eq_true hd
    exact restoreCheck_reached hyes
  · subst hu
    rw [settleSelection]
    exact if_pos h
  · subst hu
    rw [settleSelection]
    exact if_neg h

end Sys2Proof.Machine
end

section
/-! The wire forms: bytes written and read back, field by field, and the round trip of a well-formed frame (sections
12.1 and 12.2, R192, R193). -/

namespace Sys2Proof.Machine

/-! ## Bytes, most significant first -/

theorem foldl_bytes (l : List Byte) : ∀ n : Nat, l.foldl (fun a b => a * 256 + b.toNat) n =
    n * 256 ^ l.length + l.foldl (fun a b => a * 256 + b.toNat) 0 := by
  induction l with
  | nil => intro n; simp
  | cons b l ih =>
    intro n
    rw [List.foldl_cons, List.foldl_cons, ih (n * 256 + b.toNat), ih (0 * 256 + b.toNat), List.length_cons, Nat.pow_succ]
    ring

theorem beNat_cons (b : Byte) (l : List Byte) : beNat (b :: l) = b.toNat * 256 ^ l.length + beNat l := by
  unfold beNat
  rw [List.foldl_cons, foldl_bytes, Nat.zero_mul, Nat.zero_add]

theorem beNat_beBytes : ∀ k n : Nat, beNat (beBytes k n) = n % 256 ^ k
  | 0, n => by simp [beBytes, beNat, Nat.mod_one]
  | k + 1, n => by
    have hmod : n % 256 ^ (k + 1) = n % 256 ^ k + 256 ^ k * (n / 256 ^ k % 256) := by
      rw [Nat.pow_succ, Nat.mod_mul]
    rw [beBytes, beNat_cons, beNat_beBytes k n, beBytes_length, BitVec.toNat_ofNat, hmod]
    ring

theorem beNat_lt (l : List Byte) : beNat l < 256 ^ l.length := by
  induction l with
  | nil => exact Nat.one_pos
  | cons b l ih =>
    have hb : b.toNat < 256 := b.isLt
    rw [beNat_cons, List.length_cons, Nat.pow_succ]
    calc b.toNat * 256 ^ l.length + beNat l < b.toNat * 256 ^ l.length + 256 ^ l.length := by omega
      _ = (b.toNat + 1) * 256 ^ l.length := by ring
      _ ≤ 256 * 256 ^ l.length := Nat.mul_le_mul_right _ hb
      _ = 256 ^ l.length * 256 := Nat.mul_comm _ _

/-! ## Fields of a payload -/

/-- A field beyond a written run of bytes. -/
@[simp] theorem field_beyond {k off n x : Nat} (h : k ≤ off) (l : List Byte) :
    field off n (beBytes k x ++ l) = field (off - k) n l := by
  unfold field
  rw [List.drop_append, List.drop_eq_nil_of_le (by rw [beBytes_length]; exact h), List.nil_append, beBytes_length]

/-- The field at the front of written bytes. -/
@[simp] theorem field_front (n x : Nat) (l : List Byte) : field 0 n (beBytes n x ++ l) = x % 256 ^ n := by
  unfold field
  rw [List.drop_zero, List.take_left' (beBytes_length n x), beNat_beBytes]

@[simp] theorem field_last (n x : Nat) : field 0 n (beBytes n x) = x % 256 ^ n := by
  have h := field_front n x []
  rwa [List.append_nil] at h

@[simp] theorem drop_beyond {k n x : Nat} (h : k ≤ n) (l : List Byte) :
    (beBytes k x ++ l).drop n = l.drop (n - k) := by
  rw [List.drop_append, List.drop_eq_nil_of_le (by rw [beBytes_length]; exact h), List.nil_append, beBytes_length]

theorem field_lt (off n : Nat) (l : List Byte) : field off n l < 256 ^ n := by
  unfold field
  refine Nat.lt_of_lt_of_le (beNat_lt _) (Nat.pow_le_pow_right (by decide) ?_)
  exact List.length_take_le _ _

/-- A word is read back from its bytes. -/
@[simp] theorem ofNat_toNat_mod {w m : Nat} (x : BitVec w) (hm : m = 2 ^ w) : BitVec.ofNat w (x.toNat % m) = x := by
  rw [hm, Nat.mod_eq_of_lt x.isLt, BitVec.ofNat_toNat, BitVec.setWidth_eq]

/-! ## Signed numbers -/

/-- The two's complement bytes of a number that fits them are read back. -/
theorem beInt_beBytesInt {k : Nat} {x : Int} (hlo : -(256 ^ k : Nat) ≤ 2 * x) (hhi : 2 * x < (256 ^ k : Nat)) :
    beInt (beBytesInt k x) = x := by
  have hpos : 0 < 256 ^ k := Nat.pow_pos (by decide)
  generalize hm : 256 ^ k = m at *
  have hmod : ((x % (m : Int)).toNat : Int) = x % (m : Int) := Int.toNat_of_nonneg (Int.emod_nonneg _ (by omega))
  have hread : beNat (beBytesInt k x) = (x % (m : Int)).toNat := by
    unfold beBytesInt
    rw [hm, beNat_beBytes, hm]
    refine Nat.mod_eq_of_lt ?_
    have := Int.emod_lt_of_pos x (show (0 : Int) < m by omega)
    omega
  have hlen : 256 ^ (beBytesInt k x).length = m := by
    unfold beBytesInt
    rw [beBytes_length, hm]
  unfold beInt
  dsimp only
  rw [hread, hlen]
  rcases Int.lt_or_le x 0 with hneg | hnn
  · have hx : x % (m : Int) = x + m := by
      rw [← Int.add_emod_right]
      exact Int.emod_eq_of_lt (by omega) (by omega)
    rw [if_neg (by omega), hmod, hx]
    omega
  · have hx : x % (m : Int) = x := Int.emod_eq_of_lt hnn (by omega)
    rw [if_pos (by omega), hmod, hx]

/-! ## Codes -/

theorem servoState_ofCode (x : ServoState) : ServoState.ofCode x.code = some x := by cases x <;> rfl

theorem servoState_code_lt (x : ServoState) : x.code < 256 := by cases x <;> decide

theorem ringStatus_ofCode (x : RingStatus) : RingStatus.ofCode x.code = some x := by cases x <;> rfl

theorem ringStatus_code_lt (x : RingStatus) : x.code < 256 := by cases x <;> decide

theorem status_ofCode (x : Status) : Status.ofCode x.code = some x := by cases x <;> rfl

theorem status_code_lt (x : Status) : x.code < 256 := by cases x <;> decide

theorem classOfCode_num (x : QClass) : classOfCode x.num = some x := by cases x <;> rfl

theorem class_num_lt (x : QClass) : x.num < 256 := by cases x <;> decide

theorem sevOfFrameCode_code (x : Severity) : sevOfFrameCode (sevFrameCode x) = some x := by cases x <;> rfl

theorem sevFrameCode_lt (x : Severity) : sevFrameCode x < 256 := by cases x <;> decide

theorem sideOfCode_code (x : Side) : sideOfCode (sideCode x) = some x := by cases x <;> rfl

theorem sideCode_lt (x : Side) : sideCode x < 256 := by cases x <;> decide

/-! ## Times and slots -/

@[simp] theorem encodeTime_length (t : NsTime) : (encodeTime t).length = 10 := by simp [encodeTime]

theorem parseTime_encode {t : NsTime} (h : t.wf = true) (l : List Byte) : parseTime (encodeTime t ++ l) = some t := by
  simp only [NsTime.wf, Bool.and_eq_true, decide_eq_true_eq] at h
  obtain ⟨hsec, hns⟩ := h
  have h1 : field 0 6 (encodeTime t ++ l) = t.sec := by
    rw [encodeTime, List.append_assoc, field_front]
    exact Nat.mod_eq_of_lt (by omega)
  have h2 : field 6 4 (encodeTime t ++ l) = t.ns := by
    rw [encodeTime, List.append_assoc, field_beyond (Nat.le_refl 6), field_front]
    exact Nat.mod_eq_of_lt (by omega)
  unfold parseTime
  rw [h1, h2]
  exact if_pos ⟨hsec, hns⟩

theorem slotFlags_lt (s : Slot) : slotFlags s < 256 := by
  unfold slotFlags boolNat
  split <;> split <;> split <;> split <;> omega

/-- The flags byte of a filled slot, bit by bit. -/
theorem slotFlags_bits (s : Slot) : (slotFlags s).testBit 0 = true ∧ (slotFlags s).testBit 1 = s.stale ∧
    (slotFlags s).testBit 2 = s.mismatch ∧ (slotFlags s).testBit 3 = s.duplicate ∧
    (slotFlags s).testBit 4 = s.carried := by
  unfold slotFlags
  cases s.stale <;> cases s.mismatch <;> cases s.duplicate <;> cases s.carried <;> decide

@[simp] theorem encodeSlot_length (s : Option Slot) : (encodeSlot s).length = 14 := by
  cases s with
  | none => rfl
  | some s => simp [encodeSlot, byte]

theorem parseSlot_encode {s : Option Slot} (h : slotWf s = true) : parseSlot (encodeSlot s) = some s := by
  cases s with
  | none => rfl
  | some s =>
    have hwf : s.wf = true := h
    simp only [Slot.wf, Bool.and_eq_true, decide_eq_true_eq] at hwf
    obtain ⟨hsum, hgen⟩ := hwf
    obtain ⟨h0, h1, h2, h3, h4⟩ := slotFlags_bits s
    have hflags : field 7 1 (encodeSlot (some s)) = slotFlags s := by
      simp [encodeSlot, byte, Nat.mod_eq_of_lt (slotFlags_lt s)]
    have hservo : field 2 1 (encodeSlot (some s)) = s.servo.code := by
      simp [encodeSlot, byte, Nat.mod_eq_of_lt (servoState_code_lt s.servo)]
    have hcls : field 3 1 (encodeSlot (some s)) = s.cls.num := by
      simp [encodeSlot, byte, Nat.mod_eq_of_lt (class_num_lt s.cls)]
    have hsummary : field 4 1 (encodeSlot (some s)) = s.summary := by
      simp [encodeSlot, byte, Nat.mod_eq_of_lt (show s.summary < 256 by omega)]
    have hgeneration : field 5 2 (encodeSlot (some s)) = s.gen := by
      simp [encodeSlot, byte, Nat.mod_eq_of_lt hgen]
    have hseq : BitVec.ofNat 16 (field 0 2 (encodeSlot (some s))) = s.fillSeq := by
      simp [encodeSlot, byte]
    have hserial : BitVec.ofNat 48 (field 8 6 (encodeSlot (some s))) = s.serial := by
      simp [encodeSlot, byte]
    unfold parseSlot
    rw [hflags, hservo, hcls, hsummary, hgeneration, hseq, hserial, servoState_ofCode, classOfCode_num]
    dsimp only
    rw [if_pos h0, if_pos hsum, h1, h2, h3, h4]

theorem parseSlots_encode : ∀ {l : List (Option Slot)}, l.all slotWf = true →
    parseSlots l.length (encodeSlots l) = some l
  | [], _ => rfl
  | s :: l, h => by
    rw [List.all_cons, Bool.and_eq_true] at h
    obtain ⟨hs, hl⟩ := h
    rw [encodeSlots, List.length_cons, parseSlots, List.take_left' (encodeSlot_length s),
      List.drop_left' (encodeSlot_length s), parseSlot_encode hs, parseSlots_encode hl]

@[simp] theorem encodeSlots_length : ∀ l : List (Option Slot), (encodeSlots l).length = 14 * l.length
  | [] => rfl
  | s :: l => by
    rw [encodeSlots, List.length_append, encodeSlot_length, encodeSlots_length l, List.length_cons]
    omega

/-! ## Entries and relay fields -/

theorem encodeEntry_length (e : Entry) : (encodeEntry e).length = 4 + e.value.length := by
  simp [encodeEntry]
  omega

theorem parseEntries_nil : ∀ fuel, parseEntries fuel [] = some []
  | 0 => rfl
  | _ + 1 => rfl

/-- Entries written are read back, with fuel for each of them. -/
theorem parseEntries_encode : ∀ {l : List Entry} {fuel : Nat}, l.all Entry.wf = true → l.length ≤ fuel →
    parseEntries fuel (encodeEntries l) = some l
  | [], fuel, _, _ => parseEntries_nil fuel
  | e :: l, 0, _, hf => absurd hf (by simp)
  | e :: l, fuel + 1, h, hf => by
    rw [List.all_cons, Bool.and_eq_true] at h
    obtain ⟨he, hl⟩ := h
    simp only [Entry.wf, Bool.and_eq_true, decide_eq_true_eq] at he
    obtain ⟨hi, hv⟩ := he
    have hbytes : encodeEntries (e :: l) =
        beBytes 2 e.index ++ (beBytes 2 e.value.length ++ (e.value ++ encodeEntries l)) := by
      simp [encodeEntries, encodeEntry]
    have hindex : field 0 2 (encodeEntries (e :: l)) = e.index := by
      rw [hbytes]; simp [Nat.mod_eq_of_lt hi]
    have hlength : field 2 2 (encodeEntries (e :: l)) = e.value.length := by
      rw [hbytes]; simp [Nat.mod_eq_of_lt hv]
    have hvalue : ((encodeEntries (e :: l)).drop 4).take e.value.length = e.value := by
      rw [hbytes]; simp
    have hrest : (encodeEntries (e :: l)).drop (4 + e.value.length) = encodeEntries l := by
      rw [← List.drop_drop, hbytes]; simp
    have hfits : ¬ (encodeEntries (e :: l)).length < 4 + e.value.length := by
      rw [hbytes]; simp; omega
    have hne : ∃ b t, encodeEntries (e :: l) = b :: t := by
      cases hl : encodeEntries (e :: l) with
      | nil => rw [hl] at hfits; simp at hfits
      | cons b t => exact ⟨b, t, rfl⟩
    obtain ⟨b, t, hbt⟩ := hne
    rw [hbt] at hindex hlength hvalue hrest hfits ⊢
    rw [parseEntries]
    rw [hlength, if_neg hfits, hrest, parseEntries_encode hl (by simpa using hf), hindex, hvalue]

/-- There are no more entries than bytes. -/
theorem entries_le_bytes : ∀ l : List Entry, l.length ≤ (encodeEntries l).length
  | [] => Nat.le_refl 0
  | e :: l => by
    have := entries_le_bytes l
    rw [encodeEntries, List.length_append, encodeEntry_length, List.length_cons]
    omega

theorem encodeRelay_length (r : Option RelayFields) : 1 ≤ (encodeRelay r).length := by
  cases r <;> simp [encodeRelay, byte]

theorem parseRelay_encode {r : Option RelayFields} (h : relayWf r = true) (l : List Byte) :
    parseRelay (encodeRelay r ++ l) = some (r, l) := by
  cases r with
  | none => simp [parseRelay, encodeRelay, byte]
  | some r =>
    have hwf : r.wf = true := h
    simp only [RelayFields.wf, Bool.and_eq_true, decide_eq_true_eq] at hwf
    obtain ⟨hh, hr⟩ := hwf
    simp [parseRelay, encodeRelay, byte, Nat.mod_eq_of_lt hh, Nat.mod_eq_of_lt (sideCode_lt r.port), sideOfCode_code,
      Nat.mod_eq_of_lt (show r.requester < 256 by omega), hr]
    omega

/-! ## Bodies -/

theorem parseEpoch_encode {b : EpochBody} (h : b.wf = true) : parseEpoch (encodeBody (.epoch b)) = some b := by
  simp only [EpochBody.wf, Bool.and_eq_true, decide_eq_true_eq] at h
  obtain ⟨⟨⟨ht, hlo⟩, hhi⟩, hr⟩ := h
  have hbytes : encodeBody (.epoch b) =
      encodeTime b.time ++ (beBytesInt 8 b.corr ++ (beBytes 1 b.cls.num ++ beBytes 1 b.rank)) := by
    simp [encodeBody, byte]
  have hcls : field 18 1 (encodeBody (.epoch b)) = b.cls.num := by
    rw [hbytes]; simp [encodeTime, beBytesInt, Nat.mod_eq_of_lt (class_num_lt b.cls)]
  have hrank : field 19 1 (encodeBody (.epoch b)) = b.rank := by
    rw [hbytes]; simp [encodeTime, beBytesInt, Nat.mod_eq_of_lt (show b.rank < 256 by omega)]
  have hcorr : beInt (((encodeBody (.epoch b)).drop 10).take 8) = b.corr := by
    rw [hbytes, List.drop_left' (encodeTime_length _), List.take_left' (by simp [beBytesInt])]
    exact beInt_beBytesInt (by omega) (by omega)
  have hlen : (encodeBody (.epoch b)).length = 20 := by
    rw [hbytes]; simp [beBytesInt]
  unfold parseEpoch
  rw [if_pos hlen, hcls, hrank, hcorr, classOfCode_num, hbytes, parseTime_encode ht]
  exact if_pos hr

theorem parseReply_encode {seq : Seq16} {t2 t3 : NsTime} (h2 : t2.wf = true) (h3 : t3.wf = true) :
    parseReply (encodeBody (.reply seq t2 t3)) = some (.reply seq t2 t3) := by
  have hbytes : encodeBody (.reply seq t2 t3) = beBytes 2 seq.toNat ++ (encodeTime t2 ++ encodeTime t3) := by
    simp [encodeBody]
  have hseq : BitVec.ofNat 16 (field 0 2 (encodeBody (.reply seq t2 t3))) = seq := by
    rw [hbytes]; simp
  have hfirst : ((encodeBody (.reply seq t2 t3)).drop 2).take 10 = encodeTime t2 ++ [] := by
    rw [hbytes, List.drop_left' (beBytes_length _ _), List.take_left' (encodeTime_length _), List.append_nil]
  have hsecond : ((encodeBody (.reply seq t2 t3)).drop 12).take 10 = encodeTime t3 ++ [] := by
    rw [show 12 = 2 + 10 from rfl, ← List.drop_drop, hbytes, List.drop_left' (beBytes_length _ _),
      List.drop_left' (encodeTime_length _), List.take_of_length_le (by simp), List.append_nil]
  have hlen : (encodeBody (.reply seq t2 t3)).length = 22 := by
    rw [hbytes]; simp
  unfold parseReply
  rw [if_pos hlen, hfirst, hsecond, parseTime_encode h2, parseTime_encode h3, hseq]

/-- The bytes of a ROLL before its slots. -/
theorem encodeRoll_bytes (b : RollBody) : encodeBody (.roll b) =
    beBytes 1 b.rank ++ (beBytes 2 b.seq.toNat ++ (beBytes 1 b.status.code ++ ((match b.loopId with
        | none => []
        | some i => beBytes 1 i) ++
      (beBytes 2 b.headGen ++ (beBytes 4 b.silent.toNat ++ (beBytes 4 b.mismatch.toNat ++
        (beBytes 4 b.pending.toNat ++ encodeSlots b.slots))))))) := by
  cases h : b.loopId <;> simp [encodeBody, byte, h]

theorem parseRoll_encode {looped : Bool} {b : RollBody} (h : b.wf looped = true) :
    parseRoll looped (encodeBody (.roll b)) = some b := by
  simp only [RollBody.wf, Bool.and_eq_true, decide_eq_true_eq] at h
  obtain ⟨⟨⟨⟨hrank, hgen⟩, hlen⟩, hslots⟩, hloop⟩ := h
  have hread := parseSlots_encode hslots
  rw [hlen] at hread
  obtain ⟨rank, seq, status, loopId, headGen, silent, mismatch, pending, slots⟩ := b
  dsimp only at *
  have hbytes := encodeRoll_bytes ⟨rank, seq, status, loopId, headGen, silent, mismatch, pending, slots⟩
  dsimp only at hbytes
  unfold parseRoll
  rw [hbytes]
  cases loopId with
  | none =>
    have hl : looped = false := by simpa using hloop
    subst hl
    simp [hlen, hread, Nat.mod_eq_of_lt (ringStatus_code_lt status), ringStatus_ofCode, Nat.mod_eq_of_lt hgen,
      Nat.mod_eq_of_lt (show rank < 256 by omega), hrank]
  | some i =>
    simp only [Bool.and_eq_true, decide_eq_true_eq] at hloop
    obtain ⟨hl, hi⟩ := hloop
    subst hl
    simp [hlen, hread, Nat.mod_eq_of_lt (ringStatus_code_lt status), ringStatus_ofCode, Nat.mod_eq_of_lt hgen,
      Nat.mod_eq_of_lt (show rank < 256 by omega), hrank, Nat.mod_eq_of_lt (show i < 256 by omega), hi]

end Sys2Proof.Machine
end

section
/-! The bodies of CONFIG and of the management frames, the header, the round trip of a whole frame, and that every frame
read is well formed (sections 12.1 and 12.2, R192, R193). -/

namespace Sys2Proof.Machine

/-! ## The RING table in a CONFIG -/

/-- The ranges of a RING table that a CONFIG carries, one by one. -/
theorem ringInRange_bounds {r : RingTable} (h : ringInRange r = true) : r.gen < 65536 ∧ r.rate < 256 ∧
    r.interval < 65536 ∧ r.timeout < 65536 ∧ r.primary ≤ 31 ∧ (∀ i, r.standby = some i → i ≤ 31) ∧ r.takeover < 256 ∧
    r.revert < 65536 ∧ r.members.length ≤ 32 ∧ ∀ i ∈ r.members, i ≤ 31 := by
  unfold ringInRange at h
  simp only [Bool.and_eq_true, decide_eq_true_eq, List.all_eq_true] at h
  obtain ⟨⟨⟨⟨⟨⟨⟨⟨⟨⟨⟨⟨⟨⟨⟨⟨hgen, hrate⟩, -⟩, hint⟩, -⟩, htm⟩, hprim⟩, hstand⟩, -⟩, htake⟩, -⟩, hrev⟩, -⟩, hlen⟩, hall⟩, -⟩, -⟩ :=
    h
  have hrate' : r.rate ≤ 16 := by
    simp only [List.mem_cons, List.not_mem_nil, or_false] at hrate
    omega
  refine ⟨by omega, by omega, by omega, by omega, hprim, fun i hi => ?_, by omega, by omega, hlen, hall⟩
  rw [hi] at hstand
  exact of_decide_eq_true hstand

/-- One byte for each id, read back. -/
theorem idBytes_read : ∀ {l : List Nat}, (∀ i ∈ l, i ≤ 31) → (l.flatMap byte).map (fun b => b.toNat) = l
  | [], _ => rfl
  | i :: l, h => by
    have hi : i ≤ 31 := h i List.mem_cons_self
    have hrest := idBytes_read fun j hj => h j (List.mem_cons_of_mem _ hj)
    rw [List.flatMap_cons, List.map_append, hrest]
    simp [byte, beBytes, Nat.mod_eq_of_lt (show i < 256 by omega)]

@[simp] theorem idBytes_length : ∀ l : List Nat, (l.flatMap byte).length = l.length
  | [] => rfl
  | i :: l => by
    rw [List.flatMap_cons, List.length_append, idBytes_length l, byte, beBytes_length, List.length_cons]
    omega

theorem parseConfig_encode {b : ConfigBody} {target : Nat} (h : b.wf target = true) :
    parseConfig target (encodeBody (.config b)) = some b := by
  simp only [ConfigBody.wf, Bool.and_eq_true, decide_eq_true_eq] at h
  obtain ⟨⟨htarget, hid⟩, hring⟩ := h
  obtain ⟨hgen, hrate, hint, htm, hprim, hstand, htake, hrev, hlen, hall⟩ := ringInRange_bounds hring
  have hstandby : b.ring.standby.getD 255 < 256 := by
    cases hs : b.ring.standby with
    | none => decide
    | some i =>
      have := hstand i hs
      rw [Option.getD_some]
      omega
  have hread : (if b.ring.standby.getD 255 = 255 then none else some (b.ring.standby.getD 255)) = b.ring.standby := by
    cases hs : b.ring.standby with
    | none => rfl
    | some i =>
      have := hstand i hs
      rw [Option.getD_some, if_neg (by omega)]
  have hmembers := idBytes_read hall
  obtain ⟨tgt, ring⟩ := b
  dsimp only at *
  subst htarget
  simp [parseConfig, encodeBody, byte, Nat.mod_eq_of_lt hgen, Nat.mod_eq_of_lt hrate, Nat.mod_eq_of_lt hint,
    Nat.mod_eq_of_lt htm, Nat.mod_eq_of_lt (show ring.primary < 256 by omega), Nat.mod_eq_of_lt hstandby,
    Nat.mod_eq_of_lt htake, Nat.mod_eq_of_lt hrev, Nat.mod_eq_of_lt (show ring.members.length < 256 by omega),
    Nat.mod_eq_of_lt (show tgt < 256 by omega)]
  rw [hread, hmembers]
  exact ⟨by omega, ⟨hid, hring⟩, rfl⟩

/-! ## The management frames -/

theorem requestCoded_lt {op code : Nat} (h : requestCoded op code = true) : op < 256 := by
  unfold requestCoded at h
  simp only [Bool.or_eq_true, Bool.and_eq_true, decide_eq_true_eq] at h
  omega

theorem parseRequest_encode {b : ReqBody} (h : b.wf = true) : parseRequest (encodeBody (.request b)) = some b := by
  simp only [ReqBody.wf, Bool.and_eq_true, decide_eq_true_eq] at h
  obtain ⟨⟨⟨⟨⟨hrelay, hcoded⟩, hcode⟩, hfirst⟩, hcount⟩, hentries⟩ := h
  have hop := requestCoded_lt hcoded
  obtain ⟨t, ht⟩ : ∃ t, t = beBytes 1 b.op ++ (beBytes 1 b.code ++ (beBytes 2 b.first ++ (beBytes 2 b.count ++
      encodeEntries b.entries))) := ⟨_, rfl⟩
  have hbytes : encodeBody (.request b) = beBytes 2 b.tag.toNat ++ (encodeRelay b.relay ++ t) := by
    rw [ht]; simp [encodeBody, byte]
  have htag : BitVec.ofNat 16 (field 0 2 (encodeBody (.request b))) = b.tag := by rw [hbytes]; simp
  have hdrop : (encodeBody (.request b)).drop 2 = encodeRelay b.relay ++ t := by
    rw [hbytes, List.drop_left' (beBytes_length _ _)]
  have hlen : ¬ (encodeBody (.request b)).length < 3 := by
    have := encodeRelay_length b.relay
    rw [hbytes, List.length_append, List.length_append, beBytes_length]
    omega
  have h0 : field 0 1 t = b.op := by rw [ht]; simp [Nat.mod_eq_of_lt hop]
  have h1 : field 1 1 t = b.code := by rw [ht]; simp [Nat.mod_eq_of_lt hcode]
  have h2 : field 2 2 t = b.first := by rw [ht]; simp [Nat.mod_eq_of_lt hfirst]
  have h4 : field 4 2 t = b.count := by rw [ht]; simp [Nat.mod_eq_of_lt hcount]
  have hrest : t.drop 6 = encodeEntries b.entries := by rw [ht]; simp
  have htlen : t.length = 6 + (encodeEntries b.entries).length := by rw [ht]; simp; omega
  have hgood : ¬ (t.length < 6 ∨ requestCoded b.op b.code = false) := by
    rw [htlen, hcoded]
    simp
  have hread := parseEntries_encode (fuel := t.length) hentries
    (by have := entries_le_bytes b.entries; omega)
  unfold parseRequest
  rw [if_neg hlen, hdrop, parseRelay_encode hrelay]
  dsimp only
  rw [h0, h1, h2, h4, if_neg hgood, hrest, hread, htag]

theorem parseResponse_encode {b : RespBody} (h : b.wf = true) : parseResponse (encodeBody (.response b)) = some b := by
  simp only [RespBody.wf, Bool.and_eq_true, decide_eq_true_eq] at h
  obtain ⟨⟨hrelay, hcount⟩, hentries⟩ := h
  obtain ⟨t, ht⟩ : ∃ t, t = beBytes 1 b.status.code ++ (beBytes 2 b.count ++ encodeEntries b.entries) := ⟨_, rfl⟩
  have hbytes : encodeBody (.response b) = beBytes 2 b.tag.toNat ++ (encodeRelay b.relay ++ t) := by
    rw [ht]; simp [encodeBody, byte]
  have htag : BitVec.ofNat 16 (field 0 2 (encodeBody (.response b))) = b.tag := by rw [hbytes]; simp
  have hdrop : (encodeBody (.response b)).drop 2 = encodeRelay b.relay ++ t := by
    rw [hbytes, List.drop_left' (beBytes_length _ _)]
  have hlen : ¬ (encodeBody (.response b)).length < 3 := by
    have := encodeRelay_length b.relay
    rw [hbytes, List.length_append, List.length_append, beBytes_length]
    omega
  have h0 : field 0 1 t = b.status.code := by rw [ht]; simp [Nat.mod_eq_of_lt (status_code_lt b.status)]
  have h1 : field 1 2 t = b.count := by rw [ht]; simp [Nat.mod_eq_of_lt hcount]
  have hrest : t.drop 3 = encodeEntries b.entries := by rw [ht]; simp
  have htlen : t.length = 3 + (encodeEntries b.entries).length := by rw [ht]; simp; omega
  have hread := parseEntries_encode (fuel := t.length) hentries
    (by have := entries_le_bytes b.entries; omega)
  unfold parseResponse
  rw [if_neg hlen, hdrop, parseRelay_encode hrelay]
  dsimp only
  rw [if_neg (by omega), h0, h1, hrest, hread, htag, status_ofCode]

theorem parseNotice_encode {b : NoticeBody} (h : b.wf = true) : parseNotice (encodeBody (.notice b)) = some b := by
  simp only [NoticeBody.wf, Bool.and_eq_true, decide_eq_true_eq] at h
  obtain ⟨⟨⟨hnode, hkind⟩, hinst⟩, htime⟩ := h
  obtain ⟨node, ⟨kind, inst, cleared, severity, time⟩⟩ := b
  dsimp only at *
  have hflag : boolNat cleared % 256 = boolNat cleared ∧ boolNat cleared ≤ 1 ∧ (boolNat cleared == 1) = cleared := by
    cases cleared <;> decide
  simp [parseNotice, encodeBody, byte, Nat.mod_eq_of_lt (show node < 256 by omega),
    Nat.mod_eq_of_lt (show kind < 256 by omega), Nat.mod_eq_of_lt (show inst < 256 by omega), hflag,
    Nat.mod_eq_of_lt (sevFrameCode_lt severity), sevOfFrameCode_code, Nat.mod_eq_of_lt htime, hnode, hkind, hinst]

/-! ## A whole frame -/

theorem parseBody_encode {h : Header} {b : Body} (hwf : b.wf h = true) :
    parseBody b.kind h (encodeBody b) = some b := by
  cases b with
  | epoch b => exact congrArg (Option.map Body.epoch) (parseEpoch_encode hwf)
  | probe seq =>
    have hseq : BitVec.ofNat 16 (field 0 2 (encodeBody (.probe seq))) = seq := by simp [encodeBody]
    show (if (encodeBody (.probe seq)).length = 2 then
      some (Body.probe (BitVec.ofNat 16 (field 0 2 (encodeBody (.probe seq))))) else none) = _
    rw [hseq]
    exact if_pos (beBytes_length _ _)
  | reply seq t2 t3 =>
    have hboth : t2.wf = true ∧ t3.wf = true := Bool.and_eq_true_iff.mp hwf
    exact parseReply_encode hboth.1 hboth.2
  | roll b => exact congrArg (Option.map Body.roll) (parseRoll_encode hwf)
  | config b => exact congrArg (Option.map Body.config) (parseConfig_encode hwf)
  | request b => exact congrArg (Option.map Body.request) (parseRequest_encode hwf)
  | response b => exact congrArg (Option.map Body.response) (parseResponse_encode hwf)
  | notice b => exact congrArg (Option.map Body.notice) (parseNotice_encode hwf)

theorem kind_lt (b : Body) : b.kind < 256 := by cases b <;> simp [Body.kind]

theorem idOk_lt {n : Nat} (h : idOk n = true) : n < 256 := by
  unfold idOk at h
  simp only [Bool.or_eq_true, decide_eq_true_eq] at h
  omega

/-- The flags byte of a header, and its two bits. -/
theorem headerFlags_bits (a b : Bool) : (boolNat a + 2 * boolNat b) % 256 = boolNat a + 2 * boolNat b ∧
    boolNat a + 2 * boolNat b < 4 ∧ (boolNat a + 2 * boolNat b).testBit 0 = a ∧
    (boolNat a + 2 * boolNat b).testBit 1 = b := by
  cases a <;> cases b <;> decide

/-- A well-formed frame is read back from its payload, whatever pads it. -/
theorem parseFrame_encode {f : Frame} (h : f.wf = true) (pad : List Byte) :
    parseFrame (encodeFrame f ++ pad) = some f := by
  simp only [Frame.wf, Header.wf, Bool.and_eq_true, decide_eq_true_eq] at h
  obtain ⟨⟨⟨⟨⟨⟨hring, hhops⟩, horigin⟩, hsender⟩, htarget⟩, hbody⟩, hlen⟩ := h
  obtain ⟨hdr, body⟩ := f
  dsimp only at *
  obtain ⟨hf, hf4, hf0, hf1⟩ := headerFlags_bits hdr.rev hdr.looped
  obtain ⟨p, hp⟩ : ∃ p, p = encodeFrame { hdr := hdr, body := body } ++ pad := ⟨_, rfl⟩
  have hbytes : p = beBytes 1 1 ++ (beBytes 1 body.kind ++ (beBytes 1 hdr.ring ++
      (beBytes 1 (boolNat hdr.rev + 2 * boolNat hdr.looped) ++ (beBytes 1 hdr.origin ++ (beBytes 1 hdr.sender ++
        (beBytes 1 hdr.target ++ (beBytes 1 hdr.hops ++ (beBytes 2 hdr.seq.toNat ++
          (beBytes 2 (encodeBody body).length ++ (encodeBody body ++ pad)))))))))) := by
    rw [hp]; simp [encodeFrame, byte]
  have h0 : field 0 1 p = 1 := by rw [hbytes, field_front]; rfl
  have h1 : field 1 1 p = body.kind := by rw [hbytes]; simp [Nat.mod_eq_of_lt (kind_lt body)]
  have h2 : field 2 1 p = hdr.ring := by rw [hbytes]; simp [Nat.mod_eq_of_lt hring]
  have h3 : field 3 1 p = boolNat hdr.rev + 2 * boolNat hdr.looped := by rw [hbytes]; simp [hf]
  have h4 : field 4 1 p = hdr.origin := by rw [hbytes]; simp [Nat.mod_eq_of_lt (idOk_lt horigin)]
  have h5 : field 5 1 p = hdr.sender := by rw [hbytes]; simp [Nat.mod_eq_of_lt (idOk_lt hsender)]
  have h6 : field 6 1 p = hdr.target := by rw [hbytes]; simp [Nat.mod_eq_of_lt (idOk_lt htarget)]
  have h7 : field 7 1 p = hdr.hops := by rw [hbytes]; simp [Nat.mod_eq_of_lt (show hdr.hops < 256 by omega)]
  have h8 : BitVec.ofNat 16 (field 8 2 p) = hdr.seq := by rw [hbytes]; simp
  have h10 : field 10 2 p = (encodeBody body).length := by rw [hbytes]; simp [Nat.mod_eq_of_lt hlen]
  have hrest : (p.drop 12).take (encodeBody body).length = encodeBody body := by rw [hbytes]; simp
  have hplen : p.length = 12 + ((encodeBody body).length + pad.length) := by rw [hbytes]; simp; omega
  rw [← hp]
  unfold parseFrame
  rw [h0, h1, h2, h3, h4, h5, h6, h7, h8, h10]
  dsimp only
  rw [hrest, hf0, hf1, parseBody_encode (h := hdr) hbody]
  exact if_pos ⟨by omega, rfl, hf4, hhops, horigin, hsender, htarget, by omega⟩

/-- Settles O55: the round trip, and what a formed frame bears. -/
theorem frameRoundTrip : Obligations.FrameRoundTrip := by
  unfold Obligations.FrameRoundTrip
  refine ⟨fun q h => ⟨parseFrame_encode h _, ?_, rfl, rfl, rfl⟩, fun t h b note i => ⟨rfl, rfl, ?_⟩⟩
  · show 46 ≤ (encodeFrame q.frame ++ _).length
    rw [List.length_append, List.length_replicate]
    omega
  · show (t.node.serial &&& ~~~(1#48 <<< 40)).getLsbD i = _
    rw [BitVec.getLsbD_and, BitVec.getLsbD_not, BitVec.getLsbD_shiftLeft]
    by_cases hi : i < 48
    · by_cases h40 : i = 40
      · subst h40; simp
      · simp [hi, h40]
        omega
    · rw [BitVec.getLsbD_of_ge _ _ (by omega)]
      rfl

end Sys2Proof.Machine
end

section
/-! Whatever is read as a frame is well formed: what each reader of chapter 12 lets pass (R192, R193). -/

namespace Sys2Proof.Machine

/-! ## Fields within their bytes -/

theorem field_lt_byte (off : Nat) (l : List Byte) : field off 1 l < 256 := field_lt off 1 l

theorem field_lt_two (off : Nat) (l : List Byte) : field off 2 l < 65536 := field_lt off 2 l

/-- Eight bytes read as a signed number. -/
theorem beInt_eight {l : List Byte} (h : l.length = 8) :
    -9223372036854775808 ≤ beInt l ∧ beInt l ≤ 9223372036854775807 := by
  have hlt := beNat_lt l
  unfold beInt
  dsimp only
  rw [h] at hlt ⊢
  have hpow : (256 : Nat) ^ 8 = 18446744073709551616 := by norm_num
  rw [hpow] at hlt ⊢
  split <;> omega

/-! ## Times, slots, entries and relay fields -/

theorem parseTime_wf {l : List Byte} {t : NsTime} (h : parseTime l = some t) : t.wf = true := by
  unfold parseTime at h
  dsimp only at h
  split at h
  · next hb =>
    cases h
    simp only [NsTime.wf, Bool.and_eq_true, decide_eq_true_eq]
    exact hb
  · cases h

theorem parseSlot_wf {l : List Byte} {s : Option Slot} (h : parseSlot l = some s) : slotWf s = true := by
  unfold parseSlot at h
  dsimp only at h
  split at h
  · split at h
    · split at h
      · next hsum =>
        cases h
        simp only [slotWf, Slot.wf, Bool.and_eq_true, decide_eq_true_eq]
        exact ⟨hsum, field_lt_two _ _⟩
      · cases h
    · cases h
  · cases h
    rfl

theorem parseSlots_wf : ∀ {n : Nat} {l : List Byte} {ss : List (Option Slot)}, parseSlots n l = some ss →
    ss.length = n ∧ ss.all slotWf = true
  | 0, l, ss, h => by
    cases h
    exact ⟨rfl, rfl⟩
  | n + 1, l, ss, h => by
    rw [parseSlots] at h
    split at h
    · next s rest hs hrest =>
      cases h
      obtain ⟨hlen, hall⟩ := parseSlots_wf hrest
      exact ⟨congrArg (· + 1) hlen, by rw [List.all_cons, parseSlot_wf hs, hall]; rfl⟩
    · cases h

/-- Entries read fit their bytes, and are written in as many as they were read from. -/
theorem parseEntries_wf : ∀ {fuel : Nat} {l : List Byte} {es : List Entry}, parseEntries fuel l = some es →
    es.all Entry.wf = true ∧ (encodeEntries es).length = l.length
  | fuel, [], es, h => by
    rw [parseEntries_nil] at h
    cases h
    exact ⟨rfl, rfl⟩
  | 0, _ :: _, es, h => by cases h
  | fuel + 1, b :: t, es, h => by
    obtain ⟨l, hl⟩ : ∃ l, l = b :: t := ⟨_, rfl⟩
    rw [parseEntries, ← hl] at h
    rw [← hl]
    split at h
    · cases h
    · next hfits =>
      split at h
      · next rest hrest =>
        cases h
        obtain ⟨hall, hlen⟩ := parseEntries_wf hrest
        have hn : field 2 2 l < 65536 := field_lt_two _ _
        have hvalue : ((l.drop 4).take (field 2 2 l)).length = field 2 2 l := by
          rw [List.length_take, List.length_drop]
          omega
        refine ⟨?_, ?_⟩
        · rw [List.all_cons, hall, Bool.and_true]
          simp only [Entry.wf, Bool.and_eq_true, decide_eq_true_eq]
          exact ⟨field_lt_two _ _, by rw [hvalue]; exact hn⟩
        · rw [encodeEntries, List.length_append, encodeEntry_length, hvalue, hlen, List.length_drop]
          omega
      · cases h

/-- Relay fields read fit their bytes, and with the bytes that follow they are as many as were read. -/
theorem parseRelay_wf {l t : List Byte} {r : Option RelayFields} (h : parseRelay l = some (r, t)) :
    relayWf r = true ∧ (encodeRelay r).length + t.length = l.length := by
  unfold parseRelay at h
  split at h
  · split at h
    · cases h
    · cases h
      refine ⟨rfl, ?_⟩
      rw [List.length_drop, encodeRelay, byte, beBytes_length]
      omega
  · split at h
    · cases h
    · split at h
      · split at h
        · next hid =>
          cases h
          refine ⟨?_, ?_⟩
          · simp only [relayWf, RelayFields.wf, Bool.and_eq_true, decide_eq_true_eq]
            exact ⟨field_lt_byte _ _, hid⟩
          · simp only [encodeRelay, byte, List.length_append, beBytes_length, List.length_drop]
            omega
        · cases h
      · cases h
  · cases h

theorem byte_length (n : Nat) : (byte n).length = 1 := beBytes_length 1 n

/-! ## Bodies: well formed, and no longer than what they were read from -/

theorem parseEpoch_wf {l : List Byte} {b : EpochBody} (h : parseEpoch l = some b) :
    b.wf = true ∧ (encodeBody (.epoch b)).length ≤ l.length := by
  unfold parseEpoch at h
  split at h
  · next hlen =>
    split at h
    · next t c ht hc =>
      split at h
      · next hrank =>
        cases h
        obtain ⟨hlo, hhi⟩ := beInt_eight (l := (l.drop 10).take 8) (by
          rw [List.length_take, List.length_drop]; omega)
        refine ⟨?_, ?_⟩
        · simp only [EpochBody.wf, Bool.and_eq_true, decide_eq_true_eq]
          exact ⟨⟨⟨parseTime_wf ht, hlo⟩, hhi⟩, hrank⟩
        · rw [hlen]
          simp [encodeBody, byte, beBytesInt]
      · cases h
    · cases h
  · cases h

theorem parseReply_wf {l : List Byte} {b : Body} (h : parseReply l = some b) :
    ∃ seq t2 t3, b = .reply seq t2 t3 ∧ t2.wf = true ∧ t3.wf = true ∧ (encodeBody b).length ≤ l.length := by
  unfold parseReply at h
  split at h
  · next hlen =>
    split at h
    · next a c ha hc =>
      cases h
      refine ⟨_, _, _, rfl, parseTime_wf ha, parseTime_wf hc, ?_⟩
      rw [hlen]
      simp [encodeBody]
    · cases h
  · cases h

theorem parseRoll_wf {looped : Bool} {l : List Byte} {b : RollBody} (h : parseRoll looped l = some b) :
    b.wf looped = true ∧ (encodeBody (.roll b)).length ≤ l.length := by
  unfold parseRoll at h
  dsimp only at h
  generalize hk : (if looped = true then 1 else 0) = k at h
  generalize hi : (if looped = true then some (field 4 1 l) else none) = i at h
  split at h
  · next hlen =>
    split at h
    · next st ss hst hss =>
      obtain ⟨hcount, hall⟩ := parseSlots_wf hss
      split at h
      · next hgood =>
        cases h
        obtain ⟨hrank, hloop⟩ := hgood
        refine ⟨?_, ?_⟩
        · simp only [RollBody.wf, Bool.and_eq_true, decide_eq_true_eq]
          refine ⟨⟨⟨⟨hrank, field_lt_two _ _⟩, hcount⟩, hall⟩, ?_⟩
          subst hi
          cases looped with
          | false => rfl
          | true => exact decide_eq_true (hloop.resolve_left (by decide))
        · subst hk hi
          rw [hlen, encodeRoll_bytes]
          cases looped <;> simp [hcount]
      · cases h
    · cases h
  · cases h

theorem parseConfig_wf {target : Nat} {l : List Byte} {b : ConfigBody} (h : parseConfig target l = some b) :
    b.wf target = true ∧ (encodeBody (.config b)).length ≤ l.length := by
  unfold parseConfig at h
  split at h
  · next hlen =>
    dsimp only at h
    generalize (if field 9 1 l = 255 then none else some (field 9 1 l)) = standby at h
    split at h
    · next hgood =>
      cases h
      obtain ⟨htgt, hid, hring⟩ := hgood
      refine ⟨?_, ?_⟩
      · simp only [ConfigBody.wf, Bool.and_eq_true, decide_eq_true_eq]
        exact ⟨⟨htgt, hid⟩, hring⟩
      · simp only [encodeBody, List.length_append, beBytes_length, byte_length, idBytes_length, List.length_map,
          List.length_drop]
        omega
    · cases h
  · cases h

theorem parseRequest_wf {l : List Byte} {b : ReqBody} (h : parseRequest l = some b) :
    b.wf = true ∧ (encodeBody (.request b)).length ≤ l.length := by
  unfold parseRequest at h
  split at h
  · cases h
  · next hlen =>
    split at h
    · next rel t hrel =>
      obtain ⟨hrelay, hbytes⟩ := parseRelay_wf hrel
      split at h
      · cases h
      · next hgood =>
        obtain ⟨hsix, hcoded⟩ := not_or.mp hgood
        split at h
        · next es hes =>
          cases h
          obtain ⟨hall, hentries⟩ := parseEntries_wf hes
          rw [List.length_drop] at hbytes hentries
          refine ⟨?_, ?_⟩
          · simp only [ReqBody.wf, Bool.and_eq_true, decide_eq_true_eq]
            exact ⟨⟨⟨⟨⟨hrelay, by simpa using hcoded⟩, field_lt_byte _ _⟩, field_lt_two _ _⟩, field_lt_two _ _⟩, hall⟩
          · simp only [encodeBody, byte, List.length_append, beBytes_length, hentries]
            omega
        · cases h
    · cases h

theorem parseResponse_wf {l : List Byte} {b : RespBody} (h : parseResponse l = some b) :
    b.wf = true ∧ (encodeBody (.response b)).length ≤ l.length := by
  unfold parseResponse at h
  split at h
  · cases h
  · next hlen =>
    split at h
    · next rel t hrel =>
      obtain ⟨hrelay, hbytes⟩ := parseRelay_wf hrel
      split at h
      · cases h
      · next hthree =>
        split at h
        · next st es hst hes =>
          cases h
          obtain ⟨hall, hentries⟩ := parseEntries_wf hes
          rw [List.length_drop] at hbytes hentries
          refine ⟨?_, ?_⟩
          · simp only [RespBody.wf, Bool.and_eq_true, decide_eq_true_eq]
            exact ⟨⟨hrelay, field_lt_two _ _⟩, hall⟩
          · simp only [encodeBody, byte, List.length_append, beBytes_length, hentries]
            omega
        · cases h
    · cases h

theorem parseNotice_wf {l : List Byte} {b : NoticeBody} (h : parseNotice l = some b) :
    b.wf = true ∧ (encodeBody (.notice b)).length ≤ l.length := by
  unfold parseNotice at h
  split at h
  · next hlen =>
    split at h
    · split at h
      · next hgood =>
        cases h
        obtain ⟨hnode, hkind, hinst, -⟩ := hgood
        refine ⟨?_, ?_⟩
        · simp only [NoticeBody.wf, Bool.and_eq_true, decide_eq_true_eq]
          exact ⟨⟨⟨hnode, hkind⟩, hinst⟩, field_lt 5 6 l⟩
        · rw [hlen]
          simp [encodeBody, byte]
      · cases h
    · cases h
  · cases h

/-- A body read suits its header and is written in no more bytes than it was read from. -/
theorem parseBody_wf {kind : Nat} {h : Header} {l : List Byte} {b : Body} (hb : parseBody kind h l = some b) :
    b.wf h = true ∧ (encodeBody b).length ≤ l.length := by
  unfold parseBody at hb
  split at hb
  · obtain ⟨x, hx, rfl⟩ := Option.map_eq_some_iff.mp hb
    exact parseEpoch_wf hx
  · split at hb
    · next hlen =>
      cases hb
      exact ⟨rfl, by rw [hlen]; exact Nat.le_of_eq (beBytes_length _ _)⟩
    · cases hb
  · obtain ⟨seq, t2, t3, rfl, h2, h3, hlen⟩ := parseReply_wf hb
    exact ⟨Bool.and_eq_true_iff.mpr ⟨h2, h3⟩, hlen⟩
  · obtain ⟨x, hx, rfl⟩ := Option.map_eq_some_iff.mp hb
    exact parseRoll_wf hx
  · obtain ⟨x, hx, rfl⟩ := Option.map_eq_some_iff.mp hb
    exact parseConfig_wf hx
  · obtain ⟨x, hx, rfl⟩ := Option.map_eq_some_iff.mp hb
    exact parseRequest_wf hx
  · obtain ⟨x, hx, rfl⟩ := Option.map_eq_some_iff.mp hb
    exact parseResponse_wf hx
  · obtain ⟨x, hx, rfl⟩ := Option.map_eq_some_iff.mp hb
    exact parseNotice_wf hx
  · cases hb

/-- Settles O56: a frame read has a well-formed header, a body that suits it, and fits the two bytes of its length. -/
theorem parsedFramesAreWellFormed : Obligations.ParsedFramesAreWellFormed := by
  unfold Obligations.ParsedFramesAreWellFormed
  intro p f h
  unfold parseFrame at h
  dsimp only at h
  split at h
  · next hgood =>
    obtain ⟨-, -, -, hhops, horigin, hsender, htarget, -⟩ := hgood
    split at h
    · next b hb =>
      cases h
      obtain ⟨hwf, hlen⟩ := parseBody_wf hb
      have hbound : field 10 2 p < 65536 := field_lt_two _ _
      rw [List.length_take] at hlen
      simp only [Frame.wf, Header.wf, Bool.and_eq_true, decide_eq_true_eq]
      exact ⟨⟨⟨⟨⟨⟨field_lt_byte _ _, hhops⟩, horigin⟩, hsender⟩, htarget⟩, hwf⟩, by omega⟩
    · cases h
  · cases h

end Sys2Proof.Machine
end

section
/-! Management frames: relays and their end, and what becomes of a request that arrives (R180, R185 to R187). -/

namespace Sys2Proof.Machine

/-! ## Relays (R185, R187) -/

/-- The TIMEOUT of a relay whose timer has run out, and the entry freed. -/
theorem relayCheck_ends {t : Tables} {k : Nat} {v : Live} {r : RelaySlot} {e : RelayEntry}
    (hr : v.mgmt.relays[k]? = some r) (he : r.entry = some e) (hd : 125000 * t.node.relayTimeout ≤ v.osc - e.since) :
    relayDue t k v = true ∧ relayCheck t k v = siteResponse t e.port
      { tag := e.tag
        relay := some { handle := k, rseq := r.rseq, requester := t.node.id, port := e.port }
        status := .timeout, count := 0, entries := [] } .plain
      (mapRelay k (fun r => { r with entry := none }) v) := by
  have hdue : relayDue t k v = true := by
    unfold relayDue
    rw [hr]
    dsimp only
    rw [he]
    exact decide_eq_true hd
  refine ⟨hdue, ?_⟩
  unfold relayCheck
  rw [hr]
  dsimp only
  rw [he]
  exact if_pos hdue

/-- The header of an answer formed for a site port: some of its fields are free (assumption 6). -/
theorem siteResponse_eq (t : Tables) (d : Side) (b : RespBody) (n : Note) (v : Live) :
    ∃ x : Header, x.ring = t.node.ringId ∧ x.origin = t.node.id ∧ x.sender = t.node.id ∧ x.looped = false ∧
      x.hops = 0 ∧ x.seq = v.mgmt.seq + 1 ∧
      siteResponse t d b n v = hand (.site d) (mkFrame t x (.response b) n)
        { v with mgmt := { v.mgmt with seq := v.mgmt.seq + 1 } } :=
  ⟨_, rfl, rfl, rfl, rfl, rfl, rfl, rfl⟩

theorem relayMatches_fits {v : Live} {b : RespBody} {g : RelayFields} {r : RelaySlot} {e : RelayEntry}
    (hg : b.relay = some g) (hr : v.mgmt.relays[g.handle]? = some r) (he : r.entry = some e) (hseq : r.rseq = g.rseq)
    (htag : e.tag = b.tag) : relayMatches v b = some (g.handle, e) := by
  unfold relayMatches
  rw [hg]
  dsimp only
  rw [hr]
  dsimp only
  rw [he]
  exact if_pos ⟨hseq, htag⟩

theorem relayMatches_late {v : Live} {b : RespBody}
    (h : ∀ (g : RelayFields) (r : RelaySlot) (e : RelayEntry), b.relay = some g →
      v.mgmt.relays[g.handle]? = some r → r.entry = some e → ¬ (r.rseq = g.rseq ∧ e.tag = b.tag)) :
    relayMatches v b = none := by
  unfold relayMatches
  split
  · rfl
  · next g hg =>
    split
    · rfl
    · next r hr =>
      split
      · rfl
      · next e he => exact if_neg (h g r e hg hr he)

theorem takeResponse_fits {t : Tables} {v : Live} {b : RespBody} {i : Nat} {e : RelayEntry}
    (hm : relayMatches v b = some (i, e)) (h : Header) : takeResponse t h b v =
      hand (.site e.port) (mkFrame t { h with sender := t.node.id } (.response b) .plain)
        { v with mgmt := { v.mgmt with relays := modifyAt i (fun r => { r with entry := none }) v.mgmt.relays } } := by
  unfold takeResponse
  rw [hm]
  rfl

theorem takeResponse_late {t : Tables} {v : Live} {b : RespBody} (hm : relayMatches v b = none) (h : Header) :
    takeResponse t h b v = { v with mgmt := { v.mgmt with late := bump v.mgmt.late } } := by
  unfold takeResponse
  rw [hm]

/-! ## Along the ring (R186) -/

theorem mgmtPasses_iff (t : Tables) (d : Side) (h : Header) :
    mgmtPasses t d h = true ↔ h.rev = d.inRev ∧ h.origin ≠ t.node.id ∧ h.hops < 31 := by
  unfold mgmtPasses
  simp only [Bool.and_eq_true, beq_iff_eq, decide_eq_true_eq, and_assoc]

theorem requestPasses_iff (h : Header) (b : ReqBody) : requestPasses h b = true ↔ b.relay ≠ none ∧ h.target ≠ 255 := by
  unfold requestPasses
  simp only [Bool.and_eq_true, decide_eq_true_eq, Option.isSome_iff_ne_none]

theorem forwardMgmt_down {t : Tables} {d : Side} {v : Live} (h : (v.span d.other).state = .down) (hd : Header) (b : Body) :
    forwardMgmt t d hd b v = mgmtDrop v := if_pos (decide_eq_true h)

theorem forwardMgmt_open {t : Tables} {d : Side} {v : Live} (h : (v.span d.other).state ≠ .down) (hd : Header)
    (b : Body) : forwardMgmt t d hd b v =
      hand (.line d.other) (mkFrame t { hd with sender := t.node.id, hops := hd.hops + 1 } b .plain) v :=
  if_neg fun hdown => h (of_decide_eq_true hdown)

/-- Settles O46: a relay's timeout, and each end of a response. -/
theorem relaysEndOnce : Obligations.RelaysEndOnce := by
  unfold Obligations.RelaysEndOnce
  intro n s v hv
  refine ⟨fun k r e hr he hd => ?_, fun d rx f h b w hw hc => ?_⟩
  · obtain ⟨hdue, hends⟩ := relayCheck_ends (t := s.tables) hr he hd
    obtain ⟨x, -, horigin, hsender, -, hhops, hseq, hresp⟩ := siteResponse_eq s.tables e.port
      { tag := e.tag
        relay := some { handle := k, rseq := r.rseq, requester := s.tables.node.id, port := e.port }
        status := .timeout, count := 0, entries := [] } .plain (mapRelay k (fun r => { r with entry := none }) v)
    exact ⟨x, horigin, hsender, hhops, hseq, congrArg Host.Outcome.next
      ((State.timed_at hv (due := fun t v => relayDue t k v) (fun t v => relayCheck t k v) hdue).trans
        (State.settled_congr s (hends.trans hresp)))⟩
  · have hexec : ∀ x, responseArrives s.tables d h b w = x →
        exec (.mgmtResponseArrival n d .ends f) s = .next (s.settled x) := fun x hx =>
      congrArg Host.Outcome.next ((State.receive_claimed hw hc).trans (State.settled_congr s hx))
    refine ⟨fun hfails => hexec _ (if_pos ?_), fun hrev ho hh => ?_⟩
    · rw [← Bool.not_eq_true, mgmtPasses_iff]
      rintro ⟨h1, h2, h3⟩
      rcases hfails with hf | hf | hf
      · exact hf h1
      · exact h2 hf
      · omega
    · have hpass : ¬ mgmtPasses s.tables d h = false := by
        rw [(mgmtPasses_iff s.tables d h).mpr ⟨hrev, ho, hh⟩]
        decide
      have hhere : responseArrives s.tables d h b w =
          if h.target = s.tables.node.id then takeResponse s.tables h b w
          else forwardMgmt s.tables d h (.response b) w := if_neg hpass
      refine ⟨fun ht hdown => hexec _ (hhere.trans ((if_neg ht).trans (forwardMgmt_down hdown h _))),
        fun ht hopen => hexec _ (hhere.trans ((if_neg ht).trans (forwardMgmt_open hopen h _))),
        fun ht => ⟨fun g r e hg hr he hseq htag => ?_, fun hlate => ?_⟩⟩
      · exact hexec _ (hhere.trans ((if_pos ht).trans (takeResponse_fits (relayMatches_fits hg hr he hseq htag) h)))
      · exact hexec _ (hhere.trans ((if_pos ht).trans (takeResponse_late (relayMatches_late hlate) h)))

/-! ## A claimed request -/

/-- A frame is claimed only in RUNNING, and is what its payload reads as. -/
theorem verdict_claimed {t : Tables} {v : Live} {p : Port} {f : RawFrame} {q : Frame}
    (h : verdict t v p f = .claimed q) : v.part = .running ∧ parseFrame f.payload = some q := by
  have hline : ∀ r, classifyLine r f.payload = .claimed q → parseFrame f.payload = some q := by
    intro r hr
    unfold classifyLine at hr
    split at hr
    · cases hr
    · split at hr
      · cases hr
      · next g hg =>
        split at hr
        · cases hr
        · cases hr
          exact hg
  have hsite : ∀ r, classifySite r f.payload = .claimed q → parseFrame f.payload = some q := by
    intro r hr
    unfold classifySite at hr
    split at hr
    · cases hr
    · split at hr
      · cases hr
      · next g hg =>
        split at hr
        · cases hr
          exact hg
        · cases hr
  have haccess : classifyAccess f.payload = .claimed q → parseFrame f.payload = some q := by
    intro hr
    unfold classifyAccess at hr
    split at hr
    · cases hr
    · next g hg =>
      split at hr
      · cases hr
        exact hg
      · cases hr
  unfold verdict classify at h
  split at h
  · cases h
  · split at h
    · cases h
    · split at h
      · cases h
      · split at h
        · split at h
          · cases h
          · next hpart =>
            refine ⟨hpart, ?_⟩
            split at h
            · exact hline _ h
            · exact hsite _ h
            · exact haccess h
        · split at h <;> cases h

theorem claimedAs_running {s : State} {p : Port} {rx : Stamp} {f : RawFrame} {q : Frame}
    (h : claimedAs s p rx f q = true) : s.live.part = .running ∧ parseFrame f.payload = some q := by
  simp only [claimedAs, Bool.and_eq_true, decide_eq_true_eq] at h
  exact verdict_claimed h.2

/-! ## A request performed here (R180, R181) -/

theorem performRequest_read {b : ReqBody} (h : b.op = 1) (env : ReqEnv) :
    performRequest env b = performRead env.relay b.code b.first b.count := by
  funext s
  obtain ⟨_, _, _, _, _, _, _⟩ := b
  dsimp only at h
  subst h
  rfl

theorem performRequest_write {b : ReqBody} (h : b.op = 2) (env : ReqEnv) : performRequest env b =
    performWrite env b.code { first := b.first, count := b.count, entries := b.entries } := by
  funext s
  obtain ⟨_, _, _, _, _, _, _⟩ := b
  dsimp only at h
  subst h
  rfl

theorem performRequest_command {b : ReqBody} (h : b.op = 3) (env : ReqEnv) :
    performRequest env b = performCommand env b := by
  funext s
  obtain ⟨_, _, _, _, _, _, _⟩ := b
  dsimp only at h
  subst h
  rfl

theorem requestNote_plain {b : ReqBody} (h : ¬ (b.op = 3 ∧ b.code = 3)) : requestNote b = .plain := if_neg h

/-- A WRITE reads no more of its table id than the table it names. -/
theorem performWrite_table {k l : Nat} (h : tableOfId k = tableOfId l) (env : ReqEnv) (w : WriteArgs) :
    performWrite env k w = performWrite env l w := by
  funext s
  unfold performWrite
  rw [h]

/-- A request that is to be performed here. -/
def performedHere (t : Tables) (via : Via) (h : Header) (b : ReqBody) : Prop :=
  (∃ d, via = .site d) ∧ (h.target = t.node.id ∨ h.target = 255) ∨
    (∃ d, via = .line d ∧ h.rev = d.inRev ∧ h.origin ≠ t.node.id ∧ h.hops < 31 ∧ b.relay ≠ none ∧ h.target ≠ 255 ∧
      h.target = t.node.id)

theorem requestArrives_here {via : Via} {h : Header} {b : ReqBody} {s : State} (hp : performedHere s.tables via h b) :
    State.requestArrives via h b s = serve { via := via, tag := b.tag, relay := b.relay } (requestNote b)
      (performRequest { via := via, tag := b.tag, relay := b.relay } b) s := by
  rcases hp with ⟨⟨d, rfl⟩, ht⟩ | ⟨d, rfl, hrev, ho, hh, hrel, h255, ht⟩
  · exact if_pos ht
  · refine (if_neg ?_).trans (if_pos ht)
    rw [(mgmtPasses_iff _ _ _).mpr ⟨hrev, ho, hh⟩, (requestPasses_iff _ _).mpr ⟨hrel, h255⟩]
    decide

theorem exec_request {n : Nat} {via : Via} {rx : Stamp} {f : RawFrame} {h : Header} {b : ReqBody} {s : State}
    (hc : claimedAs s via.port rx f { hdr := h, body := .request b } = true) :
    exec (.mgmtRequestArrival n via .ends f) s =
      .next (State.requestArrives via h b { s with live := s.arrived n via.port }) := by
  refine congrArg Host.Outcome.next ((State.receive_claimed rfl hc).trans ?_)
  cases via <;> rfl

theorem exec_request_here {n : Nat} {via : Via} {rx : Stamp} {f : RawFrame} {h : Header} {b : ReqBody} {s : State}
    (hc : claimedAs s via.port rx f { hdr := h, body := .request b } = true) (hp : performedHere s.tables via h b) :
    exec (.mgmtRequestArrival n via .ends f) s =
      .next (serve { via := via, tag := b.tag, relay := b.relay } (requestNote b)
        (performRequest { via := via, tag := b.tag, relay := b.relay } b) ((s.taken via.port).elapse n)) :=
  (exec_request hc).trans (congrArg Host.Outcome.next (requestArrives_here (s := { s with live := _ }) hp))

theorem heard_here {via : Via} {h : Header} {b : ReqBody} {s : State} (hrun : s.live.part = .running)
    (hp : performedHere s.tables via h b) :
    heardRequest { via := via, tag := b.tag, relay := b.relay } (s.taken via.port) = true := by
  unfold heardRequest
  rw [Bool.and_eq_true]
  refine ⟨decide_eq_true hrun, ?_⟩
  rcases hp with ⟨⟨d, rfl⟩, -⟩ | ⟨d, rfl, -, -, -, hrel, -⟩
  · rfl
  · exact Option.isSome_iff_ne_none.mpr hrel

/-- A request that was read has an operation and a command code that section 12.2 defines. -/
theorem claimedAs_coded {s : State} {p : Port} {rx : Stamp} {f : RawFrame} {h : Header} {b : ReqBody}
    (hc : claimedAs s p rx f { hdr := h, body := .request b } = true) :
    b.op = 1 ∨ b.op = 2 ∨ b.op = 3 ∧ 1 ≤ b.code ∧ b.code ≤ 9 := by
  have hwf := parsedFramesAreWellFormed f.payload _ (claimedAs_running hc).2
  simp only [Frame.wf, Body.wf, ReqBody.wf, requestCoded, Bool.and_eq_true, Bool.or_eq_true, decide_eq_true_eq] at hwf
  obtain ⟨⟨-, ⟨⟨⟨⟨-, hcoded⟩, -⟩, -⟩, -⟩, -⟩, -⟩ := hwf
  omega

/-! ## A WRITE or a command named by an arrival (assumption 40) -/

theorem performWrite_badRequest {w : WriteArgs} (h : w.count = 0 ∨ w.entries.length ≠ w.count ∨
    isRun w.first w.entries = false) (env : ReqEnv) (k : Nat) (s : State) : performWrite env k w s = refuse .badRequest s :=
  if_pos h

theorem performWrite_badTable {w : WriteArgs} {k : Nat} (hk : tableOfId k = none) (h1 : 1 ≤ w.count)
    (hlen : w.entries.length = w.count) (hrun : isRun w.first w.entries = true) (env : ReqEnv) (s : State) :
    performWrite env k w s = refuse .badTable s := by
  have hshape : ¬ (w.count = 0 ∨ w.entries.length ≠ w.count ∨ isRun w.first w.entries = false) := by
    rw [hrun]
    simp [hlen]
    omega
  unfold performWrite
  rw [if_neg hshape, hk]

theorem exec_write_named {m : TableName} {k : Nat} (hk : tableOfId k = some m) (n : Nat) (env : ReqEnv) (w : WriteArgs)
    (s : State) : exec (writeCommand m n env w) s = .next (serve env .plain (performWrite env k w) (s.elapse n)) := by
  obtain ⟨l, hl, hexec⟩ := exec_writeCommand m
  rw [hexec, performWrite_table (hl.trans hk.symm)]

theorem performCommand_code {b : ReqBody} {k : Nat} (h : b.code = k) (env : ReqEnv) (s : State) :
    performCommand env b s = performCommand env { b with code := k } s := by
  subst h
  rfl

theorem requestNote_command {b : ReqBody} {k : Nat} (hop : b.op = 3) (h : b.code = k) :
    requestNote b = if k = 3 then .restart else .plain := by
  subst h
  unfold requestNote
  rw [hop]
  simp

/-! ## A request relayed (R185) -/

theorem relayRequest_stranger {t : Tables} {target : Nat} (h : target ∉ t.ring.members) (d : Side) (b : ReqBody)
    (v : Live) : relayRequest t d target b v =
      respond t { via := .site d, tag := b.tag, relay := b.relay } .badRequest [] .plain v := if_pos h

theorem relayRequest_cut {t : Tables} {target : Nat} {v : Live} (h : target ∈ t.ring.members)
    (hdown : ∀ e, (v.span e).state = .down) (d : Side) (b : ReqBody) : relayRequest t d target b v =
      respond t { via := .site d, tag := b.tag, relay := b.relay } .unreachable [] .plain v := by
  unfold relayRequest
  dsimp only
  rw [if_neg (not_not_intro h), openSide_down (hdown _) (hdown _)]

theorem freeHandle_none : ∀ {l : List RelaySlot} (i : Nat), (∀ r ∈ l, r.entry ≠ none) → freeHandle i l = none
  | [], _, _ => rfl
  | r :: l, i, h => by
    have hr : ¬ r.entry.isNone = true := fun hn => h r List.mem_cons_self (Option.isNone_iff_eq_none.mp hn)
    rw [freeHandle, if_neg hr]
    exact freeHandle_none (i + 1) fun x hx => h x (List.mem_cons_of_mem _ hx)

theorem relayRequest_busy {t : Tables} {target : Nat} {v : Live} (h : target ∈ t.ring.members)
    (hopen : ∃ e, (v.span e).state ≠ .down) (hall : ∀ r ∈ v.mgmt.relays, r.entry ≠ none) (d : Side) (b : ReqBody) :
    relayRequest t d target b v =
      respond t { via := .site d, tag := b.tag, relay := b.relay } .busy [] .plain v := by
  obtain ⟨x, hx⟩ := openSide_exists hopen (nearSide t.ring.members t.node.id target)
  unfold relayRequest
  dsimp only
  rw [if_neg (not_not_intro h), hx, freeHandle_none 0 hall]

/-- A handle's slot once a request has taken it. -/
def RelaySlot.taken (e : RelayEntry) (r : RelaySlot) : RelaySlot := { rseq := r.rseq + 1, entry := some e }

theorem relayRequest_sent {t : Tables} {target k : Nat} {v : Live} {e : Side} {r : RelaySlot}
    (h : target ∈ t.ring.members) (he : openSide v (nearSide t.ring.members t.node.id target) = some e)
    (hr : v.mgmt.relays[k]? = some r) (hfree : freeHandle 0 v.mgmt.relays = some k) (d : Side) (b : ReqBody) :
    relayRequest t d target b v = hand (.line e)
      (mkFrame t
        { ring := t.node.ringId, rev := e.outRev, looped := false, origin := t.node.id, sender := t.node.id,
          target := target, hops := 0, seq := v.mgmt.seq + 1 }
        (.request { b with relay := some { handle := k, rseq := r.rseq + 1, requester := t.node.id, port := d } })
        .plain)
      { v with mgmt := { v.mgmt with
          seq := v.mgmt.seq + 1, relayed := bump v.mgmt.relayed
          relays := modifyAt k (fun _ => r.taken { port := d, tag := b.tag, target := target, since := v.osc })
            v.mgmt.relays } } := by
  obtain ⟨x, hx⟩ : ∃ x : RelayEntry, x = { port := d, tag := b.tag, target := target, since := v.osc } := ⟨_, rfl⟩
  have hslot : modifyAt k (RelaySlot.taken x) v.mgmt.relays = modifyAt k (fun _ => r.taken x) v.mgmt.relays :=
    modifyAt_congr _ _ _ _ r hr rfl
  have hget := modifyAt_get (RelaySlot.taken x) _ _ _ hr
  rw [← hx, ← hslot]
  unfold relayRequest
  dsimp only
  rw [if_neg (not_not_intro h), he]
  dsimp only
  rw [hfree, ← hx]
  have hseq : relaySeq (mapRelay k (RelaySlot.taken x) v) k = r.rseq + 1 := by
    unfold relaySeq
    rw [show (mapRelay k (RelaySlot.taken x) v).mgmt.relays[k]? = some (r.taken x) from hget]
    rfl
  rw [← hseq]
  rfl

/-- Settles O47: each way a request goes. -/
theorem requestsAreServedOrRelayed : Obligations.RequestsAreServedOrRelayed := by
  unfold Obligations.RequestsAreServedOrRelayed
  intro n rx f h b s
  refine ⟨fun via env w r c hc henv hw hr hcc hp => ?_, fun env r hbad => ?_, fun d env v hv hc henv hself h255 => ?_,
    fun d v hv hc => ⟨fun hrev ho hh hrel h255 hself => ?_, fun hfails => ?_⟩⟩
  · subst henv hw hr hcc
    have hhere : performedHere s.tables via h b := hp
    have hexec := exec_request_here (n := n) hc hhere
    have hheard := heard_here (claimedAs_running hc).1 hhere
    refine ⟨fun hop => ?_, fun hop => ?_, fun hop => ?_, claimedAs_coded hc⟩
    · rw [hexec, performRequest_read hop, requestNote_plain (by omega)]
      rfl
    · rw [hexec, performRequest_write hop, requestNote_plain (by omega)]
      refine ⟨fun m hm => (exec_write_named hm _ _ _ _).symm, fun hk h1 hlen hrun => ?_, fun hk hbad => ?_⟩
      · exact congrArg Host.Outcome.next (serve_refused hheard .plain
          (performWrite_badTable hk h1 hlen hrun _ _) (by decide))
      · exact congrArg Host.Outcome.next (serve_refused hheard .plain (performWrite_badRequest hbad _ _ _) (by decide))
    · rw [hexec, performRequest_command hop]
      have hcode : ∀ k, b.code = k → performCommand { via := via, tag := b.tag, relay := b.relay } b =
          performCommand { via := via, tag := b.tag, relay := b.relay } { b with code := k } := fun k hk =>
        funext (performCommand_code hk _)
      refine ⟨fun hk => ?_, fun hk => ?_, fun hk => ?_, fun hk => ?_, fun hk => ?_, fun hk => ?_, fun hk => ?_,
        fun hk => ?_, fun hk => ?_⟩ <;> (rw [hcode _ hk, requestNote_command hop hk]; rfl)
  · rcases hbad with hop | ⟨hop, hcode⟩
    · unfold performRequest
      split
      · omega
      · omega
      · omega
      · rfl
    · rw [performRequest_command hop]
      unfold performCommand
      split <;> first | omega | rfl
  · subst henv hv
    have hsite : ¬ (h.target = s.tables.node.id ∨ h.target = 255) := fun hor => hor.elim hself h255
    have hexec : ∀ x, relayRequest s.tables d h.target b (s.arrived n (.site d)) = x →
        exec (.mgmtRequestArrival n (.site d) .ends f) s = .next (s.settled x) := fun x hx =>
      (exec_request hc).trans (congrArg Host.Outcome.next ((if_neg hsite).trans (State.settled_congr s hx)))
    refine ⟨fun e near k r hmem hnear he hopen hr hfree hlow => ?_, fun hno => hexec _ (relayRequest_stranger hno d b _),
      fun hmem hdown => hexec _ (relayRequest_cut hmem hdown d b), fun hmem hopen hall =>
        hexec _ (relayRequest_busy hmem hopen hall d b)⟩
    subst hnear
    have hside : e = if ((s.arrived n (.site d)).span (nearSide s.tables.ring.members s.tables.node.id h.target)).state =
        .down then (nearSide s.tables.ring.members s.tables.node.id h.target).other
        else nearSide s.tables.ring.members s.tables.node.id h.target := by
      rcases he with he | ⟨he, hdown⟩
      · rw [he] at hopen
        rw [if_neg hopen]
        exact he
      · rw [if_pos hdown]
        exact he
    have hk := freeHandle_lowest _ 0 k r hr hfree hlow
    rw [Nat.zero_add] at hk
    exact hexec _ (relayRequest_sent hmem (openSide_open hside hopen) hr hk d b)
  · subst hv
    have hpass : ¬ (mgmtPasses s.tables d h = false ∨ requestPasses h b = false) := by
      rw [(mgmtPasses_iff _ _ _).mpr ⟨hrev, ho, hh⟩, (requestPasses_iff _ _).mpr ⟨hrel, h255⟩]
      decide
    have hexec : ∀ x, forwardMgmt s.tables d h (.request b) (s.arrived n (.line d)) = x →
        exec (.mgmtRequestArrival n (.line d) .ends f) s = .next (s.settled x) := fun x hx =>
      (exec_request hc).trans (congrArg Host.Outcome.next
        ((if_neg hpass).trans ((if_neg hself).trans (State.settled_congr s hx))))
    exact ⟨fun hdown => hexec _ (forwardMgmt_down hdown h _), fun hopen => hexec _ (forwardMgmt_open hopen h _)⟩
  · subst hv
    have hstop : mgmtPasses s.tables d h = false ∨ requestPasses h b = false := by
      rw [← Bool.not_eq_true, ← Bool.not_eq_true, mgmtPasses_iff, requestPasses_iff, ← not_and_or]
      rintro ⟨⟨h1, h2, h3⟩, h4, h5⟩
      rcases hfails with hf | hf | hf | hf | hf
      · exact hf h1
      · exact h2 hf
      · omega
      · exact h4 hf
      · exact h5 hf
    exact ⟨_, (exec_request hc).trans (congrArg Host.Outcome.next (if_pos hstop)), rfl, rfl, rfl⟩

end Sys2Proof.Machine
end

section
/-! The commands of section 11.2: each is judged by the ring write guard, and then carried out or refused. GUARD,
LOCK-TABLE and UNLOCK-TABLE settle O53; COMMIT-PROFILE, COMMIT_END and RELOAD-PROFILE settle O54. -/

namespace Sys2Proof.Machine

/-! ## A command past the ring write guard, and one it stops -/

theorem command_open {env : ReqEnv} {s : State} (h : guarded env s = false) (f : State → Reply) :
    command env f s = f s := by
  unfold command
  rw [h]
  exact if_neg Bool.false_ne_true

theorem command_stopped {env : ReqEnv} {s : State} (h : guarded env s = true) (f : State → Reply) :
    command env f s = refuse .guarded s := if_pos h

/-- A command that the ring write guard stops is answered GUARDED. -/
theorem serve_guarded {n : Nat} {s : State} {env : ReqEnv} (heard : heardRequest env s = true)
    (hset : s.tables.node.ringGuard = true) (hvia : ∃ d, env.via = .line d) (note : Note) (f : State → Reply) :
    serve env note (command env f) (s.elapse n) = (s.elapse n).counted.answer env .guarded [] .plain :=
  serve_refused heard note (command_stopped (s := (s.elapse n).counted) (guarded_set hset hvia) f) (by decide)

/-- A command past the ring write guard that fails a later check is answered with that check's status. -/
theorem serve_command_refused {n : Nat} {s : State} {env : ReqEnv} (heard : heardRequest env s = true)
    (hopen : s.tables.node.ringGuard = false ∨ ∃ d, env.via = .site d) (note : Note) {f : State → Reply} {st : Status}
    (hf : f (s.elapse n).counted = refuse st (s.elapse n).counted) (hst : st ≠ .done) :
    serve env note (command env f) (s.elapse n) = (s.elapse n).counted.answer env st [] .plain :=
  serve_refused heard note ((command_open (s := (s.elapse n).counted) (guarded_clear hopen) f).trans hf) hst

/-- A command past the ring write guard that is carried out is answered DONE. -/
theorem serve_command_done {n : Nat} {s : State} {env : ReqEnv} (heard : heardRequest env s = true)
    (hopen : s.tables.node.ringGuard = false ∨ ∃ d, env.via = .site d) (note : Note) {f : State → Reply} {u : State}
    (hf : f (s.elapse n).counted = carryOut u) :
    serve env note (command env f) (s.elapse n) = u.answer env .done [] note :=
  serve_done heard note ((command_open (s := (s.elapse n).counted) (guarded_clear hopen) f).trans hf)

/-! ## LOCK-TABLE and UNLOCK-TABLE (R184) -/

theorem lockCommand_unnamed {table : Nat} (h : tableOfId table = none) (env : ReqEnv) (es : List Entry) (s : State) :
    lockCommand env table es s = refuse .badTable s := by
  unfold lockCommand
  rw [h]
  rfl

theorem unlockCommand_unnamed {table : Nat} (h : tableOfId table = none) (env : ReqEnv) (s : State) :
    unlockCommand env table s = refuse .badTable s := by
  unfold unlockCommand
  rw [h]
  rfl

theorem lockCommand_named {table : Nat} {m : TableName} (h : tableOfId table = some m) (env : ReqEnv)
    (es : List Entry) : lockCommand env table es = command env (performLock table es) := by
  funext s
  unfold lockCommand
  rw [h]
  rfl

theorem unlockCommand_named {table : Nat} {m : TableName} (h : tableOfId table = some m) (env : ReqEnv) :
    unlockCommand env table = command env (performUnlock table) := by
  funext s
  unfold unlockCommand
  rw [h]
  rfl

section
variable {table : Nat} {m : TableName} {es : List Entry} {s : State} (hm : tableOfId table = some m)
include hm

theorem performLock_guard (h : s.live.guard = true) : performLock table es s = refuse .locked s := by
  unfold performLock
  rw [hm]
  exact if_pos h

theorem performUnlock_guard (h : s.live.guard = true) : performUnlock table s = refuse .locked s := by
  unfold performUnlock
  rw [hm]
  exact if_pos h

theorem performLock_down (hg : s.live.guard = false) (hd : s.locks.get m = .lockedDown)
    (hl : lockLevel es = some .locked) : performLock table es s = refuse .locked s := by
  unfold performLock
  simp [hm, hg, hd, hl]

theorem performUnlock_down (hg : s.live.guard = false) (hd : s.locks.get m = .lockedDown) :
    performUnlock table s = refuse .locked s := by
  unfold performUnlock
  simp [hm, hg, hd]

theorem performLock_busy (hg : s.live.guard = false) (hc : s.store.commit ≠ none)
    (hd : ¬ (s.locks.get m = .lockedDown ∧ lockLevel es = some .locked)) :
    performLock table es s = refuse .busy s := by
  unfold performLock
  have hs := Option.isSome_iff_ne_none.mpr hc
  simp only [hm, hg, if_neg hd, hs, if_true, if_neg Bool.false_ne_true]

theorem performUnlock_busy (hg : s.live.guard = false) (hc : s.store.commit ≠ none)
    (hd : s.locks.get m ≠ .lockedDown) : performUnlock table s = refuse .busy s := by
  unfold performUnlock
  have hs := Option.isSome_iff_ne_none.mpr hc
  simp only [hm, hg, if_neg hd, hs, if_true, if_neg Bool.false_ne_true]

theorem performLock_noLevel (hg : s.live.guard = false) (hc : s.store.commit = none) (hl : lockLevel es = none) :
    performLock table es s = refuse .badValue s := by
  unfold performLock
  simp [hm, hg, hc, hl]

theorem performLock_done {l : Lock} (hg : s.live.guard = false) (hc : s.store.commit = none)
    (hl : lockLevel es = some l) (hd : s.locks.get m ≠ .lockedDown ∨ l = .lockedDown) :
    performLock table es s = carryOut { s with locks := s.locks.set m l } := by
  have hdown : ¬ (s.locks.get m = .lockedDown ∧ lockLevel es = some .locked) := by
    rintro ⟨h1, h2⟩
    obtain rfl : l = .locked := Option.some.inj (hl.symm.trans h2)
    exact hd.elim (fun h => h h1) (fun h => by cases h)
  unfold performLock
  simp only [hm, hg, if_neg hdown, hc, Option.isSome_none, if_neg Bool.false_ne_true]
  rw [hl]

theorem performUnlock_done (hg : s.live.guard = false) (hc : s.store.commit = none)
    (hd : s.locks.get m ≠ .lockedDown) :
    performUnlock table s = carryOut { s with locks := s.locks.set m .opened } := by
  unfold performUnlock
  simp only [hm, hg, if_neg hd, hc, Option.isSome_none, if_neg Bool.false_ne_true]

end

theorem readByte_one (b : Byte) : readByte [b] = some b.toNat := by
  have hb : beNat [b] = b.toNat := by simp [beNat]
  exact (if_pos rfl).trans (congrArg some hb)

theorem lockLevel_byte (i : Nat) (b : Byte) :
    lockLevel [{ index := i, value := [b] }] = ([.locked, .lockedDown] : List Lock)[b.toNat]? := by
  have hread : readByte [b] = some b.toNat := readByte_one b
  unfold lockLevel
  simp only [hread]
  rcases b.toNat with _ | _ | k <;> rfl

theorem readByte_length {l : List Byte} (h : l.length ≠ 1) : readByte l = none := by
  match l with
  | [] => rfl
  | [_] => exact absurd rfl h
  | _ :: _ :: _ => rfl

theorem lockLevel_shape {es : List Entry} (h : (∀ e ∈ es, e.value.length ≠ 1) ∨ es.length ≠ 1) :
    lockLevel es = none := by
  match es, h with
  | [], _ => rfl
  | [e], h =>
    have he := h.elim (fun h => h e List.mem_cons_self) (fun h => absurd rfl h)
    unfold lockLevel
    simp only [readByte_length he]
  | _ :: _ :: _, _ => rfl

/-- Settles O53: each check of LOCK-TABLE and UNLOCK-TABLE in its turn, before and past the ring write guard. -/
theorem lockStatesFollowTheTable : Obligations.LockStatesFollowTheTable := by
  intro n table m env es l s c hc
  subst hc
  refine ⟨fun g => rfl, fun heard => ⟨fun hnone => ⟨?_, ?_⟩, fun hm hset hvia => ⟨?_, ?_⟩, fun hm hopen => ?_⟩,
    lockLevel_byte, lockLevel_shape⟩
  · exact congrArg Host.Outcome.next (serve_refused heard _ (lockCommand_unnamed hnone _ _ _) (by decide))
  · exact congrArg Host.Outcome.next (serve_refused heard _ (unlockCommand_unnamed hnone _ _) (by decide))
  · change Host.Outcome.next (serve env .plain (lockCommand env table es) (s.elapse n)) = _
    rw [lockCommand_named hm, serve_guarded heard hset hvia]
  · change Host.Outcome.next (serve env .plain (unlockCommand env table) (s.elapse n)) = _
    rw [unlockCommand_named hm, serve_guarded heard hset hvia]
  have lock_refused : ∀ {st : Status}, performLock table es (s.elapse n).counted = refuse st (s.elapse n).counted →
      st ≠ .done →
      exec (.lockTable n env table es) s = .next ((s.elapse n).counted.answer env st [] .plain) := by
    intro st hf hst
    change Host.Outcome.next (serve env .plain (lockCommand env table es) (s.elapse n)) = _
    rw [lockCommand_named hm, serve_command_refused heard hopen _ hf hst]
  have unlock_refused : ∀ {st : Status}, performUnlock table (s.elapse n).counted = refuse st (s.elapse n).counted →
      st ≠ .done →
      exec (.unlockTable n env table) s = .next ((s.elapse n).counted.answer env st [] .plain) := by
    intro st hf hst
    change Host.Outcome.next (serve env .plain (unlockCommand env table) (s.elapse n)) = _
    rw [unlockCommand_named hm, serve_command_refused heard hopen _ hf hst]
  refine ⟨fun hg => ⟨?_, ?_⟩, fun hg hd => ⟨fun hl => ?_, ?_⟩, fun hg hcom hd => ⟨?_, ?_⟩, fun hg hcom hd hl => ?_,
    fun hg hcom hl => ?_, fun hl hg hcom hd => ?_, fun hg hcom hd => ?_⟩
  · exact lock_refused (performLock_guard hm hg) (by decide)
  · exact unlock_refused (performUnlock_guard hm hg) (by decide)
  · exact lock_refused (performLock_down hm hg hd hl) (by decide)
  · exact unlock_refused (performUnlock_down hm hg hd) (by decide)
  · exact lock_refused (performLock_busy hm hg hcom fun h => hd h.1) (by decide)
  · exact unlock_refused (performUnlock_busy hm hg hcom hd) (by decide)
  · exact lock_refused (performLock_busy hm hg hcom fun h => hl h.2) (by decide)
  · exact lock_refused (performLock_noLevel hm hg hcom hl) (by decide)
  · change Host.Outcome.next (serve env .plain (lockCommand env table es) (s.elapse n)) = _
    rw [lockCommand_named hm, serve_command_done heard hopen _ (performLock_done hm hg hcom hl hd)]
    rfl
  · change Host.Outcome.next (serve env .plain (unlockCommand env table) (s.elapse n)) = _
    rw [unlockCommand_named hm, serve_command_done heard hopen _ (performUnlock_done hm hg hcom hd)]
    rfl

/-! ## What an answer leaves -/

/-- An answer changes nothing of the blocks but the management unit, where it leaves the count of requests, and what the
hand-over of its frame changes. -/
theorem respond_egress (t : Tables) (env : ReqEnv) (st : Status) (es : List Entry) (n : Note) (v : Live) :
    ∃ m : Mgmt, m.executed = v.mgmt.executed ∧ ({ v with mgmt := m } : Live).EgressOf (respond t env st es n v) := by
  unfold respond siteResponse ringResponse
  dsimp only
  split
  · exact ⟨(stepMgmtSeq v).mgmt, rfl, hand_egress _ _ (stepMgmtSeq v)⟩
  · split
    · split
      · exact ⟨(mgmtDrop v).mgmt, rfl, .restart (mgmtDrop v) true⟩
      · exact ⟨(mgmtDrop v).mgmt, rfl, .refl (mgmtDrop v)⟩
    · exact ⟨(stepMgmtSeq v).mgmt, rfl, hand_egress _ _ (stepMgmtSeq v)⟩
  · exact ⟨v.mgmt, rfl, .refl v⟩

section
variable (t : Tables) (env : ReqEnv) (st : Status) (es : List Entry) (n : Note) (v : Live)

@[simp] theorem respond_ts : (respond t env st es n v).ts = v.ts := by
  obtain ⟨m, -, h⟩ := respond_egress t env st es n v
  exact h.ts

@[simp] theorem respond_servo : (respond t env st es n v).servo = v.servo := by
  obtain ⟨m, -, h⟩ := respond_egress t env st es n v
  exact h.servo

@[simp] theorem respond_rejectedGen : (respond t env st es n v).roll.rejectedGen = v.roll.rejectedGen := by
  obtain ⟨m, -, h⟩ := respond_egress t env st es n v
  exact (congrArg Roll.rejectedGen h.roll).trans rfl

@[simp] theorem respond_executed : (respond t env st es n v).mgmt.executed = v.mgmt.executed := by
  obtain ⟨m, hm, h⟩ := respond_egress t env st es n v
  exact (congrArg Mgmt.executed h.mgmt).trans hm

end

section
variable (env : ReqEnv) (st : Status) (es : List Entry) (n : Note) (s : State)

@[simp] theorem State.answer_value : (s.answer env st es n).live.ts.value = s.live.ts.value := by simp [State.answer]
@[simp] theorem State.answer_steps : (s.answer env st es n).live.ts.steps = s.live.ts.steps := by simp [State.answer]
@[simp] theorem State.answer_history : (s.answer env st es n).live.servo.history = s.live.servo.history := by
  simp [State.answer]
@[simp] theorem State.answer_rejectedGen : (s.answer env st es n).live.roll.rejectedGen = s.live.roll.rejectedGen := by
  simp [State.answer]
@[simp] theorem State.answer_executed : (s.answer env st es n).live.mgmt.executed = s.live.mgmt.executed := by
  simp [State.answer]

end

/-! ## COMMIT-PROFILE, COMMIT_END and RELOAD-PROFILE (R188, R189) -/

theorem performCommit_busy {s : State} (h : s.store.commit ≠ none) : performCommit s = refuse .busy s :=
  if_pos (Option.isSome_iff_ne_none.mpr h)

theorem performReload_busy {s : State} (h : s.store.commit ≠ none) : performReload s = refuse .busy s :=
  if_pos (Option.isSome_iff_ne_none.mpr h)

theorem performCommit_done {s : State} (h : s.store.commit = none) : performCommit s =
    carryOut { s with store := { s.store with commit := some { tables := s.tables, locks := s.locks } } } := by
  unfold performCommit
  rw [h]
  rfl

theorem performReload_noImage {s : State} (h : s.store.commit = none) (hi : s.store.image = none) :
    performReload s = refuse .badStore s := by
  unfold performReload
  rw [h, hi]
  rfl

theorem performReload_image {s : State} {i : Image} (h : s.store.commit = none) (hi : s.store.image = some i) :
    performReload s = carryOut (({ s with live := dropRejected s.locks.ring s.live } : State).install
      (reloaded s.locks s.tables i.tables)) := by
  unfold performReload
  rw [h, hi]
  rfl

theorem reloaded_down {locks : PerTable Lock} {m : TableName} (h : locks.get m = .lockedDown) (old img : Tables) :
    Tables.agreeOn m (reloaded locks old img) old = true := by
  cases m <;> simp [Tables.agreeOn, reloaded, h]

theorem reloaded_loaded {locks : PerTable Lock} {m : TableName} (h : locks.get m ≠ .lockedDown) (old img : Tables) :
    Tables.agreeOn m (reloaded locks old img)
      { img with node := { img.node with serial := old.node.serial } } = true := by
  cases m <;> simp [Tables.agreeOn, reloaded, h]

/-- Changed gradients empty the history, and no later block adds to it. -/
theorem takeTables_grads {old new : Tables} (h : old.thermal.grads ≠ new.thermal.grads) (v : Live) :
    (takeTables old new v).servo.history = [] := by
  have hsoaks : ∀ (l : List Nat) (x : Live), (soakChecks new l x).servo.history = x.servo.history := by
    intro l
    induction l with
    | nil => exact fun _ => rfl
    | cons i l ih => exact fun x => (ih _).trans (Live.history_of_kept (soakCheck_kept new i x))
  have hthermal : ∀ x : Live, (thermalEffects old.thermal new.thermal x).servo.history = [] := by
    intro x
    unfold thermalEffects
    rw [if_neg h]
    rfl
  unfold takeTables alarmEffects
  dsimp only
  split
  · exact hthermal _
  · exact (hsoaks _ _).trans (hthermal _)

theorem dropRejected_rejectedGen (l : Lock) (v : Live) :
    (dropRejected l v).roll.rejectedGen = if l = .lockedDown then v.roll.rejectedGen else none := by
  unfold dropRejected
  split <;> rfl

theorem dropRejected_value (l : Lock) (v : Live) : (dropRejected l v).ts = v.ts := by
  unfold dropRejected
  split <;> rfl

/-- Settles O54: the checks of the two commands in their turn, the two ends of a commit, and the installation that a
reload is. -/
theorem commitAndReloadMoveTheTables : Obligations.CommitAndReloadMoveTheTables := by
  intro n env s c hc
  subst hc
  refine ⟨fun ok i hi => ?_, fun ok hnone => ?_, fun heard hopen => ⟨fun hbusy => ⟨?_, ?_⟩, fun hidle =>
    ⟨?_, fun himg => ?_, fun i himg => ?_⟩⟩, fun heard hset hvia => ⟨?_, ?_⟩⟩
  · have hend : (s.elapse n).endCommit ok = { (s.elapse n) with
        store := { s.store with
          image := if ok then some i else none
          commit := none
          lastCommit := some (if ok then .verified else .mismatch) }
        live := finish s.tables { s.live.elapse n with storeFault := !ok } } := by
      unfold State.endCommit
      have hi' : (s.elapse n).store.commit = some i := hi
      rw [hi']
      rfl
    exact ⟨_, congrArg Host.Outcome.next hend, rfl, rfl, rfl, finish_storeFault _ _, rfl, rfl⟩
  · change Host.Outcome.next ((s.elapse n).endCommit ok) = _
    unfold State.endCommit
    have hnone' : (s.elapse n).store.commit = none := hnone
    rw [hnone']
  · exact congrArg Host.Outcome.next (serve_command_refused heard hopen _ (performCommit_busy hbusy) (by decide))
  · exact congrArg Host.Outcome.next (serve_command_refused heard hopen _ (performReload_busy hbusy) (by decide))
  · exact congrArg Host.Outcome.next (serve_command_done heard hopen _ (performCommit_done hidle))
  · exact congrArg Host.Outcome.next (serve_command_refused heard hopen _ (performReload_noImage hidle himg) (by decide))
  · refine ⟨_, congrArg Host.Outcome.next (serve_command_done heard hopen _ (performReload_image hidle himg)),
      State.answer_locks _ _ _ _ _, State.answer_store _ _ _ _ _, ?_, fun m hm => ?_, fun m hm => ?_, ?_,
      fun u new hnew hu => ?_, fun hlock hgrads => ?_⟩
    · rw [State.answer_value]
      exact (finish_value _ _).trans ((takeTables_quiet _ _ _).value.trans
        (congrArg TimeScale.value (dropRejected_value _ _)))
    · rw [State.answer_tables]
      exact reloaded_down hm s.tables i.tables
    · rw [State.answer_tables]
      exact reloaded_loaded hm s.tables i.tables
    · rw [State.answer_rejectedGen]
      exact (finish_rejectedGen _ _).trans ((takeTables_rejectedGen _ _ _).trans (dropRejected_rejectedGen _ _))
    · rw [State.answer_tables] at hnew
      subst hu hnew
      rfl
    · have hnew : (reloaded s.locks s.tables i.tables).thermal = i.tables.thermal := if_neg hlock
      rw [State.answer_history]
      exact (finish_history _ _).trans (takeTables_grads (fun h => hgrads (h.trans (congrArg ThermalTable.grads hnew))) _)
  · exact congrArg Host.Outcome.next (serve_guarded heard hset hvia _ _)
  · exact congrArg Host.Outcome.next (serve_guarded heard hset hvia _ _)

end Sys2Proof.Machine
end

section
/-! The commands that act on the blocks, and what becomes of a request that is not served: O52. -/

namespace Sys2Proof.Machine

/-! ## Requests that are not served (R180, R186, R190) -/

theorem serve_loading {s : State} (h : s.live.part = .loading) (env : ReqEnv) (note : Note) (f : State → Reply) :
    serve env note f s = s := by
  unfold serve
  rw [h]

theorem serve_unrelayed {s : State} {env : ReqEnv} {d : Side} (h : s.live.part = .running) (hvia : env.via = .line d)
    (hrelay : env.relay = none) (note : Note) (f : State → Reply) :
    serve env note f s = { s with live := mgmtDiscard s.live } := by
  unfold serve
  rw [h, hvia, hrelay]

/-- Every request of section 11.2 is served in one way. -/
theorem exec_served {n i k : Nat} {m : TableName} {env : ReqEnv} {w : WriteArgs} {es : List Entry} {c : Instr}
    (h : c ∈ [.read n env i k w.count, writeCommand m n env w, .clearCounters n env, .clearHistory n env,
      .softRestart n env, .reloadProfile n env, .commitProfile n env, .lockTable n env i es, .unlockTable n env i,
      .select n env i, .clearSelect n env]) :
    ∃ (note : Note) (f : State → Reply), ∀ s : State, exec c s = .next (serve env note f (s.elapse n)) := by
  simp only [List.mem_cons, List.not_mem_nil, or_false] at h
  rcases h with rfl | rfl | rfl | rfl | rfl | rfl | rfl | rfl | rfl | rfl | rfl
  case inr.inl =>
    obtain ⟨j, -, hexec⟩ := exec_writeCommand m
    exact ⟨_, _, fun s => hexec n env w s⟩
  all_goals exact ⟨_, _, fun s => rfl⟩

/-! ## SELECT (R45) -/

theorem performSelect_available {i : Nat} {x : Cand} {s : State} (hx : candOfIndex i = some x)
    (h : (s.live.cands.get x).isAvailable = true) :
    performSelect i s = carryOut { s with live := { s.live with manual := some x } } := by
  unfold performSelect
  rw [hx]
  exact if_pos h

theorem performSelect_unavailable {i : Nat} {x : Cand} {s : State} (hx : candOfIndex i = some x)
    (h : (s.live.cands.get x).isAvailable = false) : performSelect i s = refuse .notNow s := by
  unfold performSelect
  rw [hx]
  exact if_neg (Bool.eq_false_iff.mp h)

theorem performSelect_noCand {i : Nat} (h : 3 ≤ i) (s : State) : performSelect i s = refuse .badValue s := by
  have hx : candOfIndex i = none := by
    match i, h with
    | _ + 3, _ => rfl
  unfold performSelect
  rw [hx]

/-! ## The statement -/

/-- Settles O52: each command past the guard, and before it; what is not served never reaches the checks. -/
theorem commandsActOnTheBlocks : Obligations.CommandsActOnTheBlocks := by
  refine ⟨fun n i k m env w es s c hc => ?_, fun n i env s c hc heard => ?_⟩
  · obtain ⟨note, f, hexec⟩ := exec_served hc
    refine ⟨fun hload => ?_, fun d v hrun hvia hrelay hv => ?_⟩
    · rw [hexec, serve_loading (s := s.elapse n) hload]
    · subst hv
      rw [hexec, serve_unrelayed (s := s.elapse n) hrun hvia hrelay]
      rfl
  subst hc
  refine ⟨fun hopen => ⟨?_, ?_, fun x hx h => ?_, fun x hx h => ?_, fun hi => ?_, ?_⟩,
    fun hset hvia => ⟨?_, ?_, ?_, ?_⟩⟩
  · exact ⟨clearAllCounters (s.elapse n).counted.live, congrArg Host.Outcome.next (serve_command_done heard hopen _ rfl),
      rfl, rfl, Ports.map_get _ _, Pair.map_get _ _, Quad.map_get _ _, rfl, rfl, rfl, rfl, rfl, rfl, rfl, rfl, rfl, rfl,
      rfl⟩
  · exact congrArg Host.Outcome.next (serve_command_done heard hopen _ rfl)
  · exact congrArg Host.Outcome.next (serve_command_done heard hopen _ (performSelect_available hx h))
  · exact congrArg Host.Outcome.next (serve_command_refused heard hopen _ (performSelect_unavailable hx h) (by decide))
  · exact congrArg Host.Outcome.next (serve_command_refused heard hopen _ (performSelect_noCand hi _) (by decide))
  · exact congrArg Host.Outcome.next (serve_command_done heard hopen _ rfl)
  all_goals exact congrArg Host.Outcome.next (serve_guarded heard hset hvia _ _)

end Sys2Proof.Machine
end

section
/-! CLEAR-HISTORY, and an alarm event: its record, its notices and the summary. O51. -/

namespace Sys2Proof.Machine

/-! ## The summary (R174) -/

theorem worseSeverity_none {a b : Option Severity} (h : worseSeverity a b = none) : a = none ∧ b = none := by
  match a, b with
  | none, none => exact ⟨rfl, rfl⟩
  | none, some y => cases h
  | some x, none => cases h
  | some x, some y =>
    unfold worseSeverity at h
    dsimp only at h
    split at h <;> cases h

theorem worseSeverity_some {a b : Option Severity} {s : Severity} (h : worseSeverity a b = some s) :
    (a = some s ∨ b = some s) ∧ (∀ x, a = some x → sevRank x ≤ sevRank s) ∧
      ∀ x, b = some x → sevRank x ≤ sevRank s := by
  match a, b with
  | none, none => cases h
  | none, some y =>
    cases h
    exact ⟨.inr rfl, nofun, fun x hx => (Option.some.inj hx).symm ▸ le_rfl⟩
  | some x, none =>
    cases h
    exact ⟨.inl rfl, fun x hx => (Option.some.inj hx).symm ▸ le_rfl, nofun⟩
  | some x, some y =>
    unfold worseSeverity at h
    dsimp only at h
    split at h
    · next hlt =>
      cases h
      exact ⟨.inr rfl, fun x hx => (Option.some.inj hx) ▸ hlt.le, fun x hx => (Option.some.inj hx).symm ▸ le_rfl⟩
    · next hlt =>
      cases h
      exact ⟨.inl rfl, fun x hx => (Option.some.inj hx).symm ▸ le_rfl,
        fun x hx => (Option.some.inj hx) ▸ Nat.le_of_not_lt hlt⟩

theorem Point.isRaised_iff (p : Point) : p.isRaised = true ↔ p.state = .raised ∨ p.state = .clearing := by
  simp [Point.isRaised]

theorem severitySummary_snoc (l : List Point) (p : Point) : severitySummary (l ++ [p]) =
    if p.isRaised then worseSeverity (severitySummary l) p.severity else severitySummary l := by
  unfold severitySummary
  rw [List.foldl_append]
  rfl

/-- NONE with no severity held by a raised point, and otherwise the highest held. -/
theorem severitySummary_spec (l : List Point) :
    (severitySummary l = none → ∀ p ∈ l, p.isRaised = true → p.severity = none) ∧
    (∀ s, severitySummary l = some s → (∃ p ∈ l, p.isRaised = true ∧ p.severity = some s) ∧
      ∀ p ∈ l, ∀ x, p.isRaised = true → p.severity = some x → sevRank x ≤ sevRank s) := by
  induction l using List.reverseRecOn with
  | nil => exact ⟨fun _ p hp => absurd hp List.not_mem_nil, nofun⟩
  | append_singleton l p ih =>
    obtain ⟨ihnone, ihsome⟩ := ih
    simp only [severitySummary_snoc, List.mem_append, List.mem_singleton]
    by_cases hp : p.isRaised = true
    · rw [if_pos hp]
      refine ⟨fun h q hq hr => ?_, fun s h => ?_⟩
      · obtain ⟨hl, hs⟩ := worseSeverity_none h
        rcases hq with hq | rfl
        · exact ihnone hl q hq hr
        · exact hs
      · obtain ⟨hmem, hold, hnew⟩ := worseSeverity_some h
        refine ⟨?_, fun q hq x hr hx => ?_⟩
        · rcases hmem with hl | hs
          · obtain ⟨q, hq, hqs⟩ := (ihsome s hl).1
            exact ⟨q, .inl hq, hqs⟩
          · exact ⟨p, .inr rfl, hp, hs⟩
        · rcases hq with hq | rfl
          · cases hl : severitySummary l with
            | none => exact absurd ((ihnone hl q hq hr).symm.trans hx) (by simp)
            | some y => exact ((ihsome y hl).2 q hq x hr hx).trans (hold y hl)
          · exact hnew x hx
    · rw [if_neg hp]
      refine ⟨fun h q hq hr => ?_, fun s h => ⟨?_, fun q hq x hr hx => ?_⟩⟩
      · rcases hq with hq | rfl
        · exact ihnone h q hq hr
        · exact absurd hr hp
      · obtain ⟨q, hq, hqs⟩ := (ihsome s h).1
        exact ⟨q, .inl hq, hqs⟩
      · rcases hq with hq | rfl
        · exact (ihsome s h).2 q hq x hr hx
        · exact absurd hr hp

/-! ## An event (R171, R173, R174) -/

/-- The blocks with the record of an event joined to the history. -/
def Live.recorded (r : AlarmRecord) (v : Live) : Live :=
  { v with alarms := { v.alarms with
    history := (if v.alarms.history.length < 64 then v.alarms.history else v.alarms.history.drop 1) ++ [r]
    overwrites := if v.alarms.history.length < 64 then v.alarms.overwrites else min 65535 (v.alarms.overwrites + 1) } }

theorem alarmEvent_eq {t : Tables} {i : Nat} {cleared : Bool} {sev : Severity} {v : Live} {r : AlarmRecord}
    (hr : r = { kind := (pointKind i).1, inst := (pointKind i).2, cleared := cleared, severity := sev,
                time := v.ts.value.sec }) {x : Live}
    (hx : x = if (pointCfg t i).report = true then sendNotices t r (v.recorded r) else v.recorded r) :
    alarmEvent t i cleared sev v =
      { x with alarms := { x.alarms with summary := severitySummary v.alarms.points } } := by
  have hrec : ({ v with alarms := { v.alarms with
      history := appendCapped v.alarms.history r
      overwrites := if decide (64 ≤ v.alarms.history.length) = true then bump v.alarms.overwrites
        else v.alarms.overwrites } } : Live) = v.recorded r := by
    unfold appendCapped Live.recorded bump
    by_cases h : v.alarms.history.length < 64
    · simp [h, Nat.not_le.mpr h]
    · simp [h, Nat.le_of_not_lt h]
  have hpoints : x.alarms.points = v.alarms.points := by
    rw [hx]
    split
    · exact (sendNotices_keeps t r _).1
    · rfl
  unfold alarmEvent
  dsimp only
  rw [← hr, hrec, ← hx, hpoints]

/-- Settles O51: the command itself, the guard before it, and an event with its notices one by one. -/
theorem clearHistoryEmptiesTheHistory : Obligations.ClearHistoryEmptiesTheHistory := by
  refine ⟨fun n env s c hc heard hopen => ?_, fun n env s c hc heard hset hvia => ?_,
    fun t i cleared sev v w u r notice hw hr hu hn => ?_, fun l => ?_⟩
  · subst hc
    exact congrArg Host.Outcome.next (serve_command_done heard hopen _ rfl)
  · subst hc
    exact congrArg Host.Outcome.next (serve_guarded heard hset hvia _ _)
  · have hrec : u = v.recorded r := hu
    have hnotice : ∀ d x, notice d x = sendNotice t r d x := hn
    subst hw
    refine ⟨_, alarmEvent_eq hr rfl, fun hoff => ?_, fun hon => ⟨fun hport => ?_, fun hport => ?_, fun hport => ?_⟩⟩
    · subst hrec
      rcases hoff with hoff | hoff
      · rw [hoff]
        rfl
      · unfold sendNotices
        rw [hoff]
        exact ite_self _
    all_goals
      rw [if_pos hon, hrec]
      unfold sendNotices
      rw [hport]
      simp only [hnotice]
  · simp only [← Point.isRaised_iff]
    obtain ⟨hnone, hsome⟩ := severitySummary_spec l
    exact ⟨hnone, hsome⟩

end Sys2Proof.Machine
end

section
/-! What a WRITE makes of its table: the values read, the fields and records they fill, the checks on the table as it
would stand, and the checks of the request before them. O50. -/

namespace Sys2Proof.Machine

/-! ## Values read from their bytes (sections 11.2 and 12.2) -/

theorem readNum_eight {l : List Byte} (h : l.length = 8) : readNum l = some (beInt l) := if_pos h

theorem readNum_length {l : List Byte} (h : l.length ≠ 8) : readNum l = none := if_neg h

theorem readClamped_eight {l : List Byte} (h : l.length = 8) {lo hi : Nat} (hlo : lo ≤ hi) :
    readClamped lo hi l = some (max (lo : Int) (min hi (beInt l))).toNat := by
  unfold readClamped clampNat
  rw [readNum_eight h, ← clampInt_eq (by omega)]
  rfl

theorem readClampedInt_eight {l : List Byte} (h : l.length = 8) {lo hi : Int} (hlo : lo ≤ hi) :
    readClampedInt lo hi l = some (max lo (min hi (beInt l))) := by
  unfold readClampedInt
  rw [readNum_eight h, ← clampInt_eq hlo]
  rfl

theorem readBelow_eight {l : List Byte} (h : l.length = 8) (hi : Nat) :
    readBelow hi l = if 0 ≤ beInt l ∧ beInt l ≤ hi then some (beInt l).toNat else none := by
  unfold readBelow
  rw [readNum_eight h]

theorem readRate_eight {l : List Byte} (h : l.length = 8) : readRate l =
    some (if beInt l < 2 then 1 else if beInt l < 4 then 2 else if beInt l < 8 then 4 else if beInt l < 16 then 8
      else 16) := by
  unfold readRate
  rw [readClamped_eight h (by decide)]
  refine congrArg some ?_
  unfold roundRate
  split_ifs <;> omega

theorem readIdOrAbsent_eight {l : List Byte} (h : l.length = 8) : readIdOrAbsent l =
    if 0 ≤ beInt l ∧ beInt l ≤ 31 then some (some (beInt l).toNat) else if beInt l = 255 then some none else none := by
  unfold readIdOrAbsent
  rw [readBelow_eight h]
  by_cases hr : 0 ≤ beInt l ∧ beInt l ≤ (255 : Nat)
  · rw [if_pos hr]
    dsimp only
    split_ifs <;> first | rfl | omega
  · rw [if_neg hr, if_neg (by omega), if_neg (by omega)]

theorem readGradient_eight {l : List Byte} (h : l.length = 8) :
    readGradient l = if -32768 ≤ beInt l ∧ beInt l ≤ 32767 then some (beInt l) else none := by
  unfold readGradient
  rw [readNum_eight h]

theorem readClamped_length {l : List Byte} (h : l.length ≠ 8) (lo hi : Nat) : readClamped lo hi l = none := by
  unfold readClamped
  rw [readNum_length h]
  rfl

theorem readClampedInt_length {l : List Byte} (h : l.length ≠ 8) (lo hi : Int) : readClampedInt lo hi l = none := by
  unfold readClampedInt
  rw [readNum_length h]
  rfl

theorem readBelow_length {l : List Byte} (h : l.length ≠ 8) (hi : Nat) : readBelow hi l = none := by
  unfold readBelow
  rw [readNum_length h]

theorem readRate_length {l : List Byte} (h : l.length ≠ 8) : readRate l = none := by
  unfold readRate
  rw [readClamped_length h]
  rfl

theorem readIdOrAbsent_length {l : List Byte} (h : l.length ≠ 8) : readIdOrAbsent l = none := by
  unfold readIdOrAbsent
  rw [readBelow_length h]

theorem readGradient_length {l : List Byte} (h : l.length ≠ 8) : readGradient l = none := by
  unfold readGradient
  rw [readNum_length h]

/-! Codes of one byte (assumptions 27, 28 and 60) -/

theorem readMode_byte (b : Byte) : readMode [b] = ([.off, .frames, .pulse, .both] : List AccessMode)[b.toNat]? := by
  unfold readMode
  simp only [readByte_one]
  rcases b.toNat with _ | _ | _ | _ | k <;> rfl

theorem readLoss_byte (b : Byte) :
    readLoss [b] = ([.continue, .mark, .squelch] : List LossBehaviour)[b.toNat]? := by
  unfold readLoss
  simp only [readByte_one]
  rcases b.toNat with _ | _ | _ | k <;> rfl

theorem readSeverity_byte (b : Byte) :
    readSeverity [b] = ([.critical, .major, .minor, .warning] : List Severity)[b.toNat]? := by
  unfold readSeverity
  simp only [readByte_one]
  rcases b.toNat with _ | _ | _ | _ | k <;> rfl

theorem readRole_byte (b : Byte) : readRole [b] = ([.primary, .standby, .member] : List NodeRole)[b.toNat]? := by
  unfold readRole
  simp only [readByte_one]
  rcases b.toNat with _ | _ | _ | k <;> rfl

theorem readNotice_byte (b : Byte) :
    readNotice [b] = ([.se, .sw, .both, .none] : List NoticePorts)[b.toNat]? := by
  unfold readNotice
  simp only [readByte_one]
  rcases b.toNat with _ | _ | _ | _ | k <;> rfl

theorem readFlag_byte (b : Byte) : readFlag [b] = ([false, true] : List Bool)[b.toNat]? := by
  unfold readFlag
  simp only [readByte_one]
  rcases b.toNat with _ | _ | k <;> rfl

theorem readFloor_byte (b : Byte) : readFloor [b] = ([.q0, .q1, .q2, .q3, .q3] : List QClass)[b.toNat]? := by
  unfold readFloor
  simp only [readByte_one]
  rcases b.toNat with _ | _ | _ | _ | _ | k <;> rfl

theorem readCodes_length {l : List Byte} (h : l.length ≠ 1) : readMode l = none ∧ readLoss l = none ∧
    readSeverity l = none ∧ readRole l = none ∧ readNotice l = none ∧ readFlag l = none ∧ readFloor l = none := by
  have hb := readByte_length h
  simp only [readMode, readLoss, readSeverity, readRole, readNotice, readFlag, readFloor, hb, and_self]

/-! Ids and the group address -/

theorem field_head (b : Byte) (l : List Byte) : field 0 1 (b :: l) = b.toNat := by simp [field, beNat]

theorem readIds_cons (b : Byte) (l : List Byte) :
    readIds (b :: l) = if l.length = b.toNat then some (l.map (fun x => x.toNat)) else none := by
  unfold readIds
  rw [field_head, List.length_cons, Nat.add_comm 1, List.drop_one, List.tail_cons]
  simp only [Nat.add_right_cancel_iff]

theorem groupBit_iff {c : Byte} {l : List Byte} (h : l[0]? = some c) :
    (field 0 1 l).testBit 0 = true ↔ c.toNat % 2 = 1 := by
  match l, h with
  | b :: l, h =>
    cases h
    rw [field_head, Nat.testBit_zero]
    exact decide_eq_true_iff

theorem readGroup_group {c : Byte} {l : List Byte} (hl : l.length = 6) (h : l[0]? = some c) (hc : c.toNat % 2 = 1) :
    readGroup l = some (BitVec.ofNat 48 (beNat l)) := if_pos ⟨hl, (groupBit_iff h).mpr hc⟩

theorem readGroup_of_some {l : List Byte} (h : readGroup l ≠ none) :
    l.length = 6 ∧ ∃ c, l[0]? = some c ∧ c.toNat % 2 = 1 := by
  unfold readGroup at h
  split at h
  · next hl =>
    obtain ⟨hl, hbit⟩ := hl
    have hget : l[0]? = some l[0] := List.getElem?_eq_getElem (by omega)
    exact ⟨hl, _, hget, (groupBit_iff hget).mp hbit⟩
  · exact absurd rfl h

/-! ## Records read from their fields (R178) -/

theorem setLine_iff {l : List Byte} {c x : LineCfg} : setLine c l = some x ↔ ∃ f0 f1 f2 f3,
    readFields [8, 1, 8, 8] l = some [f0, f1, f2, f3] ∧ readOr readIdOrAbsent c.neighbour f0 = some x.neighbour ∧
    readOr readFlag c.freeze f1 = some x.freeze ∧
    readOr (readClampedInt (-1000000) 1000000) c.asym f2 = some x.asym ∧
    readOr (readClamped 1 1000) c.errThreshold f3 = some x.errThreshold := by
  unfold setLine
  constructor
  · intro h
    split at h
    · next f0 f1 f2 f3 hf =>
      simp only [Option.bind_eq_bind, Option.bind_eq_some_iff, Option.some.injEq] at h
      obtain ⟨n, hn, z, hz, a, ha, e, he, rfl⟩ := h
      exact ⟨f0, f1, f2, f3, hf, hn, hz, ha, he⟩
    · cases h
  · rintro ⟨f0, f1, f2, f3, hf, hn, hz, ha, he⟩
    simp only [hf, hn, hz, ha, he]
    rfl

theorem setAccess_iff {l : List Byte} {c x : AccessCfg} : setAccess c l = some x ↔ ∃ f0 f1 f2 f3 f4 f5,
    readFields [1, 8, 8, 1, 1, 8] l = some [f0, f1, f2, f3, f4, f5] ∧ readOr readMode c.mode f0 = some x.mode ∧
    readOr readRate c.rate f1 = some x.rate ∧ readOr (readClamped 0 100000) c.advance f2 = some x.advance ∧
    readOr readFloor c.floor f3 = some x.floor ∧ readOr readLoss c.loss f4 = some x.loss ∧
    readOr (readClamped 1 600) c.restore f5 = some x.restore := by
  unfold setAccess
  constructor
  · intro h
    split at h
    · next f0 f1 f2 f3 f4 f5 hf =>
      simp only [Option.bind_eq_bind, Option.bind_eq_some_iff, Option.some.injEq] at h
      obtain ⟨m, hm, r, hr, a, ha, q, hq, b, hb, e, he, rfl⟩ := h
      exact ⟨f0, f1, f2, f3, f4, f5, hf, hm, hr, ha, hq, hb, he⟩
    · cases h
  · rintro ⟨f0, f1, f2, f3, f4, f5, hf, hm, hr, ha, hq, hb, he⟩
    simp only [hf, hm, hr, ha, hq, hb, he]
    rfl

theorem setRefCand_iff {l : List Byte} {c x : CandCfg} : setRefCand c l = some x ↔ ∃ f0 f1 f2 f3,
    readFields [1, 8, 8, 8] l = some [f0, f1, f2, f3] ∧ readOr readFlag c.enabled f0 = some x.enabled ∧
    readOr (readClamped 1 7) c.priority f1 = some x.priority ∧
    readOr (readClamped 1 600) c.qualify f2 = some x.qualify ∧
    readOr (readClamped 0 100000) c.cable f3 = some x.cable := by
  unfold setRefCand
  constructor
  · intro h
    split at h
    · next f0 f1 f2 f3 hf =>
      simp only [Option.bind_eq_bind, Option.bind_eq_some_iff, Option.some.injEq] at h
      obtain ⟨e, he, p, hp, q, hq, d, hd, rfl⟩ := h
      exact ⟨f0, f1, f2, f3, hf, he, hp, hq, hd⟩
    · cases h
  · rintro ⟨f0, f1, f2, f3, hf, he, hp, hq, hd⟩
    simp only [hf, he, hp, hq, hd]
    rfl

theorem setRingCand_iff {l : List Byte} {c x : CandCfg} : setRingCand c l = some x ↔ ∃ f0 f1 f2,
    readFields [1, 8, 8] l = some [f0, f1, f2] ∧ readOr readFlag c.enabled f0 = some x.enabled ∧
    readOr (readClamped 1 7) c.priority f1 = some x.priority ∧
    readOr (readClamped 1 600) c.qualify f2 = some x.qualify ∧ x.cable = c.cable := by
  unfold setRingCand
  constructor
  · intro h
    split at h
    · next f0 f1 f2 hf =>
      simp only [Option.bind_eq_bind, Option.bind_eq_some_iff, Option.some.injEq] at h
      obtain ⟨e, he, p, hp, q, hq, rfl⟩ := h
      exact ⟨f0, f1, f2, hf, he, hp, hq, rfl⟩
    · cases h
  · rintro ⟨f0, f1, f2, hf, he, hp, hq, hd⟩
    simp only [hf, he, hp, hq, ← hd]
    rfl

theorem setAlarmRecord_iff {l : List Byte} {c x : AlarmCfg} : setAlarmRecord c l = some x ↔ ∃ f0 f1 f2 f3,
    readFields [1, 1, 8, 8] l = some [f0, f1, f2, f3] ∧ readOr readSeverity c.severity f0 = some x.severity ∧
    readOr readFlag c.report f1 = some x.report ∧ readOr (readClamped 0 600) c.raiseSoak f2 = some x.raiseSoak ∧
    readOr (readClamped 0 600) c.clearSoak f3 = some x.clearSoak := by
  unfold setAlarmRecord
  constructor
  · intro h
    split at h
    · next f0 f1 f2 f3 hf =>
      simp only [Option.bind_eq_bind, Option.bind_eq_some_iff, Option.some.injEq] at h
      obtain ⟨v, hv, r, hr, u, hu, d, hd, rfl⟩ := h
      exact ⟨f0, f1, f2, f3, hf, hv, hr, hu, hd⟩
    · cases h
  · rintro ⟨f0, f1, f2, f3, hf, hv, hr, hu, hd⟩
    simp only [hf, hv, hr, hu, hd]
    rfl

theorem setAlarm_record {l : List AlarmCfg} {i : Nat} {c : AlarmCfg} (h : l[i]? = some c) (x : List Byte) :
    setAlarm l i x = (setAlarmRecord c x).map (fun y => l.set i y) := by
  unfold setAlarm
  rw [h]

theorem setAlarm_none {l : List AlarmCfg} {i : Nat} (h : l[i]? = none) (x : List Byte) : setAlarm l i x = none := by
  unfold setAlarm
  rw [h]

theorem setThermal_gradient {i : Nat} (h : i < 16) (c : ThermalTable) (l : List Byte) :
    setThermal c i l = (readGradient l).map (fun x => { c with grads := c.grads.set i x }) := by
  unfold setThermal
  split
  case h_10 => exact if_pos h
  all_goals omega

/-! ## Values of the wrong length (R182) -/

theorem setServo_length {l : List Byte} (h : l.length ≠ 8) (c : ServoTable) (i : Nat) : setServo c i l = none := by
  unfold setServo
  split <;> simp only [readClamped_length h, Option.map_none]

theorem setThermal_length {l : List Byte} (h : l.length ≠ 8) (c : ThermalTable) (i : Nat) :
    setThermal c i l = none := by
  unfold setThermal
  split <;> simp only [readClamped_length h, readClampedInt_length h, readGradient_length h, Option.map_none, ite_self]

theorem setQuality_length {l : List Byte} (h : l.length ≠ 8) (c : QualityTable) (i : Nat) :
    setQuality c i l = none := by
  unfold setQuality
  split <;> simp only [readClamped_length h, Option.map_none]

theorem setRing_length {l : List Byte} (h : l.length ≠ 8) {i : Nat} (hi : i ≠ 8) (c : RingTable) :
    setRing c i l = none := by
  unfold setRing
  split
  case h_9 => exact absurd rfl hi
  all_goals simp only [readNum_length h, readClamped_length h, readBelow_length h, readRate_length h,
    readIdOrAbsent_length h, Option.map_none]

theorem setNode_length {l : List Byte} (h : l.length ≠ 8) {i : Nat} (hi : i ∈ [0, 1, 4, 8]) (c : NodeTable) :
    setNode c i l = none := by
  simp only [List.mem_cons, List.not_mem_nil, or_false] at hi
  rcases hi with rfl | rfl | rfl | rfl <;>
    simp only [setNode, readBelow_length h, readClamped_length h, Option.map_none]

/-! ## The table as it would stand (R57, R74, R142) -/

theorem setEntries_cons (m : TableName) (e : Entry) (es : List Entry) (t : Tables) :
    setEntries m (e :: es) t = (setEntry m t e).bind (setEntries m es) := by
  rw [setEntries]
  cases setEntry m t e <;> rfl

theorem thermalOk_iff (c : ThermalTable) :
    thermalOk c = true ↔ c.ta < c.tb ∧ c.tb < c.tc ∧ c.th < c.tb - c.ta ∧ c.th < c.tc - c.tb := by
  simp only [thermalOk, Bool.and_eq_true, decide_eq_true_eq, and_assoc]

theorem membersOk_iff (r : RingTable) : membersOk r = true ↔ 1 ≤ r.members.length ∧ r.members.length ≤ 32 ∧
    (∀ i ∈ r.members, i ≤ 31) ∧ r.members.Nodup ∧ r.members.head? = some r.primary := by
  simp only [membersOk, Bool.and_eq_true, decide_eq_true_eq, List.all_eq_true, and_assoc]

theorem writeTable_none {m : TableName} {t : Tables} {es : List Entry} (h : setEntries m es t = none) :
    writeTable m t es = none := by
  unfold writeTable
  rw [h]

theorem writeTable_plain {m : TableName} {t u : Tables} {es : List Entry} (h : setEntries m es t = some u)
    (hr : m ≠ .ring) (ht : m ≠ .thermal) (hq : m ≠ .quality) : writeTable m t es = some u := by
  unfold writeTable
  rw [h]
  cases m
  case ring => exact absurd rfl hr
  case thermal => exact absurd rfl ht
  case quality => exact absurd rfl hq
  all_goals rfl

theorem writeTable_thermal {t u : Tables} {es : List Entry} (h : setEntries .thermal es t = some u) :
    writeTable .thermal t es = if u.thermal.ta < u.thermal.tb ∧ u.thermal.tb < u.thermal.tc ∧
      u.thermal.th < u.thermal.tb - u.thermal.ta ∧ u.thermal.th < u.thermal.tc - u.thermal.tb
    then some u else none := by
  unfold writeTable
  rw [h]
  simp only [thermalOk_iff]

theorem writeTable_quality {t u : Tables} {es : List Entry} (h : setEntries .quality es t = some u) :
    writeTable .quality t es = if u.quality.limit1 < u.quality.limit2 then some u else none := by
  unfold writeTable
  rw [h]

theorem writeTable_ring {t u : Tables} {es : List Entry} (h : setEntries .ring es t = some u) :
    writeTable .ring t es =
      if 1 ≤ u.ring.members.length ∧ u.ring.members.length ≤ 32 ∧ (∀ i ∈ u.ring.members, i ≤ 31) ∧
        u.ring.members.Nodup ∧ u.ring.members.head? = some u.ring.primary
      then some { u with ring := { u.ring with
        timeout := min u.ring.timeout (5 * u.ring.interval)
        gen := if u.ring.gen < 65535 then u.ring.gen + 1 else 1 } }
      else none := by
  unfold writeTable
  rw [h]
  simp only [membersOk_iff, finishRing, nextGeneration]

/-! ## The checks of a WRITE, in their order (R181) -/

/-- What is left of a WRITE of the right shape to a writable table: steps 3 to 7. -/
theorem performWrite_shaped {w : WriteArgs} {k : Nat} {m : TableName} (hk : tableOfId k = some m) (h1 : 1 ≤ w.count)
    (hlen : w.entries.length = w.count) (hrun : isRun w.first w.entries = true) (env : ReqEnv) (s : State) :
    performWrite env k w s =
      if w.entries.all (fun e => decide (e.index ≤ lastIndex m)) = false then refuse .badIndex s
      else if guarded env s then refuse .guarded s
      else if s.locks.get m ≠ .opened then refuse .locked s
      else if s.store.commit.isSome then refuse .busy s
      else if m = .ring ∧ s.tables.node.role ≠ .primary then refuse .notHead s
      else match writeTable m s.tables w.entries with
        | none => refuse .badValue s
        | some t => carryOut ((afterWrite m w.entries s).install t) := by
  have hshape : ¬ (w.count = 0 ∨ w.entries.length ≠ w.count ∨ isRun w.first w.entries = false) := by
    rw [hrun]
    simp [hlen]
    omega
  unfold performWrite
  rw [if_neg hshape, hk] <;> rfl

section
variable {w : WriteArgs} {k : Nat} {m : TableName} {env : ReqEnv} {s : State} (hk : tableOfId k = some m)
  (h1 : 1 ≤ w.count) (hlen : w.entries.length = w.count) (hrun : isRun w.first w.entries = true)
include hk h1 hlen hrun

theorem performWrite_badIndex (h : ∃ e ∈ w.entries, lastIndex m < e.index) :
    performWrite env k w s = refuse .badIndex s := by
  rw [performWrite_shaped hk h1 hlen hrun]
  refine if_pos ?_
  obtain ⟨e, he, hlt⟩ := h
  exact List.all_eq_false.mpr ⟨e, he, by rw [decide_eq_true_iff]; omega⟩

variable (hidx : ∀ e ∈ w.entries, e.index ≤ lastIndex m)
include hidx

theorem performWrite_inTable : performWrite env k w s =
    if guarded env s then refuse .guarded s
    else if s.locks.get m ≠ .opened then refuse .locked s
    else if s.store.commit.isSome then refuse .busy s
    else if m = .ring ∧ s.tables.node.role ≠ .primary then refuse .notHead s
    else match writeTable m s.tables w.entries with
      | none => refuse .badValue s
      | some t => carryOut ((afterWrite m w.entries s).install t) := by
  have hall : w.entries.all (fun e => decide (e.index ≤ lastIndex m)) = true :=
    List.all_eq_true.mpr fun e he => decide_eq_true (hidx e he)
  rw [performWrite_shaped hk h1 hlen hrun, hall, if_neg (by decide)]

theorem performWrite_guarded (hg : guarded env s = true) : performWrite env k w s = refuse .guarded s := by
  rw [performWrite_inTable hk h1 hlen hrun hidx, if_pos hg]

variable (hg : guarded env s = false)
include hg

theorem performWrite_locked (hl : s.locks.get m ≠ .opened) : performWrite env k w s = refuse .locked s := by
  rw [performWrite_inTable hk h1 hlen hrun hidx, if_neg (Bool.eq_false_iff.mp hg), if_pos hl]

variable (hl : s.locks.get m = .opened)
include hl

theorem performWrite_busy (hc : s.store.commit ≠ none) : performWrite env k w s = refuse .busy s := by
  rw [performWrite_inTable hk h1 hlen hrun hidx, if_neg (Bool.eq_false_iff.mp hg), if_neg (not_not_intro hl),
    if_pos (Option.isSome_iff_ne_none.mpr hc)]

variable (hc : s.store.commit = none)
include hc

theorem performWrite_notHead (hm : m = .ring) (hr : s.tables.node.role ≠ .primary) :
    performWrite env k w s = refuse .notHead s := by
  rw [performWrite_inTable hk h1 hlen hrun hidx, if_neg (Bool.eq_false_iff.mp hg), if_neg (not_not_intro hl), hc,
    if_neg (by decide), if_pos ⟨hm, hr⟩]

theorem performWrite_valued (hr : m ≠ .ring ∨ s.tables.node.role = .primary) : performWrite env k w s =
    match writeTable m s.tables w.entries with
    | none => refuse .badValue s
    | some t => carryOut ((afterWrite m w.entries s).install t) := by
  have hhead : ¬ (m = .ring ∧ s.tables.node.role ≠ .primary) := fun h => hr.elim (fun hm => hm h.1) h.2
  rw [performWrite_inTable hk h1 hlen hrun hidx, if_neg (Bool.eq_false_iff.mp hg), if_neg (not_not_intro hl), hc,
    if_neg (by decide), if_neg hhead]

theorem performWrite_badValue (hr : m ≠ .ring ∨ s.tables.node.role = .primary)
    (hw : writeTable m s.tables w.entries = none) : performWrite env k w s = refuse .badValue s := by
  rw [performWrite_valued hk h1 hlen hrun hidx hg hl hc hr, hw]

theorem performWrite_taken {t : Tables} (hr : m ≠ .ring ∨ s.tables.node.role = .primary)
    (hw : writeTable m s.tables w.entries = some t) :
    performWrite env k w s = carryOut ((afterWrite m w.entries s).install t) := by
  rw [performWrite_valued hk h1 hlen hrun hidx hg hl hc hr, hw]

end

/-! ## The statement -/

/-- A field read as a value fills its place. -/
theorem map_read {α β : Type} {f : α → β} {o : Option α} {x : α} {y : β} (h : o = some x) (hy : f x = y) :
    o.map f = some y := by
  rw [h, ← hy]
  rfl

/-- A field read under a condition fills its place under it. -/
theorem map_read_if {α β : Type} {p : Prop} [Decidable p] {f : α → β} {o : Option α} {x : α}
    (h : o = if p then some x else none) : o.map f = if p then some (f x) else none := by
  rw [h]
  split <;> rfl

/-- R181: the checks of a WRITE command, each in its turn. -/
theorem writeCommand_refusals (m : TableName) (n : Nat) (env : ReqEnv) (w : WriteArgs) (s c : State)
    (hc : c = (s.elapse n).counted) (heard : heardRequest env s = true) :
    (w.count = 0 ∨ w.entries.length ≠ w.count ∨ isRun w.first w.entries = false →
      exec (writeCommand m n env w) s = .next (c.answer env .badRequest [] .plain)) ∧
    (1 ≤ w.count → w.entries.length = w.count → isRun w.first w.entries = true →
      ((∃ e ∈ w.entries, lastIndex m < e.index) →
        exec (writeCommand m n env w) s = .next (c.answer env .badIndex [] .plain)) ∧
      ((∀ e ∈ w.entries, e.index ≤ lastIndex m) →
        (s.tables.node.ringGuard = true → (∃ d, env.via = .line d) →
          exec (writeCommand m n env w) s = .next (c.answer env .guarded [] .plain)) ∧
        (s.tables.node.ringGuard = false ∨ (∃ d, env.via = .site d) →
          (s.locks.get m ≠ .opened →
            exec (writeCommand m n env w) s = .next (c.answer env .locked [] .plain)) ∧
          (s.locks.get m = .opened → s.store.commit ≠ none →
            exec (writeCommand m n env w) s = .next (c.answer env .busy [] .plain)) ∧
          (s.locks.get m = .opened → s.store.commit = none → m = .ring → s.tables.node.role ≠ .primary →
            exec (writeCommand m n env w) s = .next (c.answer env .notHead [] .plain)) ∧
          (s.locks.get m = .opened → s.store.commit = none → m ≠ .ring ∨ s.tables.node.role = .primary →
            writeTable m s.tables w.entries = none →
            exec (writeCommand m n env w) s = .next (c.answer env .badValue [] .plain))))) := by
  obtain ⟨k, hk, hexec⟩ := exec_writeCommand m
  have refused : ∀ {st : Status}, performWrite env k w c = refuse st c → st ≠ .done →
      exec (writeCommand m n env w) s = .next (c.answer env st [] .plain) := by
    subst hc
    intro st hf hst
    rw [hexec, serve_refused heard _ hf hst]
  have opens : s.tables.node.ringGuard = false ∨ (∃ d, env.via = .site d) → guarded env c = false := by
    subst hc
    exact fun h => guarded_clear (s := s) h
  have stops : s.tables.node.ringGuard = true → (∃ d, env.via = .line d) → guarded env c = true := by
    subst hc
    exact fun h hd => guarded_set (s := s) h hd
  have hlocks : c.locks = s.locks := by subst hc; rfl
  have hstore : c.store = s.store := by subst hc; rfl
  have htables : c.tables = s.tables := by subst hc; rfl
  refine ⟨fun h => refused (performWrite_badRequest h _ _ _) (by decide), fun h1 hlen hrun => ⟨fun h =>
    refused (performWrite_badIndex hk h1 hlen hrun h) (by decide), fun hidx => ⟨fun hset hvia =>
    refused (performWrite_guarded hk h1 hlen hrun hidx (stops hset hvia)) (by decide), fun hopen => ?_⟩⟩⟩
  rw [← hlocks, ← hstore, ← htables]
  exact ⟨
    fun hl => refused (performWrite_locked hk h1 hlen hrun hidx (opens hopen) hl) (by decide),
    fun hl hcom => refused (performWrite_busy hk h1 hlen hrun hidx (opens hopen) hl hcom) (by decide),
    fun hl hcom hm hr => refused (performWrite_notHead hk h1 hlen hrun hidx (opens hopen) hl hcom hm hr) (by decide),
    fun hl hcom hr hw => refused (performWrite_badValue hk h1 hlen hrun hidx (opens hopen) hl hcom hr hw) (by decide)⟩

/-- Settles O50: the checks of the request, the checks on the table, and every field with its range or its codes. -/
theorem refusedWriteChangesNothing : Obligations.RefusedWriteChangesNothing := by
  refine ⟨writeCommand_refusals, fun m t e es => ⟨rfl, fun h => ?_, fun u h => ?_, writeTable_none, fun u h =>
    ⟨writeTable_plain h, ?_, ?_, ?_⟩⟩, fun t l x clamp within hlen hx hclamp hwithin => ?_, fun t i l h =>
    ⟨setServo_length h _ _, setThermal_length h _ _, setQuality_length h _ _, fun hi => setRing_length h hi _,
      fun hi => setNode_length h hi _⟩, fun b l => ?_, fun b k ks l => ⟨rfl, rfl, rfl⟩, fun α read old l => ⟨rfl, rfl⟩,
    fun l c x => setLine_iff, fun l c x => setAccess_iff, fun l c x => ⟨setRefCand_iff, setRingCand_iff⟩,
    fun l c x => setAlarmRecord_iff, fun t i l => ?_⟩
  · rw [setEntries_cons, h]
    rfl
  · rw [setEntries_cons, h]
    rfl
  · rintro rfl
    exact writeTable_thermal h
  · rintro rfl
    exact writeTable_quality h
  · rintro rfl
    exact writeTable_ring h
  · subst hx
    have num : ∀ lo hi, lo ≤ hi → readClamped lo hi l = some (clamp lo hi) := fun lo hi h =>
      (readClamped_eight hlen h).trans (congrArg some (hclamp lo hi).symm)
    have int : ∀ lo hi, lo ≤ hi → readClampedInt lo hi l = some (within lo hi) := fun lo hi h =>
      (readClampedInt_eight hlen h).trans (congrArg some (hwithin lo hi).symm)
    have below : ∀ hi : Nat, readBelow hi l = _ := readBelow_eight hlen
    refine ⟨map_read (num _ _ (by decide)) rfl, map_read (num _ _ (by decide)) rfl, map_read (num _ _ (by decide)) rfl,
      map_read (num _ _ (by decide)) rfl, map_read (num _ _ (by decide)) rfl, map_read (num _ _ (by decide)) rfl,
      map_read (num _ _ (by decide)) rfl, map_read (num _ _ (by decide)) rfl, fun i hi => ?_,
      map_read (int _ _ (by decide)) rfl, map_read (int _ _ (by decide)) rfl, map_read (int _ _ (by decide)) rfl,
      map_read (int _ _ (by decide)) rfl, map_read (num _ _ (by decide)) rfl, map_read (num _ _ (by decide)) rfl,
      map_read (num _ _ (by decide)) rfl, map_read (num _ _ (by decide)) rfl, map_read (num _ _ (by decide)) rfl,
      map_read (num _ _ (by decide)) rfl, map_read (num _ _ (by decide)) rfl, map_read (num _ _ (by decide)) rfl,
      map_read (readRate_eight hlen) rfl, map_read (num _ _ (by decide)) rfl, map_read (num _ _ (by decide)) rfl,
      map_read_if (below 31), ?_, map_read (num _ _ (by decide)) rfl, map_read (num _ _ (by decide)) rfl,
      map_read_if (below 31), map_read_if (below 255), map_read_if (below 65535), map_read (num _ _ (by decide)) rfl,
      fun i hi => ?_, map_read (readNum_eight hlen) rfl, readRate_eight hlen, readIdOrAbsent_eight hlen, num,
      int _ _ (by decide)⟩
    · rw [setThermal_gradient hi]
      exact map_read_if (readGradient_eight hlen)
    · change (readIdOrAbsent l).map _ = _
      rw [readIdOrAbsent_eight hlen]
      split_ifs <;> rfl
    · match i, hi with
      | _ + 9, _ => rfl
  · refine ⟨readMode_byte b, readLoss_byte b, readSeverity_byte b, readRole_byte b, readNotice_byte b, readFlag_byte b,
      readFloor_byte b, readCodes_length, fun h => ?_, fun h => ?_, rfl, fun h lo hi lo' hi' =>
      ⟨readClamped_length h _ _, readClampedInt_length h _ _, readRate_length h, readBelow_length h _,
        readGradient_length h, readIdOrAbsent_length h⟩, fun c hl h hc => readGroup_group hl h hc, readGroup_of_some⟩
    · rw [readIds_cons, if_pos h]
    · rw [readIds_cons, if_neg h]
  · refine ⟨rfl, rfl, fun k => ?_, rfl, rfl, rfl, fun c h => setAlarm_record h l, fun h => setAlarm_none h l, rfl, rfl,
      rfl, rfl, rfl, rfl, fun e he => ?_⟩
    · match k with
      | 0 | 1 | 2 | 3 => rfl
    · subst he
      exact ⟨rfl, rfl, rfl, rfl, rfl, rfl, rfl, rfl⟩

end Sys2Proof.Machine
end

section
/-! READ: the answer and its way, the items served, and every table with its records. O48. -/

namespace Sys2Proof.Machine

/-! ## The answer and its way (R180, R185, R186, R191) -/

section
variable {t : Tables} {env : ReqEnv} {st : Status} {es : List Entry} {note : Note} {v : Live} {b : RespBody}
  (hb : b = { tag := env.tag, relay := env.relay, status := st, count := es.length, entries := es })
include hb

theorem respond_site {d : Side} (hvia : env.via = .site d) : respond t env st es note v = siteResponse t d b note v := by
  subst hb
  unfold respond
  rw [hvia]

theorem respond_line {d : Side} {r : RelayFields} (hvia : env.via = .line d) (hrel : env.relay = some r) :
    respond t env st es note v = ringResponse t d r.requester b note v := by
  subst hb
  unfold respond
  rw [hvia, hrel]

end

theorem ringResponse_sent {t : Tables} {d g : Side} {q : Nat} {v : Live} (h : openSide v (responseSide t d q) = some g)
    (b : RespBody) (note : Note) : ringResponse t d q b note v =
      hand (.line g)
        (mkFrame t
          { ring := t.node.ringId, rev := g.outRev, looped := false, origin := t.node.id, sender := t.node.id,
            target := q, hops := 0, seq := v.mgmt.seq + 1 } (.response b) note)
        { v with mgmt := { v.mgmt with seq := v.mgmt.seq + 1 } } := by
  unfold ringResponse
  rw [h]
  rfl

theorem ringResponse_dropped {t : Tables} {d : Side} {q : Nat} {v : Live} (h : openSide v (responseSide t d q) = none)
    (b : RespBody) {note : Note} (hn : note ≠ .restart) : ringResponse t d q b note v = mgmtDrop v := by
  unfold ringResponse
  rw [h]
  cases note
  case restart => exact absurd rfl hn
  all_goals rfl

theorem ringResponse_restart {t : Tables} {d : Side} {q : Nat} {v : Live} (h : openSide v (responseSide t d q) = none)
    (b : RespBody) : ringResponse t d q b .restart v = { mgmtDrop v with restartDue := true } := by
  unfold ringResponse
  rw [h]

/-! ## The items served (R181, R182) -/

theorem takeEntries_front {count room i : Nat} {x : List Byte} (hc : 1 ≤ count) (hx : 4 + x.length ≤ room)
    (l : List (List Byte)) : 1 ≤ (takeEntries count room i (x :: l)).length := by
  match count, hc with
  | c + 1, _ =>
    rw [takeEntries, if_pos hx]
    exact Nat.succ_le_succ (Nat.zero_le _)

theorem performRead_none {relay : Option RelayFields} {table count : Nat} {s : State} (hc : 1 ≤ count)
    (ht : tableEntries s table = none) (first : Nat) : performRead relay table first count s = refuse .badTable s := by
  unfold performRead
  rw [if_neg (by omega), ht]

theorem performRead_beyond {relay : Option RelayFields} {table first count : Nat} {s : State} {l : List (List Byte)}
    (hc : 1 ≤ count) (ht : tableEntries s table = some l) (hl : l.length ≤ first) :
    performRead relay table first count s = refuse .badIndex s := by
  unfold performRead
  rw [if_neg (by omega), ht]
  exact if_pos hl

theorem performRead_served {relay : Option RelayFields} {table first count : Nat} {s : State} {l : List (List Byte)}
    (hc : 1 ≤ count) (ht : tableEntries s table = some l) (hl : first < l.length)
    (hs : 1 ≤ (serveEntries relay first count l).length) : performRead relay table first count s =
      { status := .done, entries := serveEntries relay first count l, state := s } := by
  unfold performRead
  rw [if_neg (by omega), ht]
  refine (if_neg (Nat.not_le.mpr hl)).trans ?_
  split
  · next hnil =>
    rw [hnil] at hs
    exact absurd hs (by decide)
  · rfl

theorem serveEntries_front {relay : Option RelayFields} {first count : Nat} {l : List (List Byte)} {x : List Byte}
    (hc : 1 ≤ count) (hx : l[first]? = some x) (hfit : responseFixed relay + (4 + x.length) ≤ 1500) :
    1 ≤ (serveEntries relay first count l).length := by
  obtain ⟨hlt, hget⟩ := List.getElem?_eq_some_iff.mp hx
  unfold serveEntries
  rw [List.drop_eq_getElem_cons hlt, hget]
  exact takeEntries_front hc (by omega) _

/-- What is served: a run of the table's items, as long as the count, the table and the frame allow. -/
theorem serveEntries_spec {relay : Option RelayFields} {first count : Nat} {l : List (List Byte)}
    (hl : first < l.length) (hroom : responseFixed relay ≤ 1500) {es : List Entry}
    (hes : es = serveEntries relay first count l) :
    es.length ≤ count ∧ first + es.length ≤ l.length ∧ responseFixed relay + (encodeEntries es).length ≤ 1500 ∧
    (∀ i, i < es.length → ∃ y, l[first + i]? = some y ∧ es[i]? = some { index := first + i, value := y }) ∧
    (∀ y, es.length < count → l[first + es.length]? = some y →
      1500 < responseFixed relay + (encodeEntries es).length + (4 + y.length)) := by
  have hspec := takeEntries_spec count (1500 - responseFixed relay) first (l.drop first)
  have hes' : takeEntries count (1500 - responseFixed relay) first (l.drop first) = es := hes.symm
  rw [hes'] at hspec
  obtain ⟨hcount, hlen, hbytes, hget, hcut⟩ := hspec
  rw [List.length_drop] at hlen
  refine ⟨hcount, by omega, by omega, fun i hi => ?_, fun y hy hnext => ?_⟩
  · obtain ⟨y, hy, hey⟩ := hget i hi
    exact ⟨y, List.getElem?_drop ▸ hy, hey⟩
  · have := hcut y hy (List.getElem?_drop.trans hnext)
    omega

theorem responseFixed_le (relay : Option RelayFields) : responseFixed relay ≤ 1500 := by
  unfold responseFixed
  split <;> decide

/-! ## The encodings (section 12.2) -/

theorem num_length (x : Int) : (num x).length = 8 := beBytes_length 8 _

theorem beInt_num {x : Int} (hlo : -(2 ^ 63) ≤ x) (hhi : x < 2 ^ 63) : beInt (num x) = x := by
  refine beInt_beBytesInt ?_ ?_
  · norm_num at hlo ⊢
    omega
  · norm_num at hhi ⊢
    omega

theorem byte_eq (k : Nat) : byte k = [BitVec.ofNat 8 k] := by simp [byte, beBytes]

theorem record_append (a b : List (Option (List Byte))) : record (a ++ b) = record a ++ record b := List.flatMap_append

/-! ## The places of the ids in the member list -/

theorem posOf_eq_none {i : Nat} : ∀ {l : List Nat}, posOf i l = none ↔ i ∉ l
  | [] => by simp [posOf]
  | x :: l => by
    rw [posOf]
    split
    · next h => simp [h]
    · next h =>
      rw [Option.map_eq_none_iff, posOf_eq_none, List.mem_cons, not_or]
      exact ⟨fun hl => ⟨Ne.symm h, hl⟩, And.right⟩

theorem posOf_eq_some {i : Nat} : ∀ {l : List Nat} {k : Nat}, posOf i l = some k →
    l[k]? = some i ∧ ∀ j, j < k → l[j]? ≠ some i
  | [], _, h => by cases h
  | x :: l, k, h => by
    rw [posOf] at h
    split at h
    · next hx =>
      cases h
      exact ⟨congrArg some hx, fun j hj => absurd hj (Nat.not_lt_zero j)⟩
    · next hx =>
      obtain ⟨k', hk', rfl⟩ := Option.map_eq_some_iff.mp h
      obtain ⟨hget, hbefore⟩ := posOf_eq_some hk'
      refine ⟨hget, fun j hj => ?_⟩
      match j with
      | 0 => exact fun h0 => hx (Option.some.inj h0)
      | j + 1 => exact hbefore j (Nat.lt_of_succ_lt_succ hj)

theorem posOf_isSome (i : Nat) (l : List Nat) : (posOf i l).isSome = decide (i ∈ l) := by
  by_cases h : i ∈ l
  · rw [decide_eq_true h]
    exact Option.isSome_iff_ne_none.mpr fun hn => posOf_eq_none.mp hn h
  · rw [decide_eq_false h, posOf_eq_none.mpr h]
    rfl

/-! ## The read-only tables of many records -/

theorem mapRecords_length (t : Tables) (v : Live) : ∀ (l : List MapEntry) (i : Nat),
    (mapRecords t v i l).length = l.length
  | [], _ => rfl
  | _ :: l, i => congrArg Nat.succ (mapRecords_length t v l (i + 1))

theorem mapRecords_get (t : Tables) (v : Live) (l : List MapEntry) : ∀ (k i : Nat) {e : MapEntry}, l[i]? = some e →
    (mapRecords t v k l)[i]? = some (mapRecord t v (k + i) e) := by
  induction l with
  | nil => exact fun k i e h => by cases h
  | cons x l ih =>
    intro k i e h
    rw [mapRecords]
    cases i with
    | zero =>
      obtain rfl : x = e := Option.some.inj h
      exact List.getElem?_cons_zero
    | succ i => rw [List.getElem?_cons_succ, ih (k + 1) i h, Nat.add_right_comm, Nat.add_assoc]

theorem pointRecords_length (osc : Nat) : ∀ (l : List Point) (i : Nat), (pointRecords osc i l).length = l.length
  | [], _ => rfl
  | _ :: l, i => congrArg Nat.succ (pointRecords_length osc l (i + 1))

theorem pointRecords_get (osc : Nat) (l : List Point) : ∀ (k i : Nat) {p : Point}, l[i]? = some p →
    (pointRecords osc k l)[i]? = some (pointRecord osc (k + i) p) := by
  induction l with
  | nil => exact fun k i p h => by cases h
  | cons x l ih =>
    intro k i p h
    rw [pointRecords]
    cases i with
    | zero =>
      obtain rfl : x = p := Option.some.inj h
      exact List.getElem?_cons_zero
    | succ i => rw [List.getElem?_cons_succ, ih (k + 1) i h, Nat.add_right_comm, Nat.add_assoc]

end Sys2Proof.Machine
end

section
/-! The records of the read-only tables as section 12.2 lays them out, and O48. -/

namespace Sys2Proof.Machine

/-! ## Items that a record states by cases -/

theorem watchItem_eq {t : Tables} {v : Live} {watch : Option (List Byte)}
    (hoff : originRole t ≠ .standby → watch = none)
    (hactive : originRole t = .standby → v.epoch.active = true → watch = none)
    (hidle : originRole t = .standby → v.epoch.active = false →
      watch = v.epoch.takeover.map (fun tm => nat (millis (tm.elapsed v.now)))) :
    (if originRole t = .standby ∧ v.epoch.active = false then
      v.epoch.takeover.map (fun tm => nat (millis (tm.elapsed v.now))) else none) = watch := by
  by_cases hrole : originRole t = .standby
  · cases ha : v.epoch.active with
    | false => rw [if_pos ⟨hrole, rfl⟩, hidle hrole ha]
    | true => rw [if_neg (by simp), hactive hrole ha]
  · rw [if_neg (fun h => hrole h.1), hoff hrole]

theorem huntItem_eq {t : Tables} {v : Live} {hunt : Option (List Byte)}
    (hoff : originRole t ≠ .standby → hunt = none)
    (hactive : originRole t = .standby → v.epoch.active = true → hunt = some (revertItem v.now v.epoch.revert))
    (hidle : originRole t = .standby → v.epoch.active = false → hunt = none) :
    (if originRole t = .standby ∧ v.epoch.active = true then some (revertItem v.now v.epoch.revert) else none) =
      hunt := by
  by_cases hrole : originRole t = .standby
  · cases ha : v.epoch.active with
    | false => rw [if_neg (by simp), hidle hrole ha]
    | true => rw [if_pos ⟨hrole, rfl⟩, hactive hrole ha]
  · rw [if_neg (fun h => hrole h.1), hoff hrole]

theorem revertItem_eq (now : Stamp) (w : Option RevertWatch) : revertItem now w = match w with
    | none => [0, 0]
    | some x => [1, 1] ++ nat (min 65535 ((interval x.start now).toNat / 1000000000)) := by
  cases w <;> rfl

theorem raisedAt_eq (l : List Point) (x : Severity) : raisedAt l x =
    (l.filter (fun p => decide ((p.state = .raised ∨ p.state = .clearing) ∧ p.severity = some x))).length := by
  unfold raisedAt Point.isRaised
  simp only [Bool.decide_and, Bool.decide_or]

theorem historyMean_eq (c : ServoTable) (l : List Int) :
    historyMean c l = max (-(c.limit : Int)) (min c.limit (Int.tdiv l.sum l.length)) := clampSym_eq _ _

theorem candStatus_ref (v : Live) : candStatus v .ref =
    record [some (byte (candStateCode v.cands.ref.state)), some (cls v.cands.ref.offered),
      v.cands.ref.last.map (fun x => num x.1 ++ nat x.2), some (nat (qualifySeconds v.now v.cands.ref)),
      some (nat v.refIn.unusable), v.refIn.expected.map nat] := by
  unfold candStatus
  dsimp only
  rw [if_pos rfl, if_pos rfl]
  exact congrArg record rfl

theorem candStatus_ring (v : Live) {c : Cand} (hc : c ≠ .ref) {r : CandRec} (hr : r = v.cands.get c) :
    candStatus v c = record [some (byte (candStateCode r.state)), some (cls r.offered), r.hops.map nat,
      r.preferred.map nat, some (items (r.origins.map originItem)), r.last.map (fun x => num x.1 ++ nat x.2),
      some (nat (qualifySeconds v.now r))] := by
  subst hr
  unfold candStatus
  dsimp only
  rw [if_neg hc, if_neg hc]
  exact congrArg record rfl

/-! ## The tables (R178) -/

theorem tableEntries_unnamed {id : Nat} (h : id = 0 ∨ 9 ≤ id ∧ id ≤ 15 ∨ 26 ≤ id) (s : State) :
    tableEntries s id = none := by
  rcases h with rfl | ⟨hlo, hhi⟩ | hlo
  · rfl
  · interval_cases id <;> rfl
  · match id, hlo with
    | _ + 26, _ => rfl

/-- Each table with as many indices as R178 gives it. -/
theorem tableEntries_length {s : State} (hg : s.tables.thermal.grads.length = 16) (ha : s.tables.alarm.length = 16)
    (hm : s.live.roll.map.length = 32) (hp : s.live.alarms.points.length = 21) {id k : Nat}
    (h : (id, k) ∈ [(1, 10), (2, 9), (3, 6), (4, 3), (5, 8), (6, 25), (7, 3), (8, 16), (16, 1), (17, 4), (18, 2),
      (19, 33), (20, 22), (21, 1 + s.live.alarms.history.length), (22, 8), (23, 1), (24, 4),
      (25, 1 + s.live.servo.history.length)]) : ∃ l, tableEntries s id = some l ∧ l.length = k := by
  simp only [List.mem_cons, List.not_mem_nil, or_false, Prod.mk.injEq] at h
  rcases h with ⟨rfl, rfl⟩ | ⟨rfl, rfl⟩ | ⟨rfl, rfl⟩ | ⟨rfl, rfl⟩ | ⟨rfl, rfl⟩ | ⟨rfl, rfl⟩ | ⟨rfl, rfl⟩ | ⟨rfl, rfl⟩ |
    ⟨rfl, rfl⟩ | ⟨rfl, rfl⟩ | ⟨rfl, rfl⟩ | ⟨rfl, rfl⟩ | ⟨rfl, rfl⟩ | ⟨rfl, rfl⟩ | ⟨rfl, rfl⟩ | ⟨rfl, rfl⟩ | ⟨rfl, rfl⟩ |
    ⟨rfl, rfl⟩
  · exact ⟨_, rfl, rfl⟩
  · exact ⟨_, rfl, rfl⟩
  · exact ⟨_, rfl, rfl⟩
  · exact ⟨_, rfl, rfl⟩
  · exact ⟨_, rfl, rfl⟩
  · exact ⟨_, rfl, by simp [writableEntries, thermalEntries, hg]⟩
  · exact ⟨_, rfl, rfl⟩
  · exact ⟨_, rfl, by simp [writableEntries, ha]⟩
  · exact ⟨_, rfl, rfl⟩
  · exact ⟨_, rfl, rfl⟩
  · exact ⟨_, rfl, rfl⟩
  · exact ⟨_, rfl, by rw [List.length_append, mapRecords_length, hm]; rfl⟩
  · exact ⟨_, rfl, by rw [List.length_append, pointRecords_length, hp]; rfl⟩
  · exact ⟨_, rfl, by rw [List.length_cons, List.length_map, Nat.add_comm]⟩
  · exact ⟨_, rfl, rfl⟩
  · exact ⟨_, rfl, rfl⟩
  · exact ⟨_, rfl, rfl⟩
  · exact ⟨_, rfl, by rw [List.length_cons, List.length_map, Nat.add_comm]⟩

/-- R180, R186: the way an answer goes. -/
theorem respond_ways (t : Tables) (env : ReqEnv) (st : Status) (es : List Entry) (note : Note) (v : Live) (b : RespBody)
    (hb : b = { tag := env.tag, relay := env.relay, status := st, count := es.length, entries := es }) :
    (∀ d, env.via = .site d → ∃ x : Header, x.ring = t.node.ringId ∧ x.origin = t.node.id ∧ x.sender = t.node.id ∧
      x.looped = false ∧ x.hops = 0 ∧ x.seq = v.mgmt.seq + 1 ∧
      respond t env st es note v = hand (.site d) (mkFrame t x (.response b) note)
        { v with mgmt := { v.mgmt with seq := v.mgmt.seq + 1 } }) ∧
    (∀ (d e : Side) (r : RelayFields), env.via = .line d → env.relay = some r →
      e = (if r.requester ∈ t.ring.members then nearSide t.ring.members t.node.id r.requester else d) →
      (∀ g, g = e ∨ g = e.other ∧ (v.span e).state = .down → (v.span g).state ≠ .down →
        respond t env st es note v = hand (.line g)
          (mkFrame t
            { ring := t.node.ringId, rev := g.outRev, looped := false, origin := t.node.id, sender := t.node.id,
              target := r.requester, hops := 0, seq := v.mgmt.seq + 1 } (.response b) note)
          { v with mgmt := { v.mgmt with seq := v.mgmt.seq + 1 } }) ∧
      (∀ w : Live, (∀ g, (v.span g).state = .down) →
        w = { v with mgmt := { v.mgmt with drops := min 65535 (v.mgmt.drops + 1) } } →
        (note ≠ .restart → respond t env st es note v = w) ∧
        (note = .restart → respond t env st es note v = { w with restartDue := true }))) := by
  refine ⟨fun d hvia => ?_, fun d e r hvia hrel he => ⟨fun g hg hup => ?_, fun w hdown hw => ⟨fun hn => ?_, ?_⟩⟩⟩
  · obtain ⟨x, h1, h2, h3, h4, h5, h6, h⟩ := siteResponse_eq t d b note v
    exact ⟨x, h1, h2, h3, h4, h5, h6, (respond_site hb hvia).trans h⟩
  · have hside : openSide v (responseSide t d r.requester) = some g := by
      rw [show responseSide t d r.requester = e from he.symm]
      refine openSide_open ?_ hup
      rcases hg with rfl | ⟨rfl, hdown⟩
      · exact (if_neg hup).symm
      · exact (if_pos hdown).symm
    exact (respond_line hb hvia hrel).trans (ringResponse_sent hside b note)
  · exact (respond_line hb hvia hrel).trans ((ringResponse_dropped (openSide_down (hdown _) (hdown _)) b hn).trans hw.symm)
  · subst hw
    rintro rfl
    exact (respond_line hb hvia hrel).trans (ringResponse_restart (openSide_down (hdown _) (hdown _)) b)

/-- R181, R182: the checks of a READ, and the items it is served. -/
theorem read_served (n : Nat) (env : ReqEnv) (table first count : Nat) (s c : State) (hc : c = (s.elapse n).counted)
    (heard : heardRequest env s = true) :
    (count = 0 → exec (.read n env table first count) s = .next (c.answer env .badRequest [] .plain)) ∧
    (1 ≤ count → tableEntries c table = none →
      exec (.read n env table first count) s = .next (c.answer env .badTable [] .plain)) ∧
    (∀ l, 1 ≤ count → tableEntries c table = some l → l.length ≤ first →
      exec (.read n env table first count) s = .next (c.answer env .badIndex [] .plain)) ∧
    (∀ l x, 1 ≤ count → tableEntries c table = some l → l[first]? = some x →
      12 + (if env.relay.isSome then 10 else 6) + (4 + x.length) ≤ 1500 →
      ∃ es : List Entry, exec (.read n env table first count) s = .next (c.answer env .done es .plain) ∧
        1 ≤ es.length ∧ es.length ≤ count ∧ first + es.length ≤ l.length ∧
        12 + (if env.relay.isSome then 10 else 6) + (encodeEntries es).length ≤ 1500 ∧
        (∀ i, i < es.length → ∃ y, l[first + i]? = some y ∧ es[i]? = some { index := first + i, value := y }) ∧
        (∀ y, es.length < count → l[first + es.length]? = some y →
          1500 < 12 + (if env.relay.isSome then 10 else 6) + (encodeEntries es).length + (4 + y.length))) := by
  subst hc
  refine ⟨fun h => ?_, fun h1 ht => ?_, fun l h1 ht hl => ?_, fun l x h1 ht hx hfit => ?_⟩
  · exact congrArg Host.Outcome.next (serve_refused heard _ (if_pos h) (by decide))
  · exact congrArg Host.Outcome.next (serve_refused heard _ (performRead_none h1 ht first) (by decide))
  · exact congrArg Host.Outcome.next (serve_refused heard _ (performRead_beyond h1 ht hl) (by decide))
  · obtain ⟨hlt, -⟩ := List.getElem?_eq_some_iff.mp hx
    have hfront := serveEntries_front h1 hx hfit
    refine ⟨_, congrArg Host.Outcome.next ?_, hfront, serveEntries_spec hlt (responseFixed_le env.relay) rfl⟩
    rw [serve_heard heard, performRead_served h1 ht hlt hfront]
    rfl

/-- Section 12.2: the encodings of the items (assumptions 27 to 29). -/
theorem item_encodings :
    (∀ x : Int, num x = beBytesInt 8 x ∧ (-(2 ^ 63) ≤ x → x < 2 ^ 63 → (num x).length = 8 ∧ beInt (num x) = x)) ∧
    (∀ k : Nat, nat k = num k ∧ byte k = [BitVec.ofNat 8 k] ∧ (∀ l, items l = byte l.length ++ l.flatten)) ∧
    (∀ b : Bool, flag b = [if b then 1 else 0]) ∧ (∀ c : QClass, cls c = byte c.num) ∧
    (∀ x : NsTime, encodeTime x = beBytes 6 x.sec ++ beBytes 4 x.ns) ∧ record [] = [] ∧
    (∀ fs, record (none :: fs) = 0 :: record fs) ∧ (∀ x fs, record (some x :: fs) = 1 :: (x ++ record fs)) :=
  ⟨fun x => ⟨rfl, fun hlo hhi => ⟨num_length x, beInt_num hlo hhi⟩⟩, fun k => ⟨rfl, byte_eq k, fun _ => rfl⟩,
    fun b => by cases b <;> rfl, fun _ => rfl, fun _ => rfl, rfl, fun _ => rfl, fun _ _ => rfl⟩

/-- R28, R120: the three candidates' status and the origin status. -/
theorem statusTable_eq (s : State) (t : Tables) (v : Live) (ht : t = s.tables) (hv : v = s.live) :
    (∃ (ring : Side → List Byte) (ref org : List Byte) (secs : Cand → Nat) (last : Cand → Option (List Byte)),
      tableEntries s 17 = some [ref, ring .west, ring .east, org] ∧
      (∀ c, secs c = (match (v.cands.get c).qual with
        | some tm => (tm.base + interval tm.since v.now).toNat / 1000000000000
        | none => 0)) ∧
      (∀ c, last c = (v.cands.get c).last.map (fun x => num x.1 ++ nat x.2)) ∧
      ref = record [some (byte (candStateCode v.cands.ref.state)), some (cls v.cands.ref.offered), last .ref,
        some (nat (secs .ref)), some (nat v.refIn.unusable), v.refIn.expected.map nat] ∧
      (∀ d r, r = v.cands.get d.cand → ring d =
        record [some (byte (candStateCode r.state)), some (cls r.offered), r.hops.map nat, r.preferred.map nat,
          some (items (r.origins.map (fun o =>
            nat o.id ++ nat o.rank ++ cls o.cls ++ nat o.hops ++ encodeTime (toNs o.heardAt.time)))),
          last d.cand, some (nat (secs d.cand))]) ∧
      (∀ watch hunt : Option (List Byte),
        (originRole t ≠ .standby → watch = none ∧ hunt = none) →
        (originRole t = .standby → v.epoch.active = true → watch = none ∧ hunt = some (match v.epoch.revert with
          | none => [0, 0]
          | some x => [1, 1] ++ nat (min 65535 ((interval x.start v.now).toNat / 1000000000)))) →
        (originRole t = .standby → v.epoch.active = false → hunt = none ∧ watch = v.epoch.takeover.map (fun tm =>
          nat (min 65535 ((tm.base + interval tm.since v.now).toNat / 1000000000)))) →
        org = record [some (byte (originRoleCode (originRole t))), some (flag v.epoch.active),
          (match originRole t with
            | .primary => some (nat 0)
            | .standby => some (nat 1)
            | .none => none),
          some (nat t.ring.rate), some (nat v.epoch.origSeq.toNat), watch, hunt,
          v.manual.map (fun c => byte (match c with
            | .ref => 0
            | .fwd => 1
            | .rev => 2))])) := by
  subst ht hv
  refine ⟨fun d => candStatus s.live d.cand, candStatus s.live .ref, originStatus s.tables s.live,
    fun c => qualifySeconds s.live.now (s.live.cands.get c),
    fun c => (s.live.cands.get c).last.map (fun x => num x.1 ++ nat x.2),
    rfl, fun c => rfl, fun c => rfl, ?_, ?_, fun watch hunt hoff hactive hidle => ?_⟩
  · exact candStatus_ref s.live
  · rintro d r rfl
    exact candStatus_ring s.live (by cases d <;> decide) rfl
  · have hwatch := watchItem_eq (fun h => (hoff h).1) (fun h ha => (hactive h ha).1) fun h ha => (hidle h ha).2
    have hhunt := huntItem_eq (fun h => (hoff h).2)
      (fun h ha => (hactive h ha).2.trans (congrArg some (revertItem_eq _ _).symm)) fun h ha => (hidle h ha).1
    unfold originStatus
    dsimp only
    rw [hwatch, hhunt]
    generalize originRole s.tables = role
    cases role <;> rfl

/-- R136, R139: the ring map and its summary. -/
theorem mapTable_eq (s : State) (t : Tables) (v : Live) (ht : t = s.tables) (hv : v = s.live) :
    (∃ (l : List (List Byte)) (sum : List Byte), tableEntries s 19 = some (l ++ [sum]) ∧
      l.length = v.roll.map.length ∧
      (∀ (i : Nat) (e : MapEntry) (head : Option (List Byte) → Option (List Byte)), v.roll.map[i]? = some e →
        (∀ x, head x = if v.epoch.active then x else none) →
        ∃ pos : Option Nat, (pos = none ↔ i ∉ t.ring.members) ∧
          (∀ k, pos = some k → t.ring.members[k]? = some i ∧ ∀ j, j < k → t.ring.members[j]? ≠ some i) ∧
          l[i]? = some (record [some (flag (decide (i ∈ t.ring.members))), pos.map nat,
            some (byte (presenceCode e.presence)), e.slot.map (fun x => encodeSlot (some x)), head (some (nat e.miss)),
            head (e.mergeRev.map flag), head (e.mergeGen.map nat),
            head (e.config.map (fun c => byte (configStateCode c)))])) ∧
      (∀ (head : Option (List Byte) → Option (List Byte)) (set : BitVec 32 → List Byte)
          (own : List Byte → (View → List Byte) → Option (List Byte)),
        (∀ x, head x = if v.epoch.active then x else none) → (∀ x, set x = beBytes 4 x.toNat) →
        (∀ x f, own x f = if v.epoch.active then some x else v.roll.view.map f) →
        sum = record [some (flag v.epoch.active), some (byte v.roll.status.code),
          head (v.roll.fwd.map (fun x => byte (outcomeCode x.outcome))),
          head (v.roll.rev.map (fun x => byte (outcomeCode x.outcome))),
          head ((v.roll.fwd.bind (fun x => x.loopId)).map nat), head ((v.roll.rev.bind (fun x => x.loopId)).map nat),
          own (nat v.roll.seq.toNat) (fun x => nat x.seq.toNat),
          some (items (v.roll.heads.map (fun x =>
            nat x.id ++ nat x.rank ++ nat ((interval x.heardAt v.now).toNat / 1000000000)))),
          (preferredHead v).map nat, head (v.roll.cycleTime.map nat), head (v.roll.cycleMin.map nat),
          head (v.roll.cycleMax.map nat), some (flag v.roll.duplicate.isSome),
          own (nat t.ring.gen) (fun x => nat x.headGen), own (set (silentSet v)) (fun x => set x.silent),
          own (set (mismatchSet v)) (fun x => set x.mismatch), own (set (pendingSet v)) (fun x => set x.pending)])) := by
  subst ht hv
  refine ⟨mapRecords s.tables s.live 0 s.live.roll.map, mapSummary s.tables s.live, rfl, mapRecords_length _ _ _ _,
    fun i e head he hhead => ⟨posOf i s.tables.ring.members, posOf_eq_none, fun k hk => posOf_eq_some hk, ?_⟩,
    fun head set own hhead hset hown => ?_⟩
  · obtain rfl : head = headOnly s.live := funext hhead
    rw [mapRecords_get _ _ _ 0 i he, Nat.zero_add, ← posOf_isSome]
    rfl
  · obtain rfl : head = headOnly s.live := funext hhead
    obtain rfl : set = fun x => beBytes 4 x.toNat := funext hset
    obtain rfl : own = fun x f => if s.live.epoch.active then some x else s.live.roll.view.map f :=
      funext fun x => funext fun f => hown x f
    rfl

/-- R175: the alarm points and the summary. -/
theorem alarmsTable_eq (s : State) (v : Live) (hv : v = s.live) :
    (∃ (l : List (List Byte)) (raised : Severity → Nat), tableEntries s 20 = some (l ++
        [record [some (byte (summaryCode v.alarms.summary)),
          some (([.warning, .minor, .major, .critical] : List Severity).flatMap (fun x => nat (raised x)))]]) ∧
      l.length = v.alarms.points.length ∧
      (∀ x, raised x = (v.alarms.points.filter (fun p =>
        decide ((p.state = .raised ∨ p.state = .clearing) ∧ p.severity = some x))).length) ∧
      ∀ (i : Nat) (p : Point), v.alarms.points[i]? = some p → l[i]? = some
        (record [some (byte (pointKind i).1), some (nat (pointKind i).2), some (byte (pointStateCode p.state)),
          some (flag p.cond), some (nat (match p.soak with
            | some k => (v.osc - k) / 12500000
            | none => 0)), p.severity.map (fun x => byte (severityCode x)), some (nat p.raises)])) := by
  subst hv
  refine ⟨pointRecords s.live.osc 0 s.live.alarms.points, raisedAt s.live.alarms.points, ?_,
    pointRecords_length _ _ _, raisedAt_eq _, fun i p hp => ?_⟩
  · change some (pointRecords s.live.osc 0 s.live.alarms.points ++ [alarmSummary s.live.alarms]) = _
    unfold alarmSummary
    simp only [List.flatMap_cons, List.flatMap_nil, List.append_nil, List.append_assoc]
  · rw [pointRecords_get _ _ 0 i hp, Nat.zero_add]
    rfl

/-- R178, R190: one record of counters for each owner. -/
theorem countersTable_eq (s : State) (v : Live) (hv : v = s.live) :
    (∃ (all : List Nat → List Byte) (two : (Side → Nat) → List Nat) (four : (Fin 4 → Nat) → List Nat)
        (le se : Side → PortIO) (lock : TableName → Option (List Byte)),
      (∀ l, all l = record (l.map (fun k => some (nat k)))) ∧ (∀ f, two f = [f .east, f .west]) ∧
      (∀ f, four f = [f 0, f 1, f 2, f 3]) ∧ (∀ d, le d = v.port (.line d)) ∧ (∀ d, se d = v.port (.site d)) ∧
      (∀ m, lock m = some (byte (lockCode (s.locks.get m)))) ∧
      tableEntries s 22 = some
        [all [v.servo.phaseSteps, v.servo.gated, v.servo.skipped, v.refIn.jumps],
         all (two (fun d => (le d).fcs) ++ two (fun d => (le d).short) ++ two (fun d => (le d).overrun) ++
            two (fun d => (le d).malformed) ++ two (fun d => (se d).malformed) ++ two (fun d => (le d).misdirected) ++
            two (fun d => (se d).misdirected) ++ two (fun d => (le d).insertDrops) ++
            two (fun d => (se d).insertDrops) ++
            four (fun i => (v.port (.access i)).insertDrops) ++
            [(se .east).throughDrops, (le .east).throughDrops, (se .west).throughDrops, (le .west).throughDrops]) ++
          record [some (flag (le .east).linkLost), some (flag (le .west).linkLost)],
         all (two (fun d => (v.span d).timeouts) ++ two (fun d => (v.span d).unmatched) ++
            two (fun d => (v.span d).rejected) ++ two (fun d => (v.span d).downs)),
         all (two v.epoch.notUp.get ++ two v.epoch.wrongDir.get ++ [v.epoch.ownOrigin, v.epoch.hopLimit,
            v.epoch.unknownOrigin, v.epoch.fwdDrops, v.epoch.takeovers, v.epoch.reverts]),
         all ([v.roll.rollTimeouts, v.roll.lateRolls, v.roll.loopSwitches, v.roll.unknownHead] ++
            two v.roll.wrongDir.get ++ [v.roll.ownHead, v.roll.hopLimit, v.roll.loopDrops, v.roll.configSent,
              v.roll.configDiscards, v.roll.configDrops, v.roll.configDeferred, v.roll.configRefused]),
         all (four (fun i => (v.access.get i).sent) ++ four (fun i => (v.access.get i).replies) ++
            four (fun i => (v.access.get i).unanswered)),
         all (two v.alarms.notices.get),
         record [lock .node, lock .ring, lock .port, lock .cand, lock .servo, lock .thermal, lock .quality, lock .alarm,
            some (flag v.guard), some (flag s.store.commit.isSome), some (flag s.store.validAtLoad),
            s.store.lastCommit.map (fun x => byte (commitResultCode x)),
            some (nat (v.mgmt.relays.filter (fun x => x.entry.isSome)).length)] ++
          all [v.mgmt.executed, v.mgmt.relayed, v.mgmt.discards, v.mgmt.drops, v.mgmt.late]]) := by
  subst hv
  refine ⟨fun l => record (counters l), fun f => [f .east, f .west], fun f => [f 0, f 1, f 2, f 3],
    fun d => s.live.port (.line d), fun d => s.live.port (.site d), fun m => some (byte (lockCode (s.locks.get m))),
    fun _ => rfl, fun _ => rfl, fun _ => rfl, fun _ => rfl, fun _ => rfl, fun _ => rfl, ?_⟩
  have hport : portCounters s.live = record _ ++ record _ := record_append _ _
  have hmgmt : mgmtCounters s = record _ ++ record _ := record_append _ _
  change some (counterRecords s) = _
  unfold counterRecords
  dsimp only
  rw [hport, hmgmt]
  rfl

/-- Settles O48: the answer, its way, what is served, the encodings, and each table in its turn. -/
theorem readServesTheTable : Obligations.ReadServesTheTable := by
  refine ⟨fun _ _ _ _ _ => rfl, respond_ways, read_served, ?_, fun s t v ht hv => ?_⟩
  · obtain ⟨hnum, hnat, hflag, hcls, htime, hnil, hnone, hsome⟩ := item_encodings
    exact ⟨hnum, hnat, hflag, hcls, htime, hnil, hnone, hsome, rfl, rfl, rfl, rfl, rfl, rfl, rfl, rfl, rfl, rfl, rfl, rfl,
      rfl, rfl, rfl, rfl, rfl, rfl, rfl, rfl⟩
  subst ht hv
  refine ⟨rfl, rfl, ⟨fun d => lineRecord (s.tables.port.line.get d), fun i => accessRecord (s.tables.port.access.get i),
    rfl, ?_, ?_⟩, ⟨candRecord false, fun _ => rfl, ?_⟩, rfl, ?_, rfl, rfl, rfl, statusTable_eq s _ _ rfl rfl, ⟨spanStatus s.live, rfl, ?_⟩,
    mapTable_eq s _ _ rfl rfl, alarmsTable_eq s _ rfl, rfl, countersTable_eq s _ rfl, rfl, ⟨accessStatus s.tables s.live, rfl, ?_⟩, ?_, fun id h => tableEntries_unnamed h s,
    fun hg ha hm hp id k h => tableEntries_length hg ha hm hp h⟩
  · rintro d c rfl
    rfl
  · rintro i c rfl
    rfl
  · have href : candRecord true s.tables.cand.ref =
        candRecord false s.tables.cand.ref ++ record [some (nat s.tables.cand.ref.cable)] := record_append _ _
    exact congrArg (fun x => some [x, candRecord false s.tables.cand.fwd, candRecord false s.tables.cand.rev]) href
  · rw [List.map_append, List.append_assoc]
    rfl
  · rintro d x rfl
    rfl
  · rintro i c a rfl rfl
    rfl
  · rintro k rfl
    change some (holdSummary s.tables s.live :: _) = _
    unfold holdSummary
    rw [historyMean_eq]

end Sys2Proof.Machine
end

section
/-! What the installation of new tables leaves of the count of requests and of the holdover history: for O49. -/

namespace Sys2Proof.Machine

/-- The count of requests and the holdover history stand. -/
structure Live.Tallied (v w : Live) : Prop where
  executed : w.mgmt.executed = v.mgmt.executed
  history : w.servo.history = v.servo.history

namespace Live.Tallied

theorem refl (v : Live) : v.Tallied v := ⟨rfl, rfl⟩

theorem trans {u v w : Live} (h : u.Tallied v) (k : v.Tallied w) : u.Tallied w :=
  ⟨k.executed.trans h.executed, k.history.trans h.history⟩

theorem after {u v w : Live} (k : v.Tallied w) (h : u.Tallied v) : u.Tallied w := h.trans k

theorem of_kept {v w : Live} (h : w.kept = v.kept) : v.Tallied w :=
  ⟨congrArg Mgmt.executed (Live.mgmt_of_kept h), Live.history_of_kept h⟩

/-- A change of what a condition asks for. -/
theorem ite {v w : Live} {p : Prop} [Decidable p] (h : v.Tallied w) : v.Tallied (if p then w else v) := by
  split
  · exact h
  · exact .refl v

theorem ite_not {v w : Live} {p : Prop} [Decidable p] (h : v.Tallied w) : v.Tallied (if p then v else w) := by
  split
  · exact .refl v
  · exact h

end Live.Tallied

theorem refreshAlarms_tallied (t : Tables) (v : Live) : v.Tallied (refreshAlarms t v) := .of_kept (refreshAlarms_kept t v)

/-! ## NODE -/

theorem siteResponse_tallied (t : Tables) (d : Side) (b : RespBody) (n : Note) (v : Live) :
    v.Tallied (siteResponse t d b n v) :=
  .trans (v := stepMgmtSeq v) ⟨rfl, rfl⟩ (.of_kept (hand_kept _ _ _))

theorem relayCheck_tallied (t : Tables) (h : Nat) (v : Live) : v.Tallied (relayCheck t h v) := by
  unfold relayCheck
  split
  · next r _ =>
    split
    · exact .ite ((siteResponse_tallied t _ _ _ _).after ⟨rfl, rfl⟩)
    · exact .refl v
  · exact .refl v

theorem relayChecks_tallied (t : Tables) (l : List Nat) : ∀ v : Live, v.Tallied (relayChecks t l v) := by
  induction l with
  | nil => exact fun v => .refl v
  | cons h l ih => exact fun v => (ih _).after (relayCheck_tallied t h v)

theorem nodeEffects_tallied (old new : Tables) (v : Live) : v.Tallied (nodeEffects old new v) :=
  (relayChecks_tallied _ _ _).after (.ite_not ((refreshAlarms_tallied new _).after ⟨rfl, rfl⟩))

/-! ## RING -/

/-- The second state is the first but for the candidates and the servo, whose history stands. -/
def Live.Revised (v w : Live) : Prop :=
  ∃ cands servo, servo.history = v.servo.history ∧ w = { v with cands := cands, servo := servo }

theorem Live.Revised.trans {u v w : Live} (h : u.Revised v) (k : v.Revised w) : u.Revised w := by
  obtain ⟨c, s, hs, rfl⟩ := h
  obtain ⟨e, r, hr, rfl⟩ := k
  exact ⟨e, r, hr.trans hs, rfl⟩

theorem Live.Revised.tallied {v w : Live} (h : v.Revised w) : v.Tallied w := by
  obtain ⟨c, s, hs, rfl⟩ := h
  exact ⟨rfl, hs⟩

theorem loseInput_revised (c : Cand) (v : Live) : v.Revised (loseInput c v) := by
  unfold loseInput
  split
  · exact ⟨v.cands, v.servo, rfl, rfl⟩
  · exact ⟨v.cands, v.servo, rfl, rfl⟩
  · exact ⟨_, v.servo, rfl, rfl⟩

theorem rearm_revised (v : Live) (x : Trio CandRec) : v.Revised { rearm v with cands := x } :=
  ⟨x, (rearm v).servo, Live.history_of_kept (rearm_kept v), congrArg (fun w : Live => { w with cands := x }) (rearm_eq v)⟩

theorem reviseRing_revised (t : Tables) (c : Cand) (v : Live) : v.Revised (reviseRing t c v) := by
  cases hbest : bestOrigin (v.cands.get c).origins with
  | none =>
    unfold reviseRing
    dsimp only
    rw [hbest]
    exact loseInput_revised c v
  | some p =>
    rw [reviseRing_eq hbest]
    split
    · exact rearm_revised v _
    · exact ⟨_, v.servo, rfl, rfl⟩

theorem dropUnnamedOrigins_revised (t : Tables) (c : Cand) (v : Live) : v.Revised (dropUnnamedOrigins t c v) := by
  unfold dropUnnamedOrigins
  split
  · exact ⟨v.cands, v.servo, rfl, rfl⟩
  · exact .trans ⟨_, v.servo, rfl, rfl⟩ (reviseRing_revised t c _)

theorem statusWithoutHead_tallied (v : Live) : v.Tallied (statusWithoutHead v) := .ite ⟨rfl, rfl⟩

theorem dropUnnamed_tallied (t : Tables) (v : Live) : v.Tallied (dropUnnamed t v) :=
  .trans ((dropUnnamedOrigins_revised t .fwd v).trans (dropUnnamedOrigins_revised t .rev _)).tallied
    ((statusWithoutHead_tallied _).after ⟨rfl, rfl⟩)

theorem ringConfigs_tallied (t : Tables) (old : RingTable) (v : Live) : v.Tallied (ringConfigs t old v) := .ite ⟨rfl, rfl⟩

theorem ceaseActive_tallied (v : Live) : v.Tallied (ceaseActive v) := (statusWithoutHead_tallied _).after ⟨rfl, rfl⟩

theorem roleEffects_tallied (old new : OriginRole) (t : Tables) (v : Live) : v.Tallied (roleEffects old new t v) := by
  have hceased : v.Tallied (if v.epoch.active then ceaseActive v else v) := .ite (ceaseActive_tallied v)
  unfold roleEffects
  refine .ite_not ?_
  dsimp only
  split
  · exact hceased.trans (.trans ⟨rfl, rfl⟩ (.of_kept (becomeActive_kept t _)))
  · exact hceased.trans ⟨rfl, rfl⟩
  · exact hceased.trans ⟨rfl, rfl⟩

theorem rateEffects_tallied (t : Tables) (v : Live) : v.Tallied (rateEffects t v) := ⟨rfl, rfl⟩

theorem revertCheck_tallied (t : Tables) (v : Live) : v.Tallied (revertCheck t v) :=
  .ite (.trans (v := ceaseActive { v with epoch := { v.epoch with reverts := bump v.epoch.reverts } })
    ((ceaseActive_tallied _).after ⟨rfl, rfl⟩) ⟨rfl, rfl⟩)

theorem rollTick_tallied (t : Tables) (v : Live) : v.Tallied (rollTick t v) := by
  unfold rollTick
  dsimp only
  split
  · exact .trans (v := v.ticked) ⟨rfl, rfl⟩ (.of_kept (beginCycle_kept t _))
  · exact ⟨rfl, rfl⟩

theorem ringEffects_tallied (t : Tables) (old : RingTable) (role : OriginRole) (v : Live) :
    v.Tallied (ringEffects t old role v) := by
  unfold ringEffects
  extract_lets v1 v2 v3 v4
  have h1 : v.Tallied v1 :=
    (dropUnnamed_tallied t v).trans ((ringConfigs_tallied t old _).trans (refreshAlarms_tallied t _))
  have h2 : v.Tallied v2 := h1.trans (roleEffects_tallied role _ t v1)
  have h3 : v.Tallied v3 := h2.trans (.ite_not (rateEffects_tallied t v2))
  have h4 : v.Tallied v4 := h3.trans (revertCheck_tallied t v3)
  exact h4.trans (.ite (rollTick_tallied t v4))

/-! ## PORT -/

theorem setSpanState_tallied (d : Side) (st : SpanState) (v : Live) : v.Tallied (setSpanState d st v) :=
  .of_kept (setSpanState_kept d st v)

theorem tryUp_tallied (c : LineCfg) (d : Side) (v : Live) : v.Tallied (tryUp c d v) :=
  .ite (setSpanState_tallied d _ v)

theorem neighbourCheck_tallied (t : Tables) (d : Side) (v : Live) : v.Tallied (neighbourCheck t d v) := by
  unfold neighbourCheck
  extract_lets c fails v1 v2
  have h1 : v.Tallied v1 := ⟨rfl, rfl⟩
  have h2 : v.Tallied v2 := by
    refine h1.trans ?_
    unfold v2
    split
    · exact .ite (setSpanState_tallied d _ v1)
    · exact tryUp_tallied c d v1
  exact h2.trans (refreshAlarms_tallied t v2)

theorem lineEffects_tallied (t : Tables) (old new : LineCfg) (d : Side) (v : Live) :
    v.Tallied (lineEffects t old new d v) :=
  .trans (.trans (v := v.mapSpan d (fun s => { s with df := s.df.map (fun f => max 0 (f + (new.asym - old.asym))) }))
    ⟨rfl, rfl⟩ (.ite (.of_kept (enterDown_kept t d _)))) (neighbourCheck_tallied t d _)

theorem enterAccess_tallied (c : AccessCfg) (i : Fin 4) (st : AccessState) (tm : Option Timer) (v : Live) :
    v.Tallied (enterAccess c i st tm v) := .of_kept (enterAccess_kept c i st tm v)

theorem applyMode_tallied (old new : AccessCfg) (i : Fin 4) (v : Live) : v.Tallied (applyMode old new i v) := by
  have hwithdrawn : v.Tallied (if new.mode = .pulse then withdraw (.access i) isEpochFrame v else v) :=
    .ite (.of_kept (withdraw_kept _ _ v))
  unfold applyMode
  refine .ite_not ?_
  split
  · exact enterAccess_tallied _ _ _ _ v
  · exact hwithdrawn.trans (.ite (enterAccess_tallied _ _ _ _ _))

theorem applyFloor_tallied (old mid : AccessCfg) (i : Fin 4) (v : Live) : v.Tallied (applyFloor old mid i v) := by
  unfold applyFloor
  refine .ite_not ?_
  dsimp only
  split
  · exact .refl v
  · exact .ite (enterAccess_tallied _ _ _ _ v)
  · split
    · exact ⟨rfl, rfl⟩
    · exact .ite ⟨rfl, rfl⟩

theorem applyLoss_tallied (old new : AccessCfg) (i : Fin 4) (v : Live) : v.Tallied (applyLoss old new i v) := by
  unfold applyLoss
  refine .ite_not ?_
  dsimp only
  split
  · exact enterAccess_tallied _ _ _ _ v
  · exact enterAccess_tallied _ _ _ _ v
  · exact .refl v

theorem accessEffects_tallied (t : Tables) (old new : AccessCfg) (i : Fin 4) (v : Live) :
    v.Tallied (accessEffects t old new i v) := by
  unfold accessEffects
  extract_lets v1 v2 v3 v4 v5
  have h1 : v.Tallied v1 := (applyMode_tallied old new i v).trans (refreshAlarms_tallied t _)
  have h2 : v.Tallied v2 := h1.trans (.ite_not ⟨rfl, rfl⟩)
  have h3 : v.Tallied v3 := h2.trans ((applyFloor_tallied _ _ i v2).trans (refreshAlarms_tallied t _))
  have h4 : v.Tallied v4 := h3.trans ((applyLoss_tallied _ _ i v3).trans (refreshAlarms_tallied t _))
  have h5 : v.Tallied v5 :=
    h4.trans (.ite_not (.trans (.ite (enterAccess_tallied _ _ _ _ v4)) (refreshAlarms_tallied t _)))
  exact h5.trans (.ite_not (.ite_not ⟨rfl, rfl⟩))

theorem portEffects_tallied (old new : Tables) (v : Live) : v.Tallied (portEffects old new v) :=
  (lineEffects_tallied new _ _ .east v).trans ((lineEffects_tallied new _ _ .west _).trans
    ((accessEffects_tallied new _ _ 0 _).trans ((accessEffects_tallied new _ _ 1 _).trans
      ((accessEffects_tallied new _ _ 2 _).trans (accessEffects_tallied new _ _ 3 _)))))

/-! ## CANDIDATE, SERVO, THERMAL and ALARM-PROFILE -/

theorem followEnable_tallied (t : Tables) (c : Cand) (v : Live) : v.Tallied (followEnable t c v) := by
  unfold followEnable
  dsimp only
  split
  · exact .refl v
  · split <;> exact ⟨rfl, rfl⟩
  · split <;> exact ⟨rfl, rfl⟩
  · exact .refl v

theorem promote_tallied (t : Tables) (c : Cand) (v : Live) : v.Tallied (promote t c v) := .ite ⟨rfl, rfl⟩

theorem candEffects_tallied (t : Tables) (v : Live) : v.Tallied (candEffects t v) :=
  (followEnable_tallied t .ref v).trans ((followEnable_tallied t .fwd _).trans ((followEnable_tallied t .rev _).trans
    ((promote_tallied t .ref _).trans ((promote_tallied t .fwd _).trans (promote_tallied t .rev _)))))

theorem servoEffects_tallied (old new : ServoTable) (v : Live) : v.Tallied (servoEffects old new v) := by
  unfold servoEffects
  dsimp only
  split <;> split <;> exact ⟨rfl, rfl⟩

theorem soakChecks_tallied (t : Tables) (l : List Nat) : ∀ v : Live, v.Tallied (soakChecks t l v) := by
  induction l with
  | nil => exact fun v => .refl v
  | cons i l ih => exact fun v => (ih _).after (.of_kept (soakCheck_kept t i v))

theorem alarmEffects_tallied (old new : Tables) (v : Live) : v.Tallied (alarmEffects old new v) :=
  .ite_not (soakChecks_tallied new _ v)

theorem thermalEffects_executed (old new : ThermalTable) (v : Live) :
    (thermalEffects old new v).mgmt.executed = v.mgmt.executed ∧
      (v.servo.history = [] → (thermalEffects old new v).servo.history = []) := by
  unfold thermalEffects
  split
  · exact ⟨rfl, id⟩
  · exact ⟨rfl, fun _ => rfl⟩

/-- New tables leave the count of requests, and leave an emptied history empty. -/
theorem takeTables_tallies (old new : Tables) (v : Live) :
    (takeTables old new v).mgmt.executed = v.mgmt.executed ∧
      (v.servo.history = [] → (takeTables old new v).servo.history = []) := by
  unfold takeTables
  extract_lets v1 v2 v3 v4 v5
  have h1 : v.Tallied v1 := (refreshAlarms_tallied new v).trans (nodeEffects_tallied old new _)
  have h2 : v.Tallied v2 := h1.trans ((ringEffects_tallied new _ _ v1).trans (refreshAlarms_tallied new _))
  have h3 : v.Tallied v3 := h2.trans
    ((portEffects_tallied old new v2).trans ((candEffects_tallied new _).trans (refreshAlarms_tallied new _)))
  have h4 : v.Tallied v4 := h3.trans (servoEffects_tallied _ _ v3)
  obtain ⟨hexec, hhist⟩ := thermalEffects_executed old.thermal new.thermal v4
  have h6 := alarmEffects_tallied old new v5
  exact ⟨h6.executed.trans (hexec.trans h4.executed), fun h => h6.history.trans (hhist (h4.history.trans h))⟩

end Sys2Proof.Machine
end

section
/-! The installation of new tables, block by block: NODE and RING. For O49. -/

namespace Sys2Proof.Machine

/-! ## NODE: the duplicate flag and the relay timers (R132, R187) -/

theorem refreshAlarms_roll (t : Tables) (v : Live) :
    (refreshAlarms t v).roll = { v.roll with cycle := (refreshAlarms t v).roll.cycle } := by
  obtain ⟨a, io, c, l, r, h⟩ := refreshAlarms_alarmed t v
  rw [h]

theorem siteResponse_relays (t : Tables) (d : Side) (b : RespBody) (n : Note) (v : Live) :
    (siteResponse t d b n v).mgmt.relays = v.mgmt.relays :=
  (congrArg Mgmt.relays (hand_egress _ _ (stepMgmtSeq v)).mgmt).trans rfl

theorem siteResponse_osc (t : Tables) (d : Side) (b : RespBody) (n : Note) (v : Live) :
    (siteResponse t d b n v).osc = v.osc := (hand_egress _ _ (stepMgmtSeq v)).osc

theorem siteResponse_duplicate (t : Tables) (d : Side) (b : RespBody) (n : Note) (v : Live) :
    (siteResponse t d b n v).roll.duplicate = v.roll.duplicate :=
  (congrArg Roll.duplicate (hand_egress _ _ (stepMgmtSeq v)).roll).trans rfl

/-- A relay timer looked at: the oscillator and the duplicate flag stand, and so does every other entry. -/
theorem relayCheck_keeps (t : Tables) (h : Nat) (v : Live) : (relayCheck t h v).osc = v.osc ∧
    (relayCheck t h v).roll.duplicate = v.roll.duplicate ∧
    ∀ k, k ≠ h → (relayCheck t h v).mgmt.relays[k]? = v.mgmt.relays[k]? := by
  unfold relayCheck
  split
  · split
    · split
      · refine ⟨siteResponse_osc _ _ _ _ _, siteResponse_duplicate _ _ _ _ _, fun k hk => ?_⟩
        rw [siteResponse_relays]
        exact modifyAt_get_other _ _ (Ne.symm hk)
      · exact ⟨rfl, rfl, fun _ _ => rfl⟩
    · exact ⟨rfl, rfl, fun _ _ => rfl⟩
  · exact ⟨rfl, rfl, fun _ _ => rfl⟩

theorem relayCheck_get {t : Tables} {h : Nat} {v : Live} {r : RelaySlot} {e : RelayEntry}
    (hr : v.mgmt.relays[h]? = some r) (he : r.entry = some e) : (relayCheck t h v).mgmt.relays[h]? =
      some (if 125000 * t.node.relayTimeout ≤ v.osc - e.since then { r with entry := none } else r) := by
  have hdue : relayDue t h v = decide (125000 * t.node.relayTimeout ≤ v.osc - e.since) := by
    unfold relayDue
    simp only [hr, he]
  unfold relayCheck
  simp only [hr, he, hdue, decide_eq_true_eq]
  split
  · rw [siteResponse_relays]
    exact (modifyAt_get_map _ _ _).trans (congrArg (Option.map _) hr)
  · exact hr

theorem relayChecks_append (t : Tables) (a b : List Nat) : ∀ v : Live,
    relayChecks t (a ++ b) v = relayChecks t b (relayChecks t a v) := by
  induction a with
  | nil => exact fun _ => rfl
  | cons h a ih => exact fun v => ih _

theorem relayChecks_keeps (t : Tables) (l : List Nat) : ∀ v : Live, (relayChecks t l v).osc = v.osc ∧
    (relayChecks t l v).roll.duplicate = v.roll.duplicate ∧
    ∀ k, k ∉ l → (relayChecks t l v).mgmt.relays[k]? = v.mgmt.relays[k]? := by
  induction l with
  | nil => exact fun _ => ⟨rfl, rfl, fun _ _ => rfl⟩
  | cons h l ih =>
    intro v
    obtain ⟨hosc, hdup, hget⟩ := relayCheck_keeps t h v
    obtain ⟨ihosc, ihdup, ihget⟩ := ih (relayCheck t h v)
    refine ⟨ihosc.trans hosc, ihdup.trans hdup, fun k hk => ?_⟩
    obtain ⟨hkh, hkl⟩ := not_or.mp (mt List.mem_cons.mpr hk)
    exact (ihget k hkl).trans (hget k hkh)

/-- Each timer of a run of handles is looked at once. -/
theorem relayChecks_get {t : Tables} {l : List Nat} (hn : l.Nodup) {k : Nat} (hk : k ∈ l) {v : Live} {r : RelaySlot}
    {e : RelayEntry} (hr : v.mgmt.relays[k]? = some r) (he : r.entry = some e) :
    (relayChecks t l v).mgmt.relays[k]? =
      some (if 125000 * t.node.relayTimeout ≤ v.osc - e.since then { r with entry := none } else r) := by
  obtain ⟨a, b, rfl⟩ := List.append_of_mem hk
  obtain ⟨-, hcons, hdisj⟩ := List.nodup_append.mp hn
  have hka : k ∉ a := fun h => hdisj k h k List.mem_cons_self rfl
  have hkb : k ∉ b := (List.nodup_cons.mp hcons).1
  obtain ⟨hosc, -, hget⟩ := relayChecks_keeps t a v
  rw [relayChecks_append, relayChecks, (relayChecks_keeps t b _).2.2 k hkb, relayCheck_get ((hget k hka).trans hr) he,
    hosc]

theorem nodeEffects_duplicate (old new : Tables) (v : Live) : (nodeEffects old new v).roll.duplicate =
    if old.node.id = new.node.id then v.roll.duplicate else none := by
  unfold nodeEffects
  dsimp only
  rw [(relayChecks_keeps _ _ _).2.1]
  split
  · rfl
  · exact congrArg Roll.duplicate (refreshAlarms_roll new (clearDuplicate v))

theorem nodeEffects_relays {old new : Tables} {v : Live} {k : Nat} {r : RelaySlot} {e : RelayEntry} (hk : k < 8)
    (hr : v.mgmt.relays[k]? = some r) (he : r.entry = some e) : (nodeEffects old new v).mgmt.relays[k]? =
      some (if 125000 * new.node.relayTimeout ≤ v.osc - e.since then { r with entry := none } else r) := by
  have hsame : ∃ w : Live, nodeEffects old new v = relayChecks new (List.range 8) w ∧ w.mgmt = v.mgmt ∧ w.osc = v.osc := by
    unfold nodeEffects
    dsimp only
    split
    · exact ⟨v, rfl, rfl, rfl⟩
    · exact ⟨_, rfl, (Live.mgmt_of_kept (refreshAlarms_kept new (clearDuplicate v))).trans rfl,
        (Live.osc_of_kept (refreshAlarms_kept new (clearDuplicate v))).trans rfl⟩
  obtain ⟨w, hw, hmgmt, hosc⟩ := hsame
  rw [hw, ← hosc]
  exact relayChecks_get List.nodup_range (List.mem_range.mpr hk) (hmgmt ▸ hr) he

/-! ## What the roll engine leaves of the epoch engine -/

theorem Live.Alarmed.epoch {v w : Live} (h : v.Alarmed w) : w.epoch = v.epoch := by
  obtain ⟨_, _, _, _, _, rfl⟩ := h
  rfl

theorem sendRoll_epoch (t : Tables) (rev : Bool) (seq : Seq16) (v : Live) : (sendRoll t rev seq v).epoch = v.epoch :=
  (hand_epoch _ _ _).trans (refreshAlarms_alarmed t v).epoch

theorem sendConfig_epoch {t : Tables} {i : Nat} {v w : Live} (h : sendConfig t i v = some w) : w.epoch = v.epoch := by
  unfold sendConfig at h
  split at h
  · cases h
  · cases h
    exact hand_epoch _ _ _

theorem sendConfigs_epoch (t : Tables) (l : List Nat) : ∀ (n : Nat) (v : Live), (sendConfigs t n l v).2.epoch = v.epoch := by
  induction l with
  | nil => intro n v; cases n <;> rfl
  | cons i l ih =>
    intro n v
    cases n with
    | zero => rfl
    | succ n =>
      rw [sendConfigs]
      split
      · next w hw => exact (ih n w).trans (sendConfig_epoch hw)
      · exact ih _ v

theorem configScan_epoch (t : Tables) (v : Live) : (configScan t v).epoch = v.epoch := by
  unfold configScan
  split
  · rfl
  · exact (sendConfigs_epoch t _ _ _).trans (sendConfigs_epoch t _ 4 v)

theorem endCycle_epoch (t : Tables) (c : Cycle) (f : RollResult) (r : Option RollResult) (v : Live) :
    (endCycle t c f r v).epoch = v.epoch := configScan_epoch t _

theorem startReverse_epoch (t : Tables) (c : Cycle) (f : RollResult) (v : Live) :
    (startReverse t c f v).epoch = v.epoch := by
  unfold startReverse
  dsimp only
  split
  · exact endCycle_epoch t _ _ _ v
  · exact sendRoll_epoch t _ _ _

theorem beginCycle_epoch (t : Tables) (v : Live) : (beginCycle t v).epoch = v.epoch := by
  unfold beginCycle
  dsimp only
  split
  · exact startReverse_epoch t _ _ _
  · exact sendRoll_epoch t _ _ _

theorem rollTick_epoch (t : Tables) (v : Live) : (rollTick t v).epoch = v.epoch := by
  unfold rollTick
  dsimp only
  split
  · exact beginCycle_epoch t _
  · rfl

theorem becomeActive_epoch (t : Tables) (v : Live) : (becomeActive t v).epoch =
    { v.epoch with active := true, takeover := none, revert := none } := beginCycle_epoch t _

theorem statusWithoutHead_eq (v : Live) : statusWithoutHead v = { v with roll := { v.roll with
    status := if v.epoch.active = false ∧ v.roll.heads = [] then .unknown else v.roll.status } } := by
  unfold statusWithoutHead
  split <;> rfl

theorem ceaseActive_epoch (v : Live) : (ceaseActive v).epoch = { v.epoch with active := false, revert := none } := by
  unfold ceaseActive ceaseHead
  rw [statusWithoutHead_eq]

/-! ## RING: the origin role (R104, R114) -/

/-- The blocks with neither an active origin nor a watch (R104, R117). -/
def Live.roleless (v : Live) : Live :=
  { (if v.epoch.active then ceaseActive v else v) with
    epoch := { (if v.epoch.active then ceaseActive v else v).epoch with takeover := none, revert := none } }

/-- The blocks take up an origin role (R104, R114). -/
def takeRole (t : Tables) (v : Live) : OriginRole → Live
  | .primary => becomeActive t v
  | .standby => startTakeover v
  | .none => v

theorem roleEffects_changed {old new : OriginRole} {v : Live} (h : old ≠ new) (hrun : v.part = .running) (t : Tables) :
    roleEffects old new t v = takeRole t v.roleless new := by
  have hgo : ¬ (old = new ∨ v.part = .loading) := by
    rw [hrun]
    simp [h]
  unfold roleEffects
  rw [if_neg hgo]
  cases new <;> rfl

theorem Live.roleless_active (v : Live) : v.roleless.epoch.active = false := by
  unfold Live.roleless
  dsimp only
  by_cases ha : v.epoch.active = true
  · rw [if_pos ha, ceaseActive_epoch]
  · rw [if_neg ha]
    exact Bool.eq_false_iff.mpr ha

theorem Live.roleless_now (v : Live) : v.roleless.now = v.now := by
  unfold Live.roleless Live.now
  dsimp only
  split
  · unfold ceaseActive ceaseHead
    rw [statusWithoutHead_eq]
  · rfl

/-- A changed origin role makes the node active, starts its takeover watch, or ends both. -/
theorem roleEffects_role {old new : OriginRole} {v : Live} (h : old ≠ new) (hrun : v.part = .running) (t : Tables) :
    (roleEffects old new t v).epoch.active = decide (new = .primary) ∧
    (roleEffects old new t v).epoch.revert = none ∧
    (roleEffects old new t v).epoch.takeover =
      (if new = .standby then some { since := v.now, base := 0 } else none) := by
  rw [roleEffects_changed h hrun]
  cases new with
  | primary =>
    unfold takeRole
    rw [becomeActive_epoch]
    exact ⟨rfl, rfl, rfl⟩
  | standby =>
    refine ⟨v.roleless_active, rfl, ?_⟩
    rw [← v.roleless_now]
    rfl
  | none => exact ⟨v.roleless_active, rfl, rfl⟩

end Sys2Proof.Machine
end

section
/-! The effects of a RING write: the lists, the config states, the role, the rate, the revert watch and the roll clock.
For O49. -/

namespace Sys2Proof.Machine

/-! ## What comes before the role -/

theorem dropUnnamed_eq (t : Tables) (v : Live) : ∃ cands servo, servo.history = v.servo.history ∧
    dropUnnamed t v = dropUnnamedHeads t { v with cands := cands, servo := servo } := by
  obtain ⟨c, s, hs, h⟩ := (dropUnnamedOrigins_revised t .fwd v).trans (dropUnnamedOrigins_revised t .rev _)
  exact ⟨c, s, hs, congrArg (dropUnnamedHeads t) h⟩

theorem dropUnnamedHeads_eq (t : Tables) (v : Live) : dropUnnamedHeads t v = { v with roll := { v.roll with
    heads := v.roll.heads.filter (fun x => namesOrigin t.ring x.id)
    status := if v.epoch.active = false ∧ v.roll.heads.filter (fun x => namesOrigin t.ring x.id) = [] then .unknown
      else v.roll.status } } := by
  unfold dropUnnamedHeads
  rw [statusWithoutHead_eq]

/-- The blocks as the role finds them: the part, the time and the epoch engine stand. -/
theorem beforeRole_keeps (t : Tables) (old : RingTable) (v : Live) {a : Live}
    (ha : a = refreshAlarms t (ringConfigs t old (dropUnnamed t v))) :
    a.part = v.part ∧ a.now = v.now ∧ a.epoch = v.epoch := by
  have hconfigs : ∀ w : Live, (ringConfigs t old w).part = w.part ∧ (ringConfigs t old w).now = w.now ∧
      (ringConfigs t old w).epoch = w.epoch := by
    intro w
    unfold ringConfigs
    split <;> exact ⟨rfl, rfl, rfl⟩
  have hdrop : (dropUnnamed t v).part = v.part ∧ (dropUnnamed t v).now = v.now ∧
      (dropUnnamed t v).epoch = v.epoch := by
    obtain ⟨c, s, -, h⟩ := dropUnnamed_eq t v
    rw [h, dropUnnamedHeads_eq]
    exact ⟨rfl, rfl, rfl⟩
  have halarms := refreshAlarms_kept t (ringConfigs t old (dropUnnamed t v))
  obtain ⟨hpart, hnow, hepoch⟩ := hconfigs (dropUnnamed t v)
  rw [ha, (refreshAlarms_alarmed t _).epoch, Live.part_of_kept halarms, Live.now_of_kept halarms]
  exact ⟨hpart.trans hdrop.1, hnow.trans hdrop.2.1, hepoch.trans hdrop.2.2⟩

/-! ## What comes after it -/

theorem rollTickDue_iff (t : Tables) (v : Live) : rollTickDue t v = true ↔
    ∃ k, v.roll.clock = some k ∧ 125000 * t.ring.interval ≤ v.osc - k := by
  unfold rollTickDue rollPeriods
  cases v.roll.clock with
  | none => simp
  | some k => simp

theorem revertReached_of_none {v : Live} (h : v.epoch.revert = none) (t : Tables) : revertReached t v = false := by
  unfold revertReached
  rw [h]

theorem revertCheck_stays {t : Tables} {v : Live} (h : ¬ (originRole t = .standby ∧ v.epoch.active = true ∧
    revertReached t v = true)) : revertCheck t v = v := by
  refine if_neg ?_
  rw [Bool.and_eq_true, Bool.and_eq_true, decide_eq_true_iff, and_assoc]
  exact h

theorem revertCheck_reverts {t : Tables} {v : Live} (hrole : originRole t = .standby) (ha : v.epoch.active = true)
    (hr : revertReached t v = true) : revertCheck t v = ceaseHead { v with epoch := { v.epoch with
      active := false, revert := none, takeover := some { since := v.now, base := 0 }
      reverts := min 65535 (v.epoch.reverts + 1) } } := by
  refine (if_pos ?_).trans ?_
  · rw [hrole, ha, hr]
    rfl
  · unfold startTakeover ceaseActive ceaseHead
    rw [statusWithoutHead_eq, statusWithoutHead_eq]
    rfl

/-- What follows the role in the effects of a RING write. -/
def afterRole (t : Tables) (old : RingTable) (b : Live) : Live :=
  revertCheck t (if old.rate = t.ring.rate then b else rateEffects t b)

theorem ringEffects_ticks {t : Tables} {old : RingTable} {role : OriginRole} {v d : Live}
    (hd : d = afterRole t old (roleEffects role (originRole t) t (refreshAlarms t (ringConfigs t old (dropUnnamed t v)))))
    (hi : old.interval ≠ t.ring.interval) (hdue : rollTickDue t d = true) :
    ringEffects t old role v = rollTick t d := by
  subst hd
  exact if_pos ⟨hi, hdue⟩

theorem ringEffects_waits {t : Tables} {old : RingTable} {role : OriginRole} {v d : Live}
    (hd : d = afterRole t old (roleEffects role (originRole t) t (refreshAlarms t (ringConfigs t old (dropUnnamed t v)))))
    (h : ¬ (old.interval ≠ t.ring.interval ∧ rollTickDue t d = true)) : ringEffects t old role v = d := by
  subst hd
  exact if_neg h

theorem ringEffects_epoch {t : Tables} {old : RingTable} {role : OriginRole} {v d : Live}
    (hd : d = afterRole t old (roleEffects role (originRole t) t (refreshAlarms t (ringConfigs t old (dropUnnamed t v))))) :
    (ringEffects t old role v).epoch = d.epoch := by
  by_cases h : old.interval ≠ t.ring.interval ∧ rollTickDue t d = true
  · rw [ringEffects_ticks hd h.1 h.2]
    exact rollTick_epoch t d
  · rw [ringEffects_waits hd h]

/-- With no revert watch running, what follows the role leaves the active state and the watches. -/
theorem afterRole_role {t : Tables} {b : Live} (hrev : b.epoch.revert = none) (old : RingTable) :
    (afterRole t old b).epoch.active = b.epoch.active ∧ (afterRole t old b).epoch.revert = none ∧
      (afterRole t old b).epoch.takeover = b.epoch.takeover := by
  have hrate : ∃ c, afterRole t old b = revertCheck t c ∧ c.epoch.active = b.epoch.active ∧ c.epoch.revert = none ∧
      c.epoch.takeover = b.epoch.takeover := by
    refine ⟨_, rfl, ?_⟩
    split
    · exact ⟨rfl, hrev, rfl⟩
    · exact ⟨rfl, congrArg (Option.map _) hrev, rfl⟩
  obtain ⟨c, hc, hactive, hrevert, htakeover⟩ := hrate
  have hstays : revertCheck t c = c := revertCheck_stays fun h => by
    rw [revertReached_of_none hrevert] at h
    exact absurd h.2.2 (by decide)
  rw [hc, hstays]
  exact ⟨hactive, hrevert, htakeover⟩

theorem ringEffects_role {t : Tables} {old : RingTable} {role : OriginRole} {v : Live} (hrun : v.part = .running)
    (h : role ≠ originRole t) :
    (ringEffects t old role v).epoch.active = decide (originRole t = .primary) ∧
    (ringEffects t old role v).epoch.revert = none ∧
    (ringEffects t old role v).epoch.takeover =
      (if originRole t = .standby then some { since := v.now, base := 0 } else none) := by
  obtain ⟨hpart, hnow, -⟩ := beforeRole_keeps t old v rfl
  obtain ⟨hactive, hrevert, htakeover⟩ := roleEffects_role h (hpart.trans hrun) t
  obtain ⟨hactive', hrevert', htakeover'⟩ := afterRole_role (t := t) hrevert old
  rw [ringEffects_epoch rfl, ← hnow]
  exact ⟨hactive'.trans hactive, hrevert', htakeover'.trans htakeover⟩

theorem ringConfigs_derives {t : Tables} {old : RingTable} {v : Live} (ha : v.epoch.active = true)
    (hc : v.roll.cycleTime ≠ none) (h : old.gen ≠ t.ring.gen ∨ old.members ≠ t.ring.members) :
    ringConfigs t old v = deriveConfig t (decide (old.gen ≠ t.ring.gen)) v := by
  refine if_pos ?_
  unfold configsChange
  rw [ha, Option.isSome_iff_ne_none.mpr hc, Bool.true_and, Bool.true_and, Bool.or_eq_true, decide_eq_true_iff,
    decide_eq_true_iff]
  exact h

theorem ringConfigs_stands {t : Tables} {old : RingTable} {v : Live} (h : v.epoch.active = false ∨
    v.roll.cycleTime = none ∨ old.gen = t.ring.gen ∧ old.members = t.ring.members) : ringConfigs t old v = v := by
  refine if_neg ?_
  unfold configsChange
  rw [Bool.and_eq_true, Bool.and_eq_true, Bool.or_eq_true, decide_eq_true_iff, decide_eq_true_iff]
  rintro ⟨⟨ha, hc⟩, hchanged⟩
  rcases h with h | h | ⟨hgen, hmembers⟩
  · rw [h] at ha
    cases ha
  · rw [h] at hc
    cases hc
  · exact hchanged.elim (fun hg => hg hgen) (fun hm => hm hmembers)

theorem rateEffects_eq (t : Tables) (v : Live) : rateEffects t v = { v with
    cands := { v.cands with
      fwd := { v.cands.fwd with origins := v.cands.fwd.origins.map (fun o => { o with gapSince := v.now }) }
      rev := { v.cands.rev with origins := v.cands.rev.origins.map (fun o => { o with gapSince := v.now }) } }
    epoch := { v.epoch with
      revert := v.epoch.revert.map (fun x => { x with gapSince := v.now })
      j := epochAbove t.ring.rate v.ts.value.toPs } } := rfl

/-! ## The lists (R38, R131, R142) -/

theorem namesOrigin_iff (r : RingTable) (i : Nat) : namesOrigin r i = true ↔ i = r.primary ∨ r.standby = some i := by
  unfold namesOrigin
  rw [Bool.or_eq_true, decide_eq_true_iff, decide_eq_true_iff]

/-- What becomes of a ring candidate's record where the RING parameters no longer name all its origins. -/
structure CandRec.Dropped (named : Nat → Bool) (qualify : Nat) (now : Stamp) (r x : CandRec) : Prop where
  origins : x.origins = r.origins.filter (fun o => named o.id)
  last : x.last = r.last
  same : x.origins = r.origins → x = r
  emptied : x.origins ≠ r.origins → x.origins = [] → r.state ≠ .disabled → r.state ≠ .unavailable → x = r.unavail
  revised : x.origins ≠ r.origins → x.origins ≠ [] → ∃ p ∈ x.origins, (∀ y ∈ x.origins, p.NoWorse y) ∧
    x.preferred = some p.id ∧ x.hops = some p.hops ∧ x.offered = (if p.cls = .q0 then .q1 else p.cls) ∧
    (r.state = .available ∨ r.state = .selected →
      (x.offered = .q4 → x.state = .qualifying ∧ x.qual = some { since := now, base := qualify * 1000000000000 }) ∧
      (x.offered ≠ .q4 → x.state = r.state ∧ x.qual = r.qual))

theorem dropUnnamedOrigins_dropped (t : Tables) (c : Cand) (v : Live) :
    CandRec.Dropped (namesOrigin t.ring) (t.cand.get c).qualify v.now (v.cands.get c)
      ((dropUnnamedOrigins t c v).cands.get c) := by
  generalize hr : v.cands.get c = r
  by_cases hall : r.origins.all (fun o => namesOrigin t.ring o.id) = true
  · have hx : (dropUnnamedOrigins t c v).cands.get c = r := by
      unfold dropUnnamedOrigins
      rw [hr, if_pos hall, hr]
    have hkept : r.origins.filter (fun o => namesOrigin t.ring o.id) = r.origins :=
      List.filter_eq_self.mpr (List.all_eq_true.mp hall)
    rw [hx]
    exact ⟨hkept.symm, rfl, fun _ => rfl, fun h => absurd rfl h, fun h => absurd rfl h⟩
  · have hshort : r.origins.filter (fun o => namesOrigin t.ring o.id) ≠ r.origins := fun h =>
      hall (List.all_eq_true.mpr (List.filter_eq_self.mp h))
    have hdrop : dropUnnamedOrigins t c v = reviseRing t c (v.mapCand c (fun r => { r with
        origins := r.origins.filter (fun o => namesOrigin t.ring o.id) })) := by
      unfold dropUnnamedOrigins
      rw [hr, if_neg hall]
    generalize hl : r.origins.filter (fun o => namesOrigin t.ring o.id) = l at hshort
    have hrec : (v.mapCand c (fun r => { r with
        origins := r.origins.filter (fun o => namesOrigin t.ring o.id) })).cands.get c = { r with origins := l } := by
      rw [Live.mapCand_cands_same, hr, hl]
    rw [hdrop]
    generalize hu : v.mapCand c (fun r => { r with
        origins := r.origins.filter (fun o => namesOrigin t.ring o.id) }) = u at hrec
    have hnow : u.now = v.now := by rw [← hu]; rfl
    by_cases hempty : l = []
    · have horigins : (u.cands.get c).origins = [] := by rw [hrec]; exact hempty
      rw [reviseRing_empty horigins]
      by_cases hidle : r.state = .disabled ∨ r.state = .unavailable
      · have hx : loseInput c u = u := loseInput_idle (by rw [hrec]; exact hidle)
        rw [hx, hrec]
        exact ⟨hl.symm, rfl, fun h => absurd h hshort, fun _ _ hd hu => absurd hidle (not_or.mpr ⟨hd, hu⟩),
          fun _ h => absurd hempty h⟩
      · obtain ⟨hd, hun⟩ := not_or.mp hidle
        have hx : (loseInput c u).cands.get c = r.unavail := by
          rw [loseInput_loses (by rw [hrec]; exact hd) (by rw [hrec]; exact hun)]
          dsimp only
          rw [Trio.get_set_same, hrec]
          rfl
        rw [hx]
        exact ⟨hempty.symm.trans hl.symm, rfl, fun h => absurd (hempty.trans h) hshort, fun _ _ _ _ => rfl,
          fun _ h => absurd rfl h⟩
    · have hne : (u.cands.get c).origins ≠ [] := by rw [hrec]; exact hempty
      obtain ⟨p, hp, hbest, hmin⟩ := bestOrigin_spec hne
      have hx : (reviseRing t c u).cands.get c =
          (({ r with origins := l } : CandRec).preferring p).ruled (t.cand.get c).qualify v.now := by
        rw [reviseRing_eq hbest]
        dsimp only
        rw [Trio.get_set_same, hrec, hnow]
      obtain ⟨horigins, hlast, hoffered, hhops, hpref⟩ :=
        (({ r with origins := l } : CandRec).preferring p).ruled_keeps (t.cand.get c).qualify v.now
      rw [hrec] at hp hmin
      rw [hx]
      refine ⟨horigins.trans hl.symm, hlast, fun h => absurd (horigins.symm.trans h) hshort,
        fun _ h => absurd (horigins.symm.trans h) hempty, fun _ _ => ⟨p, ?_, ?_, hpref, hhops, hoffered, fun ha =>
          ⟨fun hoff => ?_, fun hoff => ?_⟩⟩⟩
      · rw [horigins]
        exact hp
      · rw [horigins]
        exact hmin
      · rw [CandRec.ruled_of_available_q4 (x := ({ r with origins := l } : CandRec).preferring p) ha (hoffered.symm.trans hoff)]
        exact ⟨rfl, rfl⟩
      · rw [CandRec.ruled_of_available (x := ({ r with origins := l } : CandRec).preferring p) ha (fun h => hoff (hoffered.trans h))]
        exact ⟨rfl, rfl⟩

theorem dropUnnamedOrigins_other {c e : Cand} (h : e ≠ c) (t : Tables) (v : Live) :
    (dropUnnamedOrigins t c v).cands.get e = v.cands.get e := (dropUnnamedOrigins_alters t c v).others e h

theorem dropUnnamedOrigins_now (t : Tables) (c : Cand) (v : Live) : (dropUnnamedOrigins t c v).now = v.now := by
  obtain ⟨_, _, -, h⟩ := dropUnnamedOrigins_revised t c v
  rw [h]
  rfl

/-- Each ring candidate's record follows the RING parameters on its own. -/
theorem dropUnnamed_dropped (t : Tables) (d : Side) (v : Live) :
    CandRec.Dropped (namesOrigin t.ring) (t.cand.get d.cand).qualify v.now (v.cands.get d.cand)
      ((dropUnnamed t v).cands.get d.cand) := by
  unfold dropUnnamed
  rw [dropUnnamedHeads_eq]
  cases d with
  | west =>
    have h := dropUnnamedOrigins_dropped t .fwd v
    rwa [← dropUnnamedOrigins_other (c := .rev) (e := .fwd) (by decide) t (dropUnnamedOrigins t .fwd v)] at h
  | east =>
    have h := dropUnnamedOrigins_dropped t .rev (dropUnnamedOrigins t .fwd v)
    rwa [dropUnnamedOrigins_now, dropUnnamedOrigins_other (c := .fwd) (e := .rev) (by decide) t v] at h

end Sys2Proof.Machine
end

section
/-! The effects of a PORT, a CANDIDATE, a SERVO and an ALARM-PROFILE write. For O49. -/

namespace Sys2Proof.Machine

/-! ## PORT: a line record (R93, R100) -/

theorem Live.Alarmed.spans {v w : Live} (h : v.Alarmed w) : w.spans = v.spans := by
  obtain ⟨_, _, _, _, _, rfl⟩ := h
  rfl

theorem refreshAlarms_span (t : Tables) (d : Side) (v : Live) : (refreshAlarms t v).span d = v.span d :=
  congrArg (fun x : Pair Span => x.get d) (refreshAlarms_alarmed t v).spans

theorem loseInput_span (c : Cand) (d : Side) (v : Live) : (loseInput c v).span d = v.span d :=
  congrArg (fun x : Pair Span => x.get d) (Live.spans_of_wires (loseInput_wires c v))

theorem enterDown_state (t : Tables) (d : Side) (v : Live) : ((enterDown t d v).span d).state = .down := by
  by_cases h : (v.span d).state = .down
  · rw [enterDown_down h]
    exact h
  · rw [enterDown_eq h, refreshAlarms_span]
    split
    · rw [loseInput_span, Live.mapSpan_span]
      rfl
    · rw [Live.mapSpan_span]
      rfl

/-- The neighbour check leaves the delay and the neighbour, and brings no span up from DOWN. -/
theorem neighbourCheck_span (t : Tables) (d : Side) (v : Live) :
    ((neighbourCheck t d v).span d).df = (v.span d).df ∧
    ((neighbourCheck t d v).span d).learned = (v.span d).learned ∧
    ((v.span d).state = .down → ((neighbourCheck t d v).span d).state = .down) := by
  cases hf : neighbourFails (t.port.line.get d) (v.span d) with
  | false =>
    rw [neighbourCheck_passes hf, refreshAlarms_span, Live.mapSpan_span]
    refine ⟨rfl, rfl, fun hdown => (if_neg ?_).trans hdown⟩
    rintro ⟨hprobing, -⟩
    exact absurd (hdown.symm.trans hprobing) (by decide)
  | true =>
    by_cases hup : (v.span d).state = .up
    · rw [neighbourCheck_fails_up hf hup, refreshAlarms_span, loseInput_span, Live.mapSpan_span]
      exact ⟨rfl, rfl, fun hdown => absurd (hdown.symm.trans hup) (by decide)⟩
    · rw [neighbourCheck_fails hf hup, refreshAlarms_span, Live.mapSpan_span]
      exact ⟨rfl, rfl, id⟩

/-- A changed line record: the delay moves, the threshold is looked at, and the neighbour check is made afresh. -/
theorem lineEffects_eq {t : Tables} {old new : LineCfg} {d : Side} {v u y : Live} {x : Span}
    (hx : x = { v.span d with df := (v.span d).df.map (fun f => max 0 (f + (new.asym - old.asym))) })
    (hu : u = v.mapSpan d (fun _ => x))
    (hy : y = if (t.port.line.get d).errThreshold ≤ x.fcsCount then enterDown t d u else u) :
    lineEffects t old new d v = neighbourCheck t d y := by
  have hmap : v.mapSpan d (fun s => { s with df := s.df.map (fun f => max 0 (f + (new.asym - old.asym))) }) = u := by
    rw [hu, hx]
    rfl
  have hcount : (u.span d).fcsCount = x.fcsCount := by rw [hu, Live.mapSpan_span]
  unfold lineEffects fcsCheck
  dsimp only
  rw [hmap, hcount, hy]

/-! ## PORT: the pulse advance (R7) -/

theorem applyAdvance_eq {new : AccessCfg} {i : Fin 4} {v : Live} {k : Nat}
    (hk : k = if wrapDiff v.ts.value.toPs ((v.ts.k.get i : Int) * 1000000000000 - new.advance * 1000) < 0
      then v.ts.k.get i else ((v.ts.value.toPs + new.advance * 1000) / 1000000000000 + 1) % 1099511627776) :
    applyAdvance new i v = { v with ts := { v.ts with k := v.ts.k.set i k } } := by
  unfold applyAdvance
  dsimp only
  by_cases h : pastCrossing new.advance (v.ts.k.get i) v.ts.value.toPs < 0
  · obtain rfl : k = v.ts.k.get i := hk.trans (if_pos h)
    rw [if_pos h, Quad.set_get]
  · obtain rfl : k = boundaryAbove new.advance v.ts.value.toPs := hk.trans (if_neg h)
    rw [if_neg h]

/-! ## CANDIDATE (R31, R33) -/

/-- A record that follows its enable. -/
def CandRec.following (enabled : Bool) (r : CandRec) : CandRec :=
  if enabled = true then (if r.state = .disabled then { r with state := .unavailable } else r)
  else if r.state = .disabled then r else r.disable

/-- A record whose qualify timer is looked at (R30). -/
def CandRec.promoted (qualify : Nat) (now : Stamp) (r : CandRec) : CandRec :=
  if r.state = .qualifying ∧ r.offered ≠ .q4 ∧ r.qualifiedAt ((qualify : Int) * 1000000000000) now then
    { r with state := .available, qual := none } else r

theorem followEnable_get (t : Tables) (c : Cand) (v : Live) :
    (followEnable t c v).cands.get c = (v.cands.get c).following (candEnabled t c) := by
  unfold followEnable CandRec.following
  dsimp only
  split
  · next he hs => rw [he, if_neg (by decide), if_pos hs]
  · next he hs =>
    have hgoes : (v.cands.get c).disable =
        if candEnabled t c = true then (if (v.cands.get c).state = .disabled
          then { v.cands.get c with state := .unavailable } else v.cands.get c)
        else if (v.cands.get c).state = .disabled then v.cands.get c else (v.cands.get c).disable := by
      rw [he, if_neg Bool.false_ne_true, if_neg hs]
    refine Eq.trans ?_ hgoes
    split <;> exact Trio.get_set_same _ _ _
  · next he hs =>
    rw [he, if_pos rfl, if_pos hs]
    split <;> exact Trio.get_set_same _ _ _
  · next he hs => rw [he, if_pos rfl, if_neg hs]

theorem promote_get (t : Tables) (c : Cand) (v : Live) :
    (promote t c v).cands.get c = (v.cands.get c).promoted (t.cand.get c).qualify v.now := by
  unfold promote CandRec.promoted
  dsimp only
  rw [qualified_eq]
  split
  · exact Trio.get_set_same _ _ _
  · rfl

theorem followEnable_other {c e : Cand} (h : e ≠ c) (t : Tables) (v : Live) :
    (followEnable t c v).cands.get e = v.cands.get e := (followEnable_alters t c v).others e h

theorem promote_other {c e : Cand} (h : e ≠ c) (t : Tables) (v : Live) :
    (promote t c v).cands.get e = v.cands.get e := (promote_alters t c v).others e h

theorem followEnable_now (t : Tables) (c : Cand) (v : Live) : (followEnable t c v).now = v.now := by
  unfold followEnable
  dsimp only
  split
  · rfl
  · split <;> rfl
  · split <;> rfl
  · rfl

theorem promote_now (t : Tables) (c : Cand) (v : Live) : (promote t c v).now = v.now := by
  unfold promote
  dsimp only
  split <;> rfl

theorem promote_refIn (t : Tables) (c : Cand) (v : Live) : (promote t c v).refIn = v.refIn := by
  unfold promote
  dsimp only
  split <;> rfl

/-- Each candidate follows its own enable and its own timer. -/
theorem candEffects_get (t : Tables) (c : Cand) (v : Live) : (candEffects t v).cands.get c =
    ((v.cands.get c).following (candEnabled t c)).promoted (t.cand.get c).qualify v.now := by
  unfold candEffects
  cases c with
  | ref =>
    rw [promote_other (by decide), promote_other (by decide), promote_get, followEnable_other (by decide),
      followEnable_other (by decide), followEnable_get, followEnable_now, followEnable_now, followEnable_now]
  | fwd =>
    rw [promote_other (by decide), promote_get, promote_other (by decide), followEnable_other (by decide),
      followEnable_get, followEnable_other (by decide), promote_now, followEnable_now, followEnable_now,
      followEnable_now]
  | rev =>
    rw [promote_get, promote_other (by decide), promote_other (by decide), followEnable_get,
      followEnable_other (by decide), followEnable_other (by decide), promote_now, promote_now, followEnable_now,
      followEnable_now, followEnable_now]

theorem CandRec.promoted_of_not {r : CandRec} (qualify : Nat) (now : Stamp) (h : r.state ≠ .qualifying ∨
    r.offered = .q4 ∨ ∀ tm, r.qual = some tm → tm.base + interval tm.since now < (qualify : Int) * 1000000000000) :
    r.promoted qualify now = r := by
  refine if_neg ?_
  rintro ⟨hs, hoff, hq⟩
  rcases h with h | h | h
  · exact h hs
  · exact hoff h
  · cases htm : r.qual with
    | none => simp [CandRec.qualifiedAt, htm] at hq
    | some tm =>
      simp only [CandRec.qualifiedAt, htm, decide_eq_true_eq] at hq
      have := h tm htm
      omega

theorem CandRec.promoted_of_reached {r : CandRec} {tm : Timer} {qualify : Nat} {now : Stamp}
    (hs : r.state = .qualifying) (hoff : r.offered ≠ .q4) (htm : r.qual = some tm)
    (h : (qualify : Int) * 1000000000000 ≤ tm.base + interval tm.since now) :
    r.promoted qualify now = { r with state := .available, qual := none } := by
  refine if_pos ⟨hs, hoff, ?_⟩
  simp only [CandRec.qualifiedAt, htm]
  exact decide_eq_true h

theorem followEnable_ring_refIn {c : Cand} (hc : c ≠ .ref) (t : Tables) (v : Live) :
    (followEnable t c v).refIn = v.refIn := by
  unfold followEnable
  dsimp only
  split
  · rfl
  · rw [if_neg hc]
    rfl
  · rw [if_neg hc]
    rfl
  · rfl

theorem candEffects_refIn (t : Tables) (v : Live) : (candEffects t v).refIn = (followEnable t .ref v).refIn := by
  unfold candEffects
  rw [promote_refIn, promote_refIn, promote_refIn, followEnable_ring_refIn (by decide),
    followEnable_ring_refIn (by decide)]

theorem followEnable_ref_ceases {t : Tables} {v : Live} (he : candEnabled t .ref = false)
    (hs : v.cands.ref.state ≠ .disabled) : (followEnable t .ref v).refIn =
      { v.refIn with pending := none, expected := none, unusable := 0 } := by
  unfold followEnable
  dsimp only [Trio.get]
  rw [he]
  split
  · next h => exact absurd h hs
  · rfl
  · next h _ => cases h
  · next h _ => cases h

theorem followEnable_ref_begins {t : Tables} {v : Live} (he : candEnabled t .ref = true)
    (hs : v.cands.ref.state = .disabled) : (followEnable t .ref v).refIn = { v.refIn with watch := v.now } := by
  unfold followEnable
  dsimp only [Trio.get]
  rw [he, hs]
  rfl

theorem followEnable_ref_stays {t : Tables} {v : Live} (h : candEnabled t .ref = false ∧ v.cands.ref.state = .disabled ∨
    candEnabled t .ref = true ∧ v.cands.ref.state ≠ .disabled) : (followEnable t .ref v).refIn = v.refIn := by
  unfold followEnable
  dsimp only [Trio.get]
  rcases h with ⟨he, hs⟩ | ⟨he, hs⟩
  · rw [he, hs]
  · rw [he]
    split
    · rfl
    · next h _ => cases h
    · next h => exact absurd h hs
    · rfl

/-! ## SERVO (R13) -/

theorem servoEffects_eq {old new : ServoTable} {v : Live} {f : Int}
    (hf : f = if v.servo.state = .holdover then v.servo.fServo
      else max (-(new.limit : Int)) (min new.limit v.servo.fServo)) :
    (servoEffects old new v).servo = { v.servo with
      queue := if old.n = new.n then v.servo.queue else []
      integ := if new.limit < old.limit then max (-(new.limit : Int)) (min new.limit v.servo.integ) else v.servo.integ
      fServo := if new.limit < old.limit then f else v.servo.fServo } ∧
    (servoEffects old new v).ts = (if new.limit < old.limit
      then { v.ts with fTotal := max (-100000000) (min 100000000 (f + v.thermal.fTemp)) } else v.ts) := by
  rw [← clampSym_eq] at hf
  rw [← clampSym_eq]
  have htotal : max (-100000000) (min 100000000 (f + v.thermal.fTemp)) = clampSym 100000000 (f + v.thermal.fTemp) :=
    (clampSym_eq 100000000 _).symm
  rw [htotal]
  subst hf
  unfold servoEffects Live.recomputeF
  dsimp only
  by_cases hn : old.n = new.n
  · by_cases hl : new.limit < old.limit
    · simp only [if_pos hn, if_pos hl, and_self]
    · simp only [if_pos hn, if_neg hl, and_self]
  · by_cases hl : new.limit < old.limit
    · simp only [if_neg hn, if_pos hl, and_self]
    · simp only [if_neg hn, if_neg hl, and_self]

/-! ## ALARM-PROFILE (R167) -/

theorem soakChecks_append (t : Tables) (a b : List Nat) : ∀ v : Live,
    soakChecks t (a ++ b) v = soakChecks t b (soakChecks t a v) := by
  induction a with
  | nil => exact fun _ => rfl
  | cons i a ih => exact fun v => ih _

theorem soakChecks_kept (t : Tables) (l : List Nat) : ∀ v : Live, (soakChecks t l v).kept = v.kept := by
  induction l with
  | nil => exact fun _ => rfl
  | cons i l ih => exact fun v => (ih _).trans (soakCheck_kept t i v)

theorem soakChecks_other (t : Tables) {j : Nat} : ∀ {l : List Nat}, j ∉ l → ∀ v : Live,
    (soakChecks t l v).alarms.points[j]? = v.alarms.points[j]?
  | [], _, _ => rfl
  | i :: l, hj, v => by
    obtain ⟨hji, hjl⟩ := not_or.mp (mt List.mem_cons.mpr hj)
    exact (soakChecks_other t hjl _).trans (soakCheck_other hji t v)

/-- Each point of a run is looked at once, at the same instant. -/
theorem soakChecks_get {t : Tables} {l : List Nat} (hn : l.Nodup) {i : Nat} (hi : i ∈ l) {v : Live} :
    ∃ u : Live, u.alarms.points[i]? = v.alarms.points[i]? ∧ u.osc = v.osc ∧
      (soakChecks t l v).alarms.points[i]? = (soakCheck t i u).alarms.points[i]? := by
  obtain ⟨a, b, rfl⟩ := List.append_of_mem hi
  obtain ⟨-, hcons, hdisj⟩ := List.nodup_append.mp hn
  have hia : i ∉ a := fun h => hdisj i h i List.mem_cons_self rfl
  have hib : i ∉ b := (List.nodup_cons.mp hcons).1
  refine ⟨soakChecks t a v, soakChecks_other t hia v, Live.osc_of_kept (soakChecks_kept t a v), ?_⟩
  rw [soakChecks_append, soakChecks, soakChecks_other t hib]

end Sys2Proof.Machine
end

section
/-! The settlement of O49. -/

namespace Sys2Proof.Machine

/-! ## What a WRITE leaves in the RING table's generation (R142) -/

theorem setRing_gen {r x : RingTable} {i : Nat} {l : List Byte} (h : setRing r i l = some x) : x.gen = r.gen := by
  have hmap : ∀ {α : Type} {o : Option α} {f : α → RingTable}, o.map f = some x → (∀ y, (f y).gen = r.gen) →
      x.gen = r.gen := by
    intro α o f hf hgen
    obtain ⟨y, -, rfl⟩ := Option.map_eq_some_iff.mp hf
    exact hgen y
  unfold setRing at h
  split at h
  case h_10 => cases h
  all_goals exact hmap h fun _ => rfl

theorem setEntries_ring_gen : ∀ {es : List Entry} {t u : Tables}, setEntries .ring es t = some u →
    u.ring.gen = t.ring.gen
  | [], _, _, h => by cases h; rfl
  | e :: es, t, u, h => by
    rw [setEntries_cons] at h
    obtain ⟨a, ha, hu⟩ := Option.bind_eq_some_iff.mp h
    obtain ⟨r, hr, rfl⟩ := Option.map_eq_some_iff.mp ha
    exact (setEntries_ring_gen hu).trans (setRing_gen hr)

theorem writeTable_ring_gen {t u : Tables} {es : List Entry} (h : writeTable .ring t es = some u) :
    u.ring.gen = if t.ring.gen < 65535 then t.ring.gen + 1 else 1 := by
  cases hs : setEntries .ring es t with
  | none =>
    rw [writeTable_none hs] at h
    cases h
  | some a =>
    rw [writeTable_ring hs, setEntries_ring_gen hs] at h
    split at h
    · cases h
      rfl
    · cases h

/-! ## A WRITE that is taken (R181) -/

theorem writeAllowed_iff (m : TableName) (env : ReqEnv) (w : WriteArgs) (s : State) : writeAllowed m env w s = true ↔
    1 ≤ w.count ∧ w.entries.length = w.count ∧ isRun w.first w.entries = true ∧
    (∀ e ∈ w.entries, e.index ≤ lastIndex m) ∧ guarded env s = false ∧ s.locks.get m = .opened ∧
    s.store.commit = none ∧ (m ≠ .ring ∨ s.tables.node.role = .primary) := by
  simp only [writeAllowed, Bool.and_eq_true, Bool.or_eq_true, decide_eq_true_eq, Bool.not_eq_true', List.all_eq_true,
    Option.isNone_iff_eq_none, and_assoc]

theorem namesGradient_iff (es : List Entry) : namesGradient es = true ↔ ∃ e ∈ es, e.index < 16 := by
  simp only [namesGradient, List.any_eq_true, decide_eq_true_eq]

theorem afterWrite_written (m : TableName) (es : List Entry) (s : State) : afterWrite m es s = { s with
    live := if m = .thermal ∧ ∃ e ∈ es, e.index < 16 then emptyHistory s.live else s.live } := by
  by_cases h : m = .thermal ∧ ∃ e ∈ es, e.index < 16
  · rw [if_pos h]
    obtain ⟨rfl, he⟩ := h
    exact if_pos ((namesGradient_iff es).mpr he)
  · rw [if_neg h]
    cases m with
    | thermal => exact if_neg fun hn => h ⟨rfl, (namesGradient_iff es).mp hn⟩
    | node | ring | port | cand | servo | quality | alarm => rfl

/-- The blocks a taken WRITE leaves to the tables' effects. -/
def State.written (m : TableName) (es : List Entry) (s : State) : Live :=
  if m = .thermal ∧ ∃ e ∈ es, e.index < 16 then emptyHistory s.live else s.live

theorem State.written_keeps (m : TableName) (es : List Entry) (s : State) :
    (s.written m es).ts = s.live.ts ∧ (s.written m es).mgmt = s.live.mgmt ∧
      (m = .thermal → (∃ e ∈ es, e.index < 16) → (s.written m es).servo.history = []) := by
  unfold State.written
  split
  · exact ⟨rfl, rfl, fun _ _ => rfl⟩
  · next h => exact ⟨rfl, rfl, fun hm he => absurd ⟨hm, he⟩ h⟩

/-- The state after a WRITE that is taken, with its answer formed. -/
def State.wrote (m : TableName) (env : ReqEnv) (es : List Entry) (new : Tables) (c : State) : State :=
  State.answer env .done [] .plain
    { c with tables := new, live := finish new (takeTables c.tables new (c.written m es)) }

theorem writeCommand_taken {m : TableName} {n : Nat} {env : ReqEnv} {w : WriteArgs} {s : State} {new : Tables}
    (heard : heardRequest env s = true) (hallowed : writeAllowed m env w s = true)
    (hw : writeTable m s.tables w.entries = some new) :
    exec (writeCommand m n env w) s = .next ((s.elapse n).counted.wrote m env w.entries new) := by
  obtain ⟨h1, hlen, hrun, hidx, hg, hl, hc, hr⟩ := (writeAllowed_iff m env w s).mp hallowed
  obtain ⟨k, hk, hexec⟩ := exec_writeCommand m
  have htaken : performWrite env k w (s.elapse n).counted =
      carryOut ((afterWrite m w.entries (s.elapse n).counted).install new) :=
    performWrite_taken hk h1 hlen hrun hidx (env := env) (s := (s.elapse n).counted) hg hl hc hr hw
  rw [hexec, serve_done heard _ htaken, afterWrite_written] <;> rfl

section
variable {m : TableName} {es : List Entry} {c : State} {new : Tables}

@[simp] theorem State.wrote_tables (env : ReqEnv) : (c.wrote m env es new).tables = new := State.answer_tables ..

@[simp] theorem State.wrote_locks (env : ReqEnv) : (c.wrote m env es new).locks = c.locks := State.answer_locks ..

@[simp] theorem State.wrote_store (env : ReqEnv) : (c.wrote m env es new).store = c.store := State.answer_store ..

@[simp] theorem State.wrote_pending (env : ReqEnv) : (c.wrote m env es new).pending = c.pending :=
  State.answer_pending ..

theorem State.wrote_value (env : ReqEnv) : (c.wrote m env es new).live.ts.value = c.live.ts.value := by
  unfold State.wrote
  rw [State.answer_value]
  dsimp only
  rw [finish_value, (takeTables_quiet _ _ _).value, (c.written_keeps m es).1]

theorem State.wrote_steps (env : ReqEnv) : (c.wrote m env es new).live.ts.steps = c.live.ts.steps := by
  unfold State.wrote
  rw [State.answer_steps]
  dsimp only
  rw [finish_steps, (takeTables_quiet _ _ _).steps, (c.written_keeps m es).1]

theorem State.wrote_executed (env : ReqEnv) :
    (c.wrote m env es new).live.mgmt.executed = c.live.mgmt.executed := by
  unfold State.wrote
  rw [State.answer_executed]
  dsimp only
  rw [finish_mgmt, (takeTables_tallies _ _ _).1, (c.written_keeps m es).2.1]

theorem State.wrote_history (env : ReqEnv) (hm : m = .thermal) (he : ∃ e ∈ es, e.index < 16) :
    (c.wrote m env es new).live.servo.history = [] := by
  unfold State.wrote
  rw [State.answer_history]
  dsimp only
  rw [finish_history]
  exact (takeTables_tallies _ _ _).2 ((c.written_keeps m es).2.2 hm he)

end

theorem State.counted_ts (s : State) : s.counted.live.ts = s.live.ts := rfl

theorem State.counted_executed (s : State) :
    s.counted.live.mgmt.executed = min 65535 (s.live.mgmt.executed + 1) := rfl

theorem Live.elapse_steps (v : Live) (n : Nat) : (v.elapse n).ts.steps = v.ts.steps := TimeScale.advance_steps v.ts n

theorem writeCommand_leaves {m : TableName} {n : Nat} {env : ReqEnv} {w : WriteArgs} {s : State} {new : Tables}
    (heard : heardRequest env s = true) (hallowed : writeAllowed m env w s = true)
    (hw : writeTable m s.tables w.entries = some new) :
    ∃ t : State, exec (writeCommand m n env w) s = .next t ∧ t.pending = s.pending ∧ t.tables = new ∧
      (∀ o, o ≠ m → Tables.agreeOn o t.tables s.tables = true) ∧ t.locks = s.locks ∧ t.store = s.store ∧
      t.live.ts.value = (s.live.elapse n).ts.value ∧ t.live.ts.steps = s.live.ts.steps ∧
      t.live.mgmt.executed = min 65535 (s.live.mgmt.executed + 1) ∧
      (m = .ring → t.tables.ring.gen = if s.tables.ring.gen < 65535 then s.tables.ring.gen + 1 else 1) ∧
      (m = .thermal → (∃ e ∈ w.entries, e.index < 16) → t.live.servo.history = []) := by
  have hexec := writeCommand_taken (n := n) heard hallowed hw
  generalize hc : (s.elapse n).counted = c at hexec
  have hcounted : c.tables = s.tables ∧ c.locks = s.locks ∧ c.store = s.store ∧ c.pending = s.pending ∧
      c.live.ts = (s.live.elapse n).ts ∧ c.live.mgmt.executed = min 65535 (s.live.mgmt.executed + 1) := by
    rw [← hc]
    refine ⟨rfl, rfl, rfl, rfl, State.counted_ts _, ?_⟩
    rw [State.counted_executed, State.elapse_live, Live.elapse_mgmt]
  obtain ⟨htables, hlocks, hstore, hpending, hts, hexecuted⟩ := hcounted
  refine ⟨_, hexec, (State.wrote_pending env).trans hpending, State.wrote_tables env, fun o ho => ?_,
    (State.wrote_locks env).trans hlocks, (State.wrote_store env).trans hstore, ?_, ?_,
    (State.wrote_executed env).trans hexecuted, fun hm => ?_, State.wrote_history env⟩
  · rw [State.wrote_tables]
    exact writeTable_agreeOn hw ho
  · rw [State.wrote_value, hts]
  · rw [State.wrote_steps, hts]
    exact s.live.elapse_steps n
  · subst hm
    rw [State.wrote_tables]
    exact writeTable_ring_gen hw

/-! ## How the blocks take the new tables -/

theorem portEffects_eq {old new : Tables} {v : Live} {line : Side → Live → Live} {access : Fin 4 → Live → Live}
    (hline : ∀ d, line d = lineEffects new (old.port.line.get d) (new.port.line.get d) d)
    (haccess : ∀ i, access i = accessEffects new (old.port.access.get i) (new.port.access.get i) i) :
    portEffects old new v = access 3 (access 2 (access 1 (access 0 (line .west (line .east v))))) := by
  rw [hline, hline, haccess, haccess, haccess, haccess]
  rfl

theorem dropUnnamed_lists (t : Tables) (v : Live) :
    (dropUnnamed t v).roll.heads = v.roll.heads.filter (fun x => namesOrigin t.ring x.id) ∧
    (dropUnnamed t v).roll.status =
      (if v.epoch.active = false ∧ (dropUnnamed t v).roll.heads = [] then .unknown else v.roll.status) ∧
    (dropUnnamed t v).cands.ref = v.cands.ref := by
  refine ⟨?_, ?_, ?_⟩
  · obtain ⟨c, s, -, h⟩ := dropUnnamed_eq t v
    rw [h, dropUnnamedHeads_eq]
  · obtain ⟨c, s, -, h⟩ := dropUnnamed_eq t v
    rw [h, dropUnnamedHeads_eq]
  · unfold dropUnnamed
    rw [dropUnnamedHeads_eq]
    exact (dropUnnamedOrigins_other (c := .rev) (e := .ref) (by decide) t _).trans
      (dropUnnamedOrigins_other (c := .fwd) (e := .ref) (by decide) t v)

theorem lineEffects_keeps {t : Tables} {old new : LineCfg} {d : Side} {v w : Live} {x : Span}
    (hw : w = lineEffects t old new d v)
    (hx : x = { v.span d with df := (v.span d).df.map (fun f => max 0 (f + (new.asym - old.asym))) }) :
    (x.fcsCount < (t.port.line.get d).errThreshold → (w.span d).df = x.df ∧ (w.span d).learned = x.learned) ∧
    ((t.port.line.get d).errThreshold ≤ x.fcsCount → (w.span d).state = .down) := by
  rw [hw, lineEffects_eq hx rfl rfl]
  refine ⟨fun hlow => ?_, fun hhigh => ?_⟩
  · rw [if_neg (Nat.not_le.mpr hlow)]
    obtain ⟨hdf, hlearned, -⟩ := neighbourCheck_span t d (v.mapSpan d (fun _ => x))
    rw [Live.mapSpan_span] at hdf hlearned
    exact ⟨hdf, hlearned⟩
  · rw [if_pos hhigh]
    exact (neighbourCheck_span t d _).2.2 (enterDown_state t d _)

theorem revertCheck_waits {t : Tables} {v : Live} (h : originRole t ≠ .standby ∨ v.epoch.active = false ∨
    v.epoch.revert = none ∨ (∃ r, v.epoch.revert = some r ∧
      interval r.start v.now < (t.ring.revert : Int) * 1000000000000)) : revertCheck t v = v := by
  refine revertCheck_stays ?_
  rintro ⟨hrole, hactive, hreached⟩
  rcases h with h | h | h | ⟨r, hr, hlt⟩
  · exact h hrole
  · rw [h] at hactive
    cases hactive
  · rw [revertReached_of_none h] at hreached
    cases hreached
  · exact absurd ((revertReached_iff hr).mp hreached) (not_le.mpr hlt)

theorem candEffects_record {t : Tables} {c : Cand} {v : Live} {r x : CandRec} (hr : r = v.cands.get c)
    (hx : x = (candEffects t v).cands.get c) :
    (candEnabled t c = false → r.state = .disabled → x = r) ∧
    (candEnabled t c = false → r.state ≠ .disabled → x = r.disable) ∧
    (candEnabled t c = true → r.state = .disabled → x = { r with state := .unavailable }) ∧
    (candEnabled t c = true → r.state ≠ .disabled →
      (∀ tm, r.state = .qualifying → r.offered ≠ .q4 → r.qual = some tm →
        ((t.cand.get c).qualify : Int) * 1000000000000 ≤ tm.base + interval tm.since v.now →
        x = { r with state := .available, qual := none }) ∧
      (r.state ≠ .qualifying ∨ r.offered = .q4 ∨ (∀ tm, r.qual = some tm →
          tm.base + interval tm.since v.now < ((t.cand.get c).qualify : Int) * 1000000000000) → x = r)) := by
  rw [candEffects_get, ← hr] at hx
  have hfollow : ∀ e : Bool, candEnabled t c = e →
      x = (r.following e).promoted (t.cand.get c).qualify v.now := fun e he => he ▸ hx
  have hidle : ∀ y : CandRec, y.state ≠ .qualifying → y.promoted (t.cand.get c).qualify v.now = y :=
    fun y hy => CandRec.promoted_of_not _ _ (.inl hy)
  refine ⟨fun he hs => ?_, fun he hs => ?_, fun he hs => ?_, fun he hs => ?_⟩
  · have hstays : r.following false = r := if_pos hs
    rw [hfollow _ he, hstays]
    exact hidle r (by rw [hs]; decide)
  · have hgoes : r.following false = r.disable := if_neg hs
    rw [hfollow _ he, hgoes]
    exact hidle _ nofun
  · have hcomes : r.following true = { r with state := .unavailable } := if_pos hs
    rw [hfollow _ he, hcomes]
    exact hidle _ nofun
  · have hstays : r.following true = r := if_neg hs
    rw [hfollow _ he, hstays]
    exact ⟨fun tm hq hoff htm hreached => CandRec.promoted_of_reached hq hoff htm hreached,
      CandRec.promoted_of_not _ _⟩

theorem soakCheck_unsoaked {t : Tables} {i : Nat} {v : Live} {p : Point} (h : v.alarms.points[i]? = some p)
    (hs : p.soak = none) : soakCheck t i v = v := by
  unfold soakCheck
  rw [h]
  dsimp only
  rw [hs]

theorem alarmEffects_point {old new : Tables} {i k : Nat} {v w : Live} {p : Point} (hw : w = alarmEffects old new v)
    (hne : old.alarm ≠ new.alarm) (hi : i < 21) (hp : v.alarms.points[i]? = some p) :
    (p.state = .raising → p.soak = some k → 12500000 * (pointCfg new i).raiseSoak ≤ v.osc - k →
      w.alarms.points[i]? = some (p.raised (pointCfg new i))) ∧
    (p.state = .clearing → p.soak = some k → 12500000 * (pointCfg new i).clearSoak ≤ v.osc - k →
      w.alarms.points[i]? = some p.cleared) ∧
    (p.soak = none ∨ p.soak = some k ∧
        (p.state = .raising → v.osc - k < 12500000 * (pointCfg new i).raiseSoak) ∧
        (p.state = .clearing → v.osc - k < 12500000 * (pointCfg new i).clearSoak) →
      w.alarms.points[i]? = some p) := by
  obtain ⟨u, hu, hosc, hget⟩ := soakChecks_get (t := new) List.nodup_range (List.mem_range.mpr hi) (v := v)
  have hchecks : w = soakChecks new (List.range 21) v := hw.trans (if_neg hne)
  rw [hchecks, hget, ← hosc]
  rw [← hu] at hp
  refine ⟨fun hst hs hd => ?_, fun hst hs hd => ?_, ?_⟩
  · rw [soakCheck_raises hp hs hst hd]
    exact raisePoint_get hp new
  · rw [soakCheck_clears hp hs hst hd]
    exact clearPoint_get hp new
  · rintro (hs | ⟨hs, hr, hc⟩)
    · rw [soakCheck_unsoaked hp hs]
      exact hp
    · rw [soakCheck_waits hp hs hr hc]
      exact hp

/-- Settles O49: the taken write as one state, then each table's effects on the blocks by its own law. -/
theorem takenWriteReplacesTheTable : Obligations.TakenWriteReplacesTheTable := by
  unfold Obligations.TakenWriteReplacesTheTable
  refine ⟨?_, ?_, ?_, ?_, ?_, ?_, fun _ _ _ _ hk => applyAdvance_eq hk, ?_, ?_, ?_, ?_⟩
  · intro m n env w s new u heard hallowed hw hu
    rw [hu]
    exact ⟨writeCommand_taken heard hallowed hw, writeCommand_leaves heard hallowed hw⟩
  · intro old new v
    exact ⟨rfl, fun line access hline haccess => portEffects_eq hline haccess, nodeEffects_duplicate old new v,
      fun k r e hk hr he => nodeEffects_relays hk hr he, fun hrun hne => ringEffects_role hrun hne⟩
  · intro t old role v a b c d ha hb hc hd
    have hafter : d = afterRole t old
        (roleEffects role (originRole t) t (refreshAlarms t (ringConfigs t old (dropUnnamed t v)))) := by
      rw [hd, hc, hb, ha]
      rfl
    refine ⟨fun k hi hk hdue => ringEffects_ticks hafter hi ((rollTickDue_iff t d).mpr ⟨k, hk, hdue⟩),
      fun h => ringEffects_waits hafter ?_⟩
    rintro ⟨hi, hdue⟩
    obtain ⟨k, hk, hle⟩ := (rollTickDue_iff t d).mp hdue
    rcases h with h | h | ⟨k', hk', hlt⟩
    · exact hi h
    · exact absurd (h.symm.trans hk) nofun
    · cases hk.symm.trans hk'
      omega
  · intro t old v
    exact ⟨fun ha hc h => ringConfigs_derives ha hc h, fun h => ringConfigs_stands h, rateEffects_eq t v,
      fun r hrole ha hr hle => revertCheck_reverts hrole ha ((revertReached_iff hr).mpr hle),
      fun h => revertCheck_waits h⟩
  · intro t v w named hw hnamed
    obtain rfl : named = namesOrigin t.ring := funext fun i =>
      Bool.eq_iff_iff.mpr ((hnamed i).trans (namesOrigin_iff t.ring i).symm)
    subst hw
    obtain ⟨hheads, hstatus, href⟩ := dropUnnamed_lists t v
    refine ⟨hheads, hstatus, href, fun d r x hr hx => ?_⟩
    subst hr hx
    obtain ⟨horigins, hlast, hsame, hemptied, hrevised⟩ := dropUnnamed_dropped t d v
    exact ⟨horigins, hlast, hsame, hemptied, hrevised⟩
  · intro t old new d v w x hw hx
    obtain ⟨hlow, hhigh⟩ := lineEffects_keeps hw hx
    exact ⟨fun u y hu hy => hw.trans (lineEffects_eq hx hu hy), hlow, hhigh⟩
  · exact fun t c v r x hr hx => candEffects_record hr hx
  · intro t v w hw
    rw [hw, candEffects_refIn]
    exact ⟨followEnable_ref_ceases, followEnable_ref_begins, followEnable_ref_stays⟩
  · intro old new v w f hw hf
    rw [hw]
    exact servoEffects_eq hf
  · exact fun old new i k v w p hw hne hi hp => alarmEffects_point hw hne hi hp

end Sys2Proof.Machine
end

section
/-! The entry to RUNNING and the soft restart: what the taking up of work keeps, and the conditions held at start. For O6
and O7. -/

namespace Sys2Proof.Machine

/-! ## What the blocks keep as they take up their work -/

/-- The part, the oscillator, the crossings, the thermal and the management unit, and the probe clocks stand. -/
structure Live.Paced (v w : Live) : Prop where
  part : w.part = v.part
  osc : w.osc = v.osc
  k : w.ts.k = v.ts.k
  thermal : w.thermal = v.thermal
  mgmt : w.mgmt = v.mgmt
  probe : ∀ d, (w.span d).nextProbe = (v.span d).nextProbe

namespace Live.Paced

theorem refl (v : Live) : v.Paced v := ⟨rfl, rfl, rfl, rfl, rfl, fun _ => rfl⟩

theorem trans {u v w : Live} (h : u.Paced v) (k : v.Paced w) : u.Paced w :=
  ⟨k.part.trans h.part, k.osc.trans h.osc, k.k.trans h.k, k.thermal.trans h.thermal, k.mgmt.trans h.mgmt,
    fun d => (k.probe d).trans (h.probe d)⟩

theorem after {u v w : Live} (k : v.Paced w) (h : u.Paced v) : u.Paced w := h.trans k

theorem of_kept {v w : Live} (h : w.kept = v.kept) : v.Paced w :=
  ⟨Live.part_of_kept h, Live.osc_of_kept h, Live.k_of_kept h, Live.thermal_of_kept h, Live.mgmt_of_kept h, fun d => by
    have := congrArg Span.nextProbe (Live.span_of_kept h d)
    exact this⟩

end Live.Paced

theorem Live.mapSpan_paced {f : Span → Span} (hf : ∀ x, (f x).nextProbe = x.nextProbe) (v : Live) (d : Side) :
    v.Paced (v.mapSpan d f) := by
  refine ⟨rfl, rfl, rfl, rfl, rfl, fun e => ?_⟩
  by_cases he : e = d
  · subst he
    rw [Live.mapSpan_span]
    exact hf _
  · rw [Live.mapSpan_span_other v he]

theorem withdrawStale_kept (t : Tables) (d : Side) (v : Live) : (withdrawStale t d v).kept = v.kept := by
  unfold withdrawStale
  split
  · rw [probeTimeout_kept, insertDrop_kept, withdraw_kept]
  · rfl

theorem sendProbe_paced (t : Tables) (d : Side) (v : Live) : v.Paced (sendProbe t d v) := by
  unfold sendProbe
  extract_lets w seq
  have hw : w.kept = v.kept := by
    unfold w
    split
    · rw [refreshAlarms_kept, setSpanState_kept]
    · rfl
  have hseq : w.Paced (w.mapSpan d (fun s => { s with probeSeq := seq })) := Live.mapSpan_paced (by intro; rfl) w d
  exact ((Live.Paced.of_kept (hand_kept _ _ _)).after hseq).after (.of_kept hw)

theorem beginInterval_paced (t : Tables) (d : Side) (v : Live) : v.Paced (beginInterval t d v) := by
  rw [beginInterval_eq]
  extract_lets w
  have hcount : v.Paced (v.mapSpan d (fun s => { s with fcsCount := 0 })) := Live.mapSpan_paced (by intro; rfl) v d
  have hw : v.Paced w := hcount.trans (.of_kept (withdrawStale_kept t d _))
  split
  · exact hw
  · exact hw.trans (sendProbe_paced t d w)

/-- The blocks where a probe clock is set to run one second on. -/
def Live.clocked (d : Side) (v : Live) : Live :=
  v.mapSpan d (fun s => { s with nextProbe := some (v.osc + Reset.second) })

theorem Live.clocked_probe (d e : Side) (v : Live) : ((v.clocked d).span e).nextProbe =
    if e = d then some (v.osc + 125000000) else (v.span e).nextProbe := by
  unfold Live.clocked
  by_cases he : e = d
  · subst he
    rw [if_pos rfl, Live.mapSpan_span]
    unfold Reset.second
    dsimp only
  · rw [if_neg he, Live.mapSpan_span_other v he]

theorem startProbeClock_paced (t : Tables) (d : Side) (v : Live) : (v.clocked d).Paced (startProbeClock t d v) :=
  beginInterval_paced t d (v.clocked d)

/-- A probe clock that starts runs one second on; the other one stands. -/
theorem startProbeClock_probe (t : Tables) (d e : Side) (v : Live) : ((startProbeClock t d v).span e).nextProbe =
    if e = d then some (v.osc + 125000000) else (v.span e).nextProbe :=
  ((startProbeClock_paced t d v).probe e).trans (v.clocked_probe d e)

theorem startProbeClock_keeps (t : Tables) (d : Side) (v : Live) : (startProbeClock t d v).part = v.part ∧
    (startProbeClock t d v).osc = v.osc ∧ (startProbeClock t d v).ts.k = v.ts.k ∧
    (startProbeClock t d v).thermal = v.thermal ∧ (startProbeClock t d v).mgmt = v.mgmt := by
  obtain ⟨hpart, hosc, hk, hthermal, hmgmt, -⟩ := startProbeClock_paced t d v
  exact ⟨hpart, hosc, hk, hthermal, hmgmt⟩

theorem Live.epoch_paced (v : Live) (e : Epoch) : v.Paced { v with epoch := e } :=
  ⟨rfl, rfl, rfl, rfl, rfl, fun _ => rfl⟩

theorem Live.resetJ_paced (t : Tables) (v : Live) : v.Paced (v.resetJ t) := v.epoch_paced _

/-- The blocks where both probe clocks have started and J is set. -/
def startClocks (t : Tables) (v : Live) : Live := (startProbeClock t .west (startProbeClock t .east v)).resetJ t

theorem startClocks_keeps (t : Tables) (v : Live) : (startClocks t v).part = v.part ∧
    (startClocks t v).ts.k = v.ts.k ∧ (startClocks t v).thermal = v.thermal ∧ (startClocks t v).mgmt = v.mgmt ∧
    ∀ d, ((startClocks t v).span d).nextProbe = some (v.osc + 125000000) := by
  unfold startClocks
  generalize hu : startProbeClock t .east v = u
  obtain ⟨hpart, hosc, hk, hthermal, hmgmt⟩ := hu ▸ startProbeClock_keeps t .east v
  have heast : (u.span .east).nextProbe = some (v.osc + 125000000) := hu ▸ startProbeClock_probe t .east .east v
  obtain ⟨hpart', hosc', hk', hthermal', hmgmt'⟩ := startProbeClock_keeps t .west u
  have hj := (startProbeClock t .west u).resetJ_paced t
  refine ⟨hj.part.trans (hpart'.trans hpart), hj.k.trans (hk'.trans hk), hj.thermal.trans (hthermal'.trans hthermal),
    hj.mgmt.trans (hmgmt'.trans hmgmt), fun d => (hj.probe d).trans ?_⟩
  rw [startProbeClock_probe, hosc]
  cases d with
  | west => exact if_pos rfl
  | east => exact (if_neg (by decide)).trans heast

theorem takeUp_eq (t : Tables) (v : Live) : takeUp t v = takeRole t (startClocks t v) (originRole t) := by
  unfold takeUp startClocks takeRole
  cases originRole t <;> rfl

theorem takeRole_kept (t : Tables) (v : Live) (r : OriginRole) : (takeRole t v r).kept = v.kept := by
  cases r with
  | primary => exact becomeActive_kept t v
  | standby => rfl
  | none => rfl

/-- What stands once the blocks have taken up their work. -/
theorem takeUp_keeps (t : Tables) (v : Live) : (takeUp t v).part = v.part ∧ (takeUp t v).ts.k = v.ts.k ∧
    (takeUp t v).thermal = v.thermal ∧ (takeUp t v).mgmt = v.mgmt ∧
    ∀ d, ((takeUp t v).span d).nextProbe = some (v.osc + 125000000) := by
  obtain ⟨hpart, hk, hthermal, hmgmt, hprobe⟩ := startClocks_keeps t v
  have hrole : (startClocks t v).Paced (takeUp t v) := by
    rw [takeUp_eq]
    exact .of_kept (takeRole_kept t _ _)
  exact ⟨hrole.part.trans hpart, hrole.k.trans hk, hrole.thermal.trans hthermal, hrole.mgmt.trans hmgmt,
    fun d => (hrole.probe d).trans (hprobe d)⟩

/-! ## The conditions held at start (R177) -/

/-- A condition of a run of them reaches its own point alone, at the instant of the run. -/
theorem handConditions_get {t : Tables} {bs : List Bool} {b : Bool} : ∀ {k i : Nat} {v : Live}, bs[i]? = some b →
    ∃ u : Live, u.alarms.points[k + i]? = v.alarms.points[k + i]? ∧ u.osc = v.osc ∧
      (handConditions t k bs v).alarms.points[k + i]? = (handCondition t (k + i) b u).alarms.points[k + i]? := by
  induction bs with
  | nil => intro k i v h; simp at h
  | cons a bs ih =>
    intro k i v h
    rw [handConditions]
    cases i with
    | zero =>
      obtain rfl : a = b := by simpa using h
      exact ⟨v, rfl, rfl, handConditions_before t bs (k + 1) (k + 0) _ (by omega)⟩
    | succ i =>
      obtain ⟨u, hu, hosc, hget⟩ := ih (k := k + 1) (i := i) (v := handCondition t k a v) (by simpa using h)
      rw [show k + 1 + i = k + (i + 1) by omega] at hu hget
      exact ⟨u, hu.trans (handCondition_other (by omega) t a v),
        hosc.trans (Live.osc_of_kept (handCondition_kept t k a v)), hget⟩

/-- A condition that holds as its point stands at its reset value: the point begins its raise soak, or is RAISED at once
where that is 0 (R168). -/
theorem handCondition_fresh {t : Tables} {i : Nat} {v : Live} (h : v.alarms.points[i]? = some Reset.point) :
    (0 < (pointCfg t i).raiseSoak → (handCondition t i true v).alarms.points[i]? = some { Reset.point with
      state := .raising, soak := some v.osc, cond := true }) ∧
    ((pointCfg t i).raiseSoak = 0 → (handCondition t i true v).alarms.points[i]? = some { Reset.point with
      state := .raised, cond := true, severity := some (pointCfg t i).severity, raises := 1 }) := by
  rw [handCondition_clear h Bool.false_ne_true rfl]
  have hmapped : (mapPoint i (fun p => { p with cond := true, state := .raising, soak := some v.osc }) v).alarms.points[i]? =
      some { Reset.point with state := .raising, soak := some v.osc, cond := true } := mapPoint_get h _
  have hosc : (mapPoint i (fun p => { p with cond := true, state := .raising, soak := some v.osc }) v).osc = v.osc := rfl
  generalize mapPoint i (fun p => { p with cond := true, state := .raising, soak := some v.osc }) v = w at hmapped hosc ⊢
  refine ⟨fun hpos => ?_, fun hzero => ?_⟩
  · rw [soakCheck_waits (k := v.osc) hmapped rfl (fun _ => ?_) nofun]
    · exact hmapped
    · rw [hosc, Nat.sub_self]
      exact soakPeriods_pos hpos
  · rw [soakCheck_raises (k := v.osc) hmapped rfl rfl]
    · exact raisePoint_get hmapped t
    · rw [hzero]
      exact Nat.zero_le _

theorem refreshAlarms_running {t : Tables} {v : Live} (hrun : v.part = .running) :
    refreshAlarms t v = handConditions t 0 (conditions t v) v := by
  unfold refreshAlarms
  rw [hrun]

theorem refreshAlarms_fresh {t : Tables} {i : Nat} {v : Live} (hrun : v.part = .running)
    (hp : v.alarms.points[i]? = some Reset.point) (hc : (conditions t v)[i]? = some true) :
    (0 < (pointCfg t i).raiseSoak → (refreshAlarms t v).alarms.points[i]? = some { Reset.point with
      state := .raising, soak := some v.osc, cond := true }) ∧
    ((pointCfg t i).raiseSoak = 0 → (refreshAlarms t v).alarms.points[i]? = some { Reset.point with
      state := .raised, cond := true, severity := some (pointCfg t i).severity, raises := 1 }) := by
  obtain ⟨u, hu, hosc, hget⟩ := handConditions_get (t := t) (k := 0) (v := v) hc
  rw [Nat.zero_add] at hu hget
  rw [refreshAlarms_running hrun, hget, ← hosc]
  exact handCondition_fresh (hu.trans hp)

/-- An access port as it starts (R164). -/
def AccessPort.started (c : AccessCfg) (ps : Nat) : AccessPort :=
  { Reset.access with
    state := if c.mode = .off then .off else if c.loss = .squelch then .squelched else .degraded
    jp := epochAbove c.rate ps }

theorem startAccess_eq (t : Tables) (i : Fin 4) (v : Live) : startAccess t i v =
    v.mapAccess i (fun _ => AccessPort.started (t.port.access.get i) v.ts.value.toPs) := by
  unfold startAccess Live.resetJp Live.mapAccess
  dsimp only
  rw [Quad.get_set_same, Quad.set_set]
  rfl

theorem Quad.get_tuple {α : Type} (f : Fin 4 → α) (i : Fin 4) : (⟨f 0, f 1, f 2, f 3⟩ : Quad α).get i = f i := by
  fin_cases i <;> rfl

theorem Quad.set_all {α : Type} (q : Quad α) (a b c d : α) :
    (((q.set 0 a).set 1 b).set 2 c).set 3 d = ⟨a, b, c, d⟩ := rfl

/-- The access ports as they start: nothing else changes. -/
theorem startAccess_all (t : Tables) (v : Live) : ∃ ac : Quad AccessPort,
    startAccess t 3 (startAccess t 2 (startAccess t 1 (startAccess t 0 v))) = { v with access := ac } ∧
    ∀ i, ac.get i = AccessPort.started (t.port.access.get i) v.ts.value.toPs := by
  refine ⟨_, ?_, Quad.get_tuple fun i => AccessPort.started (t.port.access.get i) v.ts.value.toPs⟩
  rw [startAccess_eq, startAccess_eq, startAccess_eq, startAccess_eq]
  unfold Live.mapAccess
  dsimp only
  rw [Quad.set_all]

theorem Live.Alarmed.access {v w : Live} (h : v.Alarmed w) : w.access = v.access := by
  obtain ⟨_, _, _, _, _, rfl⟩ := h
  rfl

theorem takeConditions_access (t : Tables) (v : Live) (i : Fin 4) : (takeConditions t v).access.get i =
    AccessPort.started (t.port.access.get i) v.ts.value.toPs := by
  obtain ⟨ac, hac, hget⟩ := startAccess_all t v
  unfold takeConditions
  rw [hac, ← hget, (refreshAlarms_alarmed t { v with access := ac }).access]

end Sys2Proof.Machine
end

section
/-! The settlement of O6. -/

namespace Sys2Proof.Machine

/-- The blocks as the end of LOADING finds them, RUNNING. -/
def Live.entering (v : Live) : Live := { v with part := .running, nodeKept := false }

theorem exec_loadingEnd_loading {s : State} (h : s.live.part = .loading) (n : Nat) : exec (.loadingEnd n) s = .next { s with
    live := finish s.tables (takeUp s.tables (takeConditions s.tables (s.live.elapse n).entering)) } := by
  have hpart : (s.elapse n).live.part = .loading := h
  have hexec : exec (.loadingEnd n) s = .next (s.elapse n).endLoading := rfl
  rw [hexec, State.endLoading, hpart] <;> rfl

theorem exec_loadingEnd_running {s : State} (h : s.live.part = .running) (n : Nat) :
    exec (.loadingEnd n) s = .next (s.elapse n) := by
  have hpart : (s.elapse n).live.part = .running := h
  have hexec : exec (.loadingEnd n) s = .next (s.elapse n).endLoading := rfl
  rw [hexec, State.endLoading, hpart]

/-- What the start of the access ports and of the points leaves. -/
theorem takeConditions_keeps (t : Tables) (v : Live) : (takeConditions t v).part = v.part ∧
    (takeConditions t v).osc = v.osc ∧ (takeConditions t v).ts.k = v.ts.k ∧
    (takeConditions t v).thermal = v.thermal ∧ (takeConditions t v).mgmt = v.mgmt ∧
    (takeConditions t v).spans = v.spans := by
  obtain ⟨ac, hac, -⟩ := startAccess_all t v
  unfold takeConditions
  rw [hac]
  generalize hu : ({ v with access := ac } : Live) = u
  have hkept := refreshAlarms_kept t u
  rw [Live.part_of_kept hkept, Live.osc_of_kept hkept, Live.k_of_kept hkept, Live.thermal_of_kept hkept,
    Live.mgmt_of_kept hkept, (refreshAlarms_alarmed t u).spans, ← hu]
  exact ⟨rfl, rfl, rfl, rfl, rfl, rfl⟩

/-- The point of SPAN-DOWN of a line port. -/
def spanDownPoint (d : Side) : Nat := match d with | .east => 6 | .west => 7

theorem conditions_spanDown {t : Tables} {v : Live} {d : Side} (h : (v.span d).state = .down) :
    (conditions t v)[spanDownPoint d]? = some true := by
  have hdown : v.spanIs d .down = true := (Live.spanIs_iff v d .down).mpr h
  cases d with
  | east => exact congrArg some hdown
  | west => exact congrArg some hdown

/-- SPAN-DOWN of a span that is DOWN at the start (R177). -/
theorem takeConditions_spanDown {t : Tables} {v : Live} (hrun : v.part = .running)
    (hpoints : v.alarms.points = List.replicate 21 Reset.point) {d : Side} (hdown : (v.span d).state = .down) {i : Nat}
    (hi : i = spanDownPoint d) :
    (0 < (pointCfg t i).raiseSoak → (takeConditions t v).alarms.points[i]? = some { Reset.point with
      state := .raising, soak := some v.osc, cond := true }) ∧
    ((pointCfg t i).raiseSoak = 0 → (takeConditions t v).alarms.points[i]? = some { Reset.point with
      state := .raised, cond := true, severity := some (pointCfg t i).severity, raises := 1 }) := by
  obtain ⟨ac, hac, -⟩ := startAccess_all t v
  have hlt : i < 21 := by
    rw [hi]
    cases d <;> decide
  have hpoint : ({ v with access := ac } : Live).alarms.points[i]? = some Reset.point := by
    show v.alarms.points[i]? = _
    rw [hpoints]
    exact List.getElem?_replicate_of_lt hlt
  unfold takeConditions
  rw [hac]
  exact refreshAlarms_fresh (v := { v with access := ac }) hrun hpoint (hi ▸ conditions_spanDown hdown)

/-- The blocks of a part that has entered RUNNING. -/
theorem entered_keeps (t : Tables) (v : Live) {w : Live} (hw : w = finish t (takeUp t (takeConditions t v))) :
    w.part = v.part ∧ w.ts.value = v.ts.value ∧ w.ts.rem = v.ts.rem ∧ w.ts.steps = v.ts.steps ∧ w.ts.k = v.ts.k ∧
    w.thermal = v.thermal ∧ w.mgmt = v.mgmt ∧ (∀ d, (w.span d).nextProbe = some (v.osc + 125000000)) ∧
    (originRole t = .primary → w.epoch.active = true) := by
  obtain ⟨hpart, hosc, hk, hthermal, hmgmt, -⟩ := takeConditions_keeps t v
  obtain ⟨hpart', hk', hthermal', hmgmt', hprobe⟩ := takeUp_keeps t (takeConditions t v)
  have hcalm : v.Steady (takeUp t (takeConditions t v)) :=
    ((takeUp_calm t _).after (takeConditions_still t v).calm).toSteady
  have hfinish := Live.Paced.of_kept (finish_kept t (takeUp t (takeConditions t v)))
  subst hw
  refine ⟨hfinish.part.trans (hpart'.trans hpart), (finish_value t _).trans hcalm.value,
    (finish_rem t _).trans hcalm.rem, (finish_steps t _).trans hcalm.steps, hfinish.k.trans (hk'.trans hk),
    hfinish.thermal.trans (hthermal'.trans hthermal), hfinish.mgmt.trans (hmgmt'.trans hmgmt),
    fun d => (hfinish.probe d).trans (hosc ▸ hprobe d), fun hrole => ?_⟩
  have hactive : (takeUp t (takeConditions t v)).epoch.active = true := by
    rw [takeUp_eq, hrole]
    exact congrArg Epoch.active (becomeActive_epoch t _)
  obtain ⟨hepoch, -⟩ := (finish_flows t _).active hactive
  rw [hepoch]
  exact hactive

theorem loadingEnd_enters (n : Nat) (s : State) (hload : s.live.part = .loading) :
    ∃ t : State, exec (.loadingEnd n) s = .next t ∧ t.live.part = .running ∧
      t.tables = s.tables ∧ t.locks = s.locks ∧ t.store = s.store ∧
      t.live.ts.value = (s.live.elapse n).ts.value ∧ t.live.ts.steps = s.live.ts.steps ∧
      t.live.ts.k = s.live.ts.k ∧
      (∀ d, (t.live.span d).nextProbe = some (s.live.osc + n + 125000000)) ∧
      (originRole s.tables = .primary → t.live.epoch.active = true) ∧
      ∃ u : Live, u = takeConditions s.tables (s.live.elapse n).entering ∧
        t.live = finish s.tables (takeUp s.tables u) ∧
        (∀ (i : Fin 4) (cfg : AccessCfg), cfg = s.tables.port.access.get i →
          u.access.get i = AccessPort.started cfg (s.live.elapse n).ts.value.toPs) ∧
        (s.live.alarms.points = List.replicate 21 Reset.point →
          ∀ (d : Side) (i : Nat), i = spanDownPoint d → (s.live.span d).state = .down →
            (u.span d).state = .down ∧
            (0 < (pointCfg s.tables i).raiseSoak → u.alarms.points[i]? = some { Reset.point with
              state := .raising, soak := some (s.live.osc + n), cond := true }) ∧
            ((pointCfg s.tables i).raiseSoak = 0 → u.alarms.points[i]? = some { Reset.point with
              state := .raised, cond := true, severity := some (pointCfg s.tables i).severity, raises := 1 })) := by
  refine ⟨_, exec_loadingEnd_loading hload n, ?_⟩
  dsimp only
  generalize hv : s.live.elapse n = v
  have hvosc : v.osc = s.live.osc + n := hv ▸ rfl
  have hvspans : v.spans = s.live.spans := hv ▸ rfl
  have hvpoints : v.alarms = s.live.alarms := hv ▸ rfl
  have hvsteps : v.ts.steps = s.live.ts.steps := hv ▸ s.live.elapse_steps n
  have hvk : v.ts.k = s.live.ts.k := hv ▸ TimeScale.advance_k s.live.ts n
  obtain ⟨hpart, hvalue, -, hsteps, hk, -, -, hprobe, hactive⟩ := entered_keeps s.tables v.entering rfl
  refine ⟨hpart, rfl, rfl, rfl, hvalue, hsteps.trans hvsteps, hk.trans hvk, fun d => ?_, hactive, _, rfl, rfl,
    fun i cfg hcfg => ?_, fun hpoints d i hi hdown => ?_⟩
  · rw [← hvosc]
    exact hprobe d
  · rw [hcfg]
    exact takeConditions_access s.tables v.entering i
  · have hdown' : (v.entering.span d).state = .down := by
      show (v.spans.get d).state = _
      rw [hvspans]
      exact hdown
    rw [← hvosc]
    refine ⟨?_, takeConditions_spanDown (v := v.entering) rfl ((congrArg Alarms.points hvpoints).trans hpoints) hdown' hi⟩
    obtain ⟨-, -, -, -, -, hspans⟩ := takeConditions_keeps s.tables v.entering
    show ((takeConditions s.tables v.entering).spans.get d).state = _
    rw [hspans]
    exact hdown'

/-- Settles O6: what the blocks keep as they take up their work, and each step of the entry by its own equation. -/
theorem loadingEndEntersRunning : Obligations.LoadingEndEntersRunning := by
  unfold Obligations.LoadingEndEntersRunning
  refine ⟨fun n s => ⟨loadingEnd_enters n s, fun hrun => exec_loadingEnd_running hrun n⟩, fun t v w x => ⟨rfl,
    fun i cfg hcfg => ?_, fun d => rfl, fun hw hx => ?_⟩⟩
  · rw [hcfg]
    exact startAccess_eq t i v
  · have hclocks : startClocks t v = x := by
      rw [hx, hw]
      rfl
    rw [takeUp_eq, hclocks]
    refine ⟨fun h => ?_, fun h => ?_, fun h => ?_⟩
    · rw [h]
      rfl
    · rw [h]
      rfl
    · rw [h]
      rfl

end Sys2Proof.Machine
end

section
/-! A soft restart leaves the selection unit and the servo at rest, and the settlement of O7. -/

namespace Sys2Proof.Machine

/-! ## The servo and the manual selection through the taking up of work -/

/-- What the selection unit steers and is steered by. -/
def Live.steering (v : Live) : Servo × Option Cand := (v.servo, v.manual)

theorem Live.Rolled.steering {v w : Live} (h : v.Rolled w) : w.steering = v.steering := by
  obtain ⟨_, _, _, _, _, _, _, rfl⟩ := h
  rfl

theorem Live.Alarmed.steering {v w : Live} (h : v.Alarmed w) : w.steering = v.steering := h.rolled.steering

theorem loseInput_steering (c : Cand) (v : Live) : (loseInput c v).steering = v.steering := by
  unfold loseInput
  split <;> rfl

theorem setSpanState_steering (d : Side) (st : SpanState) (v : Live) : (setSpanState d st v).steering = v.steering := by
  unfold setSpanState
  dsimp only
  split
  · exact loseInput_steering _ _
  · rfl

theorem enterDown_steering (t : Tables) (d : Side) (v : Live) : (enterDown t d v).steering = v.steering := by
  unfold enterDown
  split
  · rfl
  · exact (refreshAlarms_alarmed _ _).steering.trans (setSpanState_steering _ _ _)

theorem probeTimeout_steering (t : Tables) (d : Side) (v : Live) : (probeTimeout t d v).steering = v.steering := by
  unfold probeTimeout
  dsimp only
  split
  · exact enterDown_steering _ _ _
  · rfl

theorem takeLoss_steering (t : Tables) (l : Loss) (v : Live) : (takeLoss t l v).steering = v.steering := by
  cases l with
  | probe d => exact probeTimeout_steering t d v
  | roll seq rev => exact (rollLost_rolled t seq rev v).steering

theorem setClass_steering (t : Tables) (c : QClass) (v : Live) : (setClass t c v).steering = v.steering := by
  obtain ⟨ac, io, h⟩ := judgeAll_served t v.ownClass c { v with ownClass := c }
  refine (refreshAlarms_alarmed t _).steering.trans ?_
  rw [h]
  rfl

theorem withdrawStale_steering (t : Tables) (d : Side) (v : Live) : (withdrawStale t d v).steering = v.steering := by
  unfold withdrawStale
  split
  · exact probeTimeout_steering _ _ _
  · rfl

theorem beginInterval_steering (t : Tables) (d : Side) (v : Live) : (beginInterval t d v).steering = v.steering := by
  rw [beginInterval_eq]
  extract_lets w
  have hw : w.steering = v.steering := withdrawStale_steering t d _
  split
  · exact hw
  · unfold sendProbe
    extract_lets u seq
    have hu : u.steering = w.steering := by
      unfold u
      split
      · exact (refreshAlarms_alarmed _ _).steering.trans (setSpanState_steering _ _ _)
      · rfl
    exact (hand_rolled _ _ _).steering.trans (hu.trans hw)

theorem Live.mapSpan_steering (v : Live) (d : Side) (f : Span → Span) : (v.mapSpan d f).steering = v.steering := rfl

theorem startProbeClock_steering (t : Tables) (d : Side) (v : Live) : (startProbeClock t d v).steering = v.steering :=
  (beginInterval_steering t d _).trans (v.mapSpan_steering d _)

theorem Live.epoch_steering (v : Live) (e : Epoch) : ({ v with epoch := e } : Live).steering = v.steering := rfl

theorem Live.resetJ_steering (t : Tables) (v : Live) : (v.resetJ t).steering = v.steering := by
  unfold Live.resetJ
  exact v.epoch_steering _

theorem takeRole_steering (t : Tables) (v : Live) (r : OriginRole) : (takeRole t v r).steering = v.steering := by
  cases r with
  | primary => exact (becomeActive_rolled t v).steering
  | standby => exact v.epoch_steering _
  | none => rfl

theorem takeUp_steering (t : Tables) (v : Live) : (takeUp t v).steering = v.steering := by
  rw [takeUp_eq, takeRole_steering]
  unfold startClocks
  rw [Live.resetJ_steering, startProbeClock_steering, startProbeClock_steering]

theorem takeConditions_steering (t : Tables) (v : Live) : (takeConditions t v).steering = v.steering := by
  obtain ⟨ac, hac, -⟩ := startAccess_all t v
  unfold takeConditions
  rw [hac]
  exact (refreshAlarms_alarmed t { v with access := ac }).steering

/-! ## A selection unit at rest -/

/-- No candidate is available, none is selected, and the servo stands. -/
structure Live.AtRest (sv : Servo) (v : Live) : Prop where
  steering : v.steering = (sv, none)
  selection : v.selection = none
  idle : ∀ c, (v.cands.get c).isAvailable = false

/-- A candidate that was not available is not available after a calm change. -/
theorem Live.Calm.unavailable {v w : Live} (h : v.Calm w) {c : Cand} (hc : (v.cands.get c).isAvailable = false) :
    (w.cands.get c).isAvailable = false := by
  unfold CandRec.isAvailable at hc ⊢
  rcases h.cands c with ⟨hstate, -⟩ | hlost
  · rw [hstate]
    exact hc
  · rw [hlost]
    rfl

theorem Live.AtRest.calm {sv : Servo} {v w : Live} (h : v.AtRest sv) (k : v.Calm w) (hs : w.steering = v.steering) :
    w.AtRest sv :=
  ⟨hs.trans h.steering, k.selection.trans h.selection, fun c => k.unavailable (h.idle c)⟩

theorem evaluate_atRest {sv : Servo} {v : Live} (h : v.AtRest sv) (t : Tables) : evaluate t v = v := by
  have hmanual : v.manual = none := congrArg Prod.snd h.steering
  have hcancel : cancelManual v = v := by
    unfold cancelManual
    rw [hmanual]
  have hnone : bestEligible t v = none := by
    cases hb : bestEligible t v with
    | none => rfl
    | some c =>
      obtain ⟨havailable, -⟩ := (eligible_iff v c).mp (bestEligible_eligible hb)
      exact absurd ((CandRec.isAvailable_iff _).mpr havailable) (Bool.eq_false_iff.mp (h.idle c))
  have htarget : target t v = v.selection := by
    unfold target
    rw [hmanual, h.selection]
    exact hnone
  exact (evaluate_same (hcancel.symm ▸ htarget)).trans hcancel

/-- What follows from an event leaves a selection unit at rest. -/
theorem finish_atRest {sv : Servo} {v : Live} (h : v.AtRest sv) (t : Tables) : (finish t v).AtRest sv :=
  finish_rule (P := fun w => w.AtRest sv) (Q := fun w => w.AtRest sv) (fun w hw => (evaluate_atRest hw t).symm ▸ hw)
    (fun c w hw => hw.calm (setClass_still t c w).calm (setClass_steering t c w))
    (fun w hw => hw.calm (refreshAlarms_still t w).calm (refreshAlarms_alarmed t w).steering)
    (fun w hw => hw.calm (takeoverCheck_still t w).calm (takeoverCheck_rolled t w).steering)
    (fun l ls w hw => by
      have hdropped : ({ w with losses := ls } : Live).AtRest sv := ⟨hw.steering, hw.selection, hw.idle⟩
      exact hdropped.calm (takeLoss_calm t l _) (takeLoss_steering t l _)) (fun _ hw => hw) h

theorem entered_atRest {sv : Servo} {v : Live} (h : v.AtRest sv) (t : Tables) :
    (finish t (takeUp t (takeConditions t v))).AtRest sv :=
  finish_atRest ((h.calm (takeConditions_still t v).calm (takeConditions_steering t v)).calm (takeUp_calm t _)
    (takeUp_steering t _)) t

/-! ## The blocks as a soft restart sets them (R191) -/

theorem softReset_cands (t : Tables) (v : Live) (c : Cand) :
    (softReset t v).cands.get c = Reset.cand (candEnabled t c) := by cases c <;> rfl

theorem softReset_atRest (t : Tables) (v : Live) : (softReset t v).AtRest v.servo.softReset := by
  refine ⟨rfl, rfl, fun c => ?_⟩
  rw [softReset_cands]
  cases candEnabled t c <;> rfl

theorem softReset_port (t : Tables) (v : Live) (p : Port) : (softReset t v).port p = (v.port p).softReset :=
  Ports.map_get _ _ _

theorem softReset_fTotal (t : Tables) (v : Live) : (softReset t v).ts.fTotal =
    max (-100000000) (min 100000000 (v.servo.integ + v.thermal.fTemp)) := clampSym_eq 100000000 _

theorem softReset_kept (t : Tables) (v : Live) : (softReset t v).osc = v.osc ∧
    (softReset t v).ts.value = v.ts.value ∧ (softReset t v).ts.rem = v.ts.rem ∧
    (softReset t v).ts.steps = v.ts.steps ∧ (softReset t v).ts.k = v.ts.k ∧ (softReset t v).thermal = v.thermal ∧
    (softReset t v).mgmt = v.mgmt.softReset := ⟨rfl, rfl, rfl, rfl, rfl, rfl, rfl⟩

theorem softReset_access (t : Tables) (v : Live) (i : Fin 4) : (softReset t v).access.get i = Reset.access :=
  Quad.get_tuple (fun _ => Reset.access) i

theorem softReset_span (t : Tables) (v : Live) (d : Side) : (softReset t v).span d = Reset.span := by cases d <;> rfl

/-- The part RUNNING again after a soft restart. -/
def Live.resumed (v : Live) : Live := { v with part := .running }

theorem exec_softRestart_due {s : State} (hrun : s.live.part = .running) (hdue : s.live.restartDue = true) (n : Nat) :
    exec (.softRestartEffect n) s = .next { s with live := finish s.tables (takeUp s.tables
      (takeConditions s.tables (softReset s.tables (s.live.elapse n)).resumed)) } := by
  have hpart : (s.elapse n).live.part = .running := hrun
  have hdue' : (s.elapse n).live.restartDue = true := hdue
  have hexec : exec (.softRestartEffect n) s = .next (s.elapse n).restart := rfl
  rw [hexec, State.restart, hpart]
  dsimp only
  rw [hdue', if_pos rfl]
  rfl

/-- Settles O7: the reset values block by block, what the taking up of work keeps of them, and a selection unit that
stays at rest. -/
theorem softRestartKeepsWhatItMust : Obligations.SoftRestartKeepsWhatItMust := by
  unfold Obligations.SoftRestartKeepsWhatItMust
  intro n s hrun hdue
  refine ⟨_, exec_softRestart_due hrun hdue n, rfl, ?_⟩
  dsimp only
  generalize hv : s.live.elapse n = v
  have hvosc : v.osc = s.live.osc + n := hv ▸ rfl
  have hvsteps : v.ts.steps = s.live.ts.steps := hv ▸ s.live.elapse_steps n
  have hvk : v.ts.k = s.live.ts.k := hv ▸ TimeScale.advance_k s.live.ts n
  have hvkept : v.servo = s.live.servo ∧ v.thermal = s.live.thermal ∧ v.mgmt = s.live.mgmt ∧ v.hold = s.live.hold ∧
      v.alarms = s.live.alarms ∧ v.io = s.live.io := hv ▸ ⟨rfl, rfl, rfl, rfl, rfl, rfl⟩
  obtain ⟨hvservo, hvthermal, hvmgmt, hvhold, hvalarms, hvio⟩ := hvkept
  rw [← hvosc, ← hvsteps, ← hvk, ← hvservo, ← hvthermal, ← hvmgmt, ← hvhold, ← hvalarms]
  generalize hr : softReset s.tables v = r
  obtain ⟨hosc, hvalue, hrem, hsteps, hk, hthermal, hmgmt⟩ := hr ▸ softReset_kept s.tables v
  have hrest : r.resumed.AtRest v.servo.softReset :=
    ⟨(hr ▸ softReset_atRest s.tables v).steering, (hr ▸ softReset_atRest s.tables v).selection,
      (hr ▸ softReset_atRest s.tables v).idle⟩
  obtain ⟨hpart', hvalue', hrem', hsteps', hk', hthermal', hmgmt', -, -⟩ := entered_keeps s.tables r.resumed rfl
  have hend := entered_atRest hrest s.tables
  have hservo : (finish s.tables (takeUp s.tables (takeConditions s.tables r.resumed))).servo = v.servo.softReset :=
    congrArg Prod.fst hend.steering
  refine ⟨hpart', rfl, rfl, rfl, hvalue'.trans hvalue, hrem'.trans hrem, hsteps'.trans hsteps, hk'.trans hk,
    hthermal'.trans hthermal, congrArg Servo.state hservo, (congrArg Servo.integ hservo).trans rfl,
    (congrArg Servo.history hservo).trans rfl,
    hend.selection, congrArg Prod.snd hend.steering, hmgmt'.trans hmgmt, r,
    takeConditions s.tables r.resumed, rfl, rfl, rfl, ?_⟩
  subst hr
  refine ⟨rfl, softReset_fTotal _ _, softReset_cands _ _, rfl, rfl, rfl, rfl, rfl, softReset_access _ _, rfl, rfl, rfl, rfl,
    rfl, rfl, softReset_span _ _, fun p => ?_, fun d i hi => ?_⟩
  · rw [softReset_port]
    unfold Live.port
    rw [hvio]
    rfl
  · have hdown : ((softReset s.tables v).resumed.span d).state = .down := by
      show ((softReset s.tables v).span d).state = _
      rw [softReset_span]
      rfl
    have hpoints : (softReset s.tables v).resumed.alarms.points = List.replicate 21 Reset.point := rfl
    have hpoint := takeConditions_spanDown (t := s.tables) rfl hpoints hdown hi
    have hresumed : (softReset s.tables v).resumed.osc = v.osc := rfl
    rw [hresumed] at hpoint
    exact hpoint

end Sys2Proof.Machine
end
